-- ==== Sys2Proof/Word.lean ====
section
/-! DEFINITION. The word types of the wire formats and their plainest arithmetic. -/

namespace Sys2Proof

/-- One byte of a ring entry, a table, a package or a record (00_scope.md, R6, R7). -/
abbrev Byte := BitVec 8
/-- A u16 field. -/
abbrev U16 := BitVec 16
/-- A u32 field. -/
abbrev U32 := BitVec 32
/-- A u64 field. -/
abbrev U64 := BitVec 64
/-- A 48-bit device address (13_memory_qos.md, Table 13.1). -/
abbrev DevAddr := BitVec 48

/-- A PCIe function: 0-15 are the VFs of tenants 0-15, 16 is the PF (05_pcie_setup_registers.md, R166). -/
abbrev Fn := Fin 17
/-- A tenant, which is a VF (00_scope.md, Table 0.3). -/
abbrev Tenant := Fin 16
/-- A row of the die (01_module_tray_die.md, R23). -/
abbrev Row := Fin 8
/-- A chain link of the module (01_module_tray_die.md, Table 1.2). -/
abbrev Link := Fin 4
/-- A module number (01_module_tray_die.md, R19). -/
abbrev ModuleNo := Fin 8
/-- A DRAM channel; the memory node of row r drives channels 2r and 2r + 1 (R437). -/
abbrev Channel := Fin 16
/-- A control-structure index of a virtual channel, VC0-VC3 (14_filigree_chain.md, Table 14.1). -/
abbrev Vc := Fin 4

/-- The PF's function number. -/
def pfFn : Fn := 16

end Sys2Proof
end

