-- ==== Sys2Proof/Syntax.lean ====
section
/-! DEFINITION. The commands of the block: one constructor of `Instr` per row of spec/opcode_table.json, with the
operand types they carry. Wire fields are bit vectors of the width the spec gives them; indices of built units are
bounded; what the outside world measures (a frequency, a temperature, a time) is a number in the unit named. -/

namespace Sys2Proof

/-! ### Units, service classes and failure classes -/

/-- Unit kinds (04_hallmark.md, Table 4.5; codes 1-10), and the parts of Table 1.4 that have no KIND. -/
inductive UnitKind where
  | facetTile | decodeEngine | visionEngine | motionEngine | postEngine | dramChannel
  | controlCluster | poolNode | chainLink | row
  | hostPortA | hostPortB | assayNode | mgmtBridge
  deriving DecidableEq, Repr

/-- One unit of the die, by kind and unit number (01_module_tray_die.md, R24, Table 1.1). -/
structure UnitRef where
  kind : UnitKind
  num : Nat
  deriving DecidableEq, Repr

/-- Service classes (15_admission_latency.md, Table 15.4). -/
inductive ServiceClass where
  | urgent | guaranteed | bestEffort
  deriving DecidableEq, Repr

/-- Failure classes (16_safety_recovery.md, Table 16.1), in code order from 0x0400. -/
inductive FaultClass where
  | lockstepMismatch | eccUncorrectable | touchstoneMismatch | auditMismatch | recordCrc
  | heartbeatFault | timeIntegrity | thermalRunaway | filigreeDrainFault
  deriving DecidableEq, Repr

/-- The five stages of a frame, T+0 to T+4 (02_tick_commit.md, Table 2.1). -/
inductive Stage where
  | decode | prepare | infer | post | emit
  deriving DecidableEq, Repr

end Sys2Proof

namespace Sys2Proof.Machine

/-! ### Data that modules send each other, and the state holds (11_detections_records.md, 08_vision_motion.md) -/

/-- A box in 1/16 pixel. -/
structure Box where
  x0 : Nat
  y0 : Nat
  x1 : Nat
  y1 : Nat
  deriving DecidableEq, Repr, Inhabited

/-- A detection entry (Table 11.7). -/
structure Detection where
  cls : Nat
  score : Nat
  box : Box
  trackId : Nat
  vx : Int
  vy : Int
  zones : Nat
  head : Nat
  flags : Nat
  attrClass : Nat
  attrScore : Nat
  lines : Nat
  trackState : Nat
  index : Nat
  deriving DecidableEq, Repr

/-- A summary entry (R400). -/
structure Summary where
  head : Nat
  zone : Nat
  cells : Nat
  shares : List Nat
  deriving DecidableEq, Repr

structure BindEntry where
  model : Nat
  role : Nat
  sourceHead : Nat
  maxBoxes : Nat
  deriving DecidableEq, Repr

structure Zone where
  ref : Nat
  dirX : Int
  dirY : Int
  vertices : List (Nat × Nat)
  deriving DecidableEq, Repr

structure Line where
  ax : Nat
  ay : Nat
  bx : Nat
  nby : Nat
  ref : Nat
  deriving DecidableEq, Repr

structure RuleRow where
  target : Nat
  frm : Nat
  condition : Nat
  next : Nat
  param : Nat
  action : Nat
  cls : Nat
  alertCode : Nat
  deriving DecidableEq, Repr

inductive TrackState where
  | tentative | confirmed | lost
  deriving DecidableEq, Repr

/-- A track's state on one target (R391). -/
structure TargetState where
  target : Nat
  st : Nat
  since : Nat
  deriving DecidableEq, Repr

/-- A track's box in 1/16 pixel; a prediction is not clipped to the picture (R310). -/
structure TrackBox where
  x0 : Int
  y0 : Int
  x1 : Int
  y1 : Int
  deriving DecidableEq, Repr, Inhabited

structure Track where
  head : Nat
  id : Nat
  cls : Nat
  state : TrackState
  hits : Nat
  misses : Nat
  box : TrackBox
  /-- Its latest velocity, 1/64 pixel per frame period. 08:R311, 11:R387. -/
  velocity : Int × Int
  lastSeq : Nat
  lastCapture : Option Nat
  states : List TargetState
  /-- Zones the track was inside at its previous confirmed frame. -/
  inside : List Nat
  deriving DecidableEq, Repr

/-- Tracker state of a stream: committed, or staged by a frame at T+3 (Table 2.1). -/
structure Tracker where
  tracks : List Track
  /-- Track ID counter, u32. 11:R387. -/
  nextId : Nat
  deriving DecidableEq, Repr

/-- An alert a frame raised (R391, R392). -/
structure AlertNote where
  row : Nat
  target : Nat
  code : Nat
  trackId : Nat
  det : Detection
  deriving DecidableEq, Repr

/-- A mirror of a stream (R513), with what re-homing opens it by (R515). -/
structure Mirror where
  /-- The module that sent it. -/
  home : Nat
  handle : Nat
  fn : Fn
  ingestSlot : Nat
  metadataSlot : Nat
  cls : ServiceClass
  codec : Nat
  seiSource : Bool
  poolMode : Bool
  width : Nat
  height : Nat
  frameRate : Nat
  timeCodeOffset : Int
  baseUncertainty : Nat
  motionMode : Nat
  binding : List BindEntry
  tracker : Tracker
  zones : List Zone
  lines : List Line
  rules : List RuleRow
  frameSeq : Nat
  tokens : Nat
  tableEpoch : Nat
  quant : List (Nat × Nat)
  deriving DecidableEq, Repr

end Sys2Proof.Machine

namespace Sys2Proof

/-! ### Tick family -/

/-- What the world outside the commit sequencer presents at a tick edge: the assay monitor's measurement of the
tick just ended (R548), whether the two heartbeat generators differ (R553), the records whose CRC host port B finds
wrong, by their place in the issue order (R541), and the hottest junction is not here: it is THERMAL_THROTTLE's. -/
structure CommitIn where
  measuredNs : Nat
  heartbeatsDiffer : Bool
  badCrc : List Nat
  deriving DecidableEq, Repr

/-- A stage that a unit did not finish by its deadline (R64). -/
structure OverrunIn where
  handle : U16
  seq : U64
  unit : UnitRef
  deriving DecidableEq, Repr

/-- A fault a unit reports for the job of a frame (R85), or for a frame already emitted (R88). `cls` is its failure class, none for a
tile fault that is none: an array or accumulator parity error, or a token wait that cannot end in time (R352). `stateLost` says that the
error destroyed the stream's committed state (R561). -/
structure FaultIn where
  cls : Option FaultClass
  handle : U16
  seq : U64
  unit : UnitRef
  stateLost : Bool
  deriving DecidableEq, Repr

/-- A frame named by its stream and frame sequence. -/
structure FrameRef where
  handle : U16
  seq : U64
  deriving DecidableEq, Repr

/-! ### Rings -/

/-- A write to the doorbell page: slot, the 8-byte value, the size of the write in bytes, the byte offset within the
slot, whether the posted write was poisoned (R212, Table 5.12), and its time of receipt after the latest tick edge, ns (03:R116). -/
structure DoorbellIn where
  fn : Fn
  slot : BitVec 11
  value : U64
  size : Nat
  offset : Nat
  poisoned : Bool
  afterEdgeNs : Nat
  deriving DecidableEq, Repr

/-- Acceptance by the lead cluster of one ring's available commands, `toEdgeNs` before the next tick edge (R69, R221).
`sources` is what the module then reads, once, for each TABLE_WRITE and FW_DOWNLOAD_CHUNK among them, in ring order
(R229). -/
structure AcceptIn where
  fn : Fn
  slot : BitVec 11
  toEdgeNs : Nat
  sources : List (List Byte)
  deriving DecidableEq, Repr

/-- Which read of the module an answer from host memory belongs to: the next unfetched descriptor of a ring, or one
chunk of the picture with sequence `seq` (or the open picture) of the stream bound to it. -/
inductive ReadKind where
  | descriptor
  | chunk (chunkIndex : Nat)
  deriving DecidableEq, Repr

/-- Which read: the function, the ring's slot and the kind. For a chunk, `seq` is its picture's frame sequence. -/
structure ReadRef where
  fn : Fn
  slot : BitVec 11
  kind : ReadKind
  seq : U64
  deriving DecidableEq, Repr

/-- A read that has had no completion for `ageNs` ns (R658). -/
structure TimeoutIn where
  ref : ReadRef
  ageNs : Nat
  deriving DecidableEq, Repr

/-- Data returned for a read, or a poisoned completion (R269, Table 5.12). -/
structure HostReadIn where
  ref : ReadRef
  data : List Byte
  poisoned : Bool
  deriving DecidableEq, Repr

/-! ### Ring commands (06_rings_commands.md, Table 6.10) -/

/-- The header of a command descriptor (Table 6.6) with the function and ring it came from. -/
structure CmdHead where
  fn : Fn
  slot : U16
  commandId : U16
  flags : Byte
  doneClasp : U16
  deriving DecidableEq, Repr

structure TenantConfigureP where
  tenant : Byte
  partition : Byte
  queueQuota : U16
  deriving DecidableEq, Repr

structure PartitionPlanP where
  startMask : Byte
  deriving DecidableEq, Repr

structure QueueCreateP where
  slot : U16
  queueType : Byte
  log2Entries : Byte
  msixVector : U16
  pairedSlot : U16
  base : U64
  indexAddr : U64
  deriving DecidableEq, Repr

structure SlotP where
  slot : U16
  deriving DecidableEq, Repr

structure ModelLoadP where
  model : Byte
  bytes : U32
  package : U64
  deriving DecidableEq, Repr

structure ModelP where
  model : Byte
  deriving DecidableEq, Repr

structure StreamOpenP where
  ingestSlot : U16
  metadataSlot : U16
  model : Byte
  cls : Byte
  codec : Byte
  flags : Byte
  width : U16
  height : U16
  frameRate : U32
  timeCodeOffset : U64
  baseUncertainty : U32
  motionMode : Byte
  deriving DecidableEq, Repr

structure HandleP where
  handle : U16
  deriving DecidableEq, Repr

structure StreamModifyP where
  handle : U16
  change : Byte
  cls : Byte
  model : Byte
  motionMode : Byte
  frameRate : U32
  deriving DecidableEq, Repr

structure StreamMigrateP where
  handle : U16
  targetModule : Byte
  decodeModule : Byte
  deriving DecidableEq, Repr

/-- TABLE_WRITE with the source data the module read for it once (R229). -/
structure TableWriteP where
  handle : U16
  table : Byte
  bytes : U32
  source : U64
  data : List Byte
  deriving DecidableEq, Repr

structure ClaspCreateP where
  initial : U64
  mirrorAddr : U64
  threshold : U64
  msixVector : U16
  deriving DecidableEq, Repr

structure ClaspSignalP where
  clasp : U16
  op : Byte
  msixVector : U16
  value : U64
  mirrorAddr : U64
  deriving DecidableEq, Repr

structure ClaspP where
  clasp : U16
  deriving DecidableEq, Repr

/-- CALIBRATION_POLICY fields (10_quantization.md, Table 10.4). -/
structure CalibrationP where
  model : Byte
  mode : Byte
  maxStep : Byte
  dMin : Byte
  dMax : Byte
  clipHigh : U16
  clipLow : U16
  headroom : Byte
  interval : U16
  minSamples : U32
  deriving DecidableEq, Repr

/-- SAMPLE_START with its session fields (08_vision_motion.md, Table 8.5). -/
structure SampleStartP where
  sampleSlot : U16
  order : Byte
  seed : U64
  dataBase : U64
  stream : U16
  kind : Byte
  format : Byte
  outWidth : U16
  outHeight : U16
  epochTicks : U32
  setSize : U32
  quota : U32
  deriving DecidableEq, Repr

structure TimeSetP where
  nextPpsTime : U64
  deriving DecidableEq, Repr

/-- FW_DOWNLOAD_CHUNK with the source data read for it (R229). -/
structure FwChunkP where
  component : Byte
  offset : U32
  source : U64
  bytes : U32
  data : List Byte
  deriving DecidableEq, Repr

structure ComponentP where
  component : Byte
  deriving DecidableEq, Repr

structure AuditReadP where
  audit : Byte
  bytes : U32
  dest : U64
  deriving DecidableEq, Repr

/-- A decoded ring command: what COMMIT applies for an accepted descriptor. -/
inductive RingCmd where
  | tenantConfigure (p : TenantConfigureP)
  | partitionPlan (p : PartitionPlanP)
  | queueCreate (p : QueueCreateP)
  | queueDestroy (p : SlotP)
  | modelLoad (p : ModelLoadP)
  | modelUnload (p : ModelP)
  | streamOpen (p : StreamOpenP)
  | streamClose (p : HandleP)
  | streamModify (p : StreamModifyP)
  | streamMigrate (p : StreamMigrateP)
  | tableWrite (p : TableWriteP)
  | claspCreate (p : ClaspCreateP)
  | claspSignal (p : ClaspSignalP)
  | claspDestroy (p : ClaspP)
  | calibrationPolicy (p : CalibrationP)
  | sampleStart (p : SampleStartP)
  | sampleStop (p : SlotP)
  | timeSet (p : TimeSetP)
  | fwDownloadChunk (p : FwChunkP)
  | fwVerify (p : ComponentP)
  | fwActivate (p : ComponentP)
  | fwConfirm (p : ComponentP)
  | auditRead (p : AuditReadP)
  | nop
  deriving DecidableEq, Repr

/-- The package a MODEL_LOAD fetched, as MODEL_LOAD_COMPLETE checks it (R346). -/
structure ModelLoadedIn where
  fn : Fn
  model : Byte
  package : List Byte
  deriving DecidableEq, Repr

/-- A loaded model named by its function. -/
structure ModelRef where
  fn : Fn
  model : Byte
  deriving DecidableEq, Repr

/-- One entry of the binding table of a migrating stream (Table 7.2), with the model's package CRC (Table 14.4). -/
structure MigrationModelIn where
  model : Byte
  role : Byte
  sourceHead : Byte
  maxBoxes : U16
  crc : U32
  deriving DecidableEq, Repr

/-- An admission request from a home module for its share of a migrating stream (R510, Table 14.4): the stream's
charges are those of a stream of these parameters. -/
structure MigrationRequestIn where
  home : ModuleNo
  handle : U16
  cls : Byte
  codec : Byte
  poolMode : Bool
  width : U16
  height : U16
  frameRate : U32
  motionMode : Byte
  decodeHere : Bool
  inferHere : Bool
  models : List MigrationModelIn
  deriving DecidableEq, Repr

/-- The records of a frame formed at a migrated stream's target module (R511): the commit's tick and the frame's T+0 by that module's
counter, and what the frame's end holds. -/
structure RemoteRecordsIn where
  handle : U16
  seq : U64
  t0 : U64
  outcome : Byte
  cause : Byte
  deferTicks : Byte
  timeState : Byte
  capture : U64
  uncertainty : U16
  concealKind : Byte
  concealedBlocks : U16
  dets : List Machine.Detection
  summaries : List Machine.Summary
  alerts : List Machine.AlertNote
  suppressed : U16
  totalDets : U16
  deriving DecidableEq, Repr

/-- What the copy of a migration moves to this module, or its completion at the home module (R510). `refused` carries a
named module's refusal reason (Table 15.3). -/
structure MigrationCopyIn where
  handle : U16
  refused : Option U16
  deriving DecidableEq, Repr

/-! ### Registers and PCIe events -/

/-- A write to BAR0 of a function (R167, R169), and the time left to the next tick edge (R14, R15). -/
structure RegWriteIn where
  fn : Fn
  offset : BitVec 16
  value : U64
  size : Nat
  poisoned : Bool
  toEdgeNs : Nat
  deriving DecidableEq, Repr

/-- SAMPLE_ALLOW write: the value and the time left to the next tick edge (R14, R15). -/
structure SampleAllowIn where
  value : U16
  toEdgeNs : Nat
  deriving DecidableEq, Repr

structure MsixUnmaskIn where
  fn : Fn
  vector : Nat
  deriving DecidableEq, Repr

/-- The writable registers of a function's configuration space beside the enables (Tables 5.1 and 5.2, R658): base addresses (the
PF's SR-IOV VF BARs beside its own), the PF's Completion Timeout fields, and AER: status bits to clear, mask and severity. -/
structure ConfigIn where
  bar0 : U64
  bar2 : U64
  vfBar0 : U64
  vfBar2 : U64
  timeoutValue : BitVec 4
  timeoutDisable : Bool
  aerClear : U32
  aerMask : U32
  aerSeverity : U32
  deriving DecidableEq, Repr

/-- The enables of a function's configuration header after the write: Bus Master Enable, Memory Space Enable and MSI-X
Enable; and its other registers when the write reaches them. -/
structure BusMasterIn where
  fn : Fn
  enable : Bool
  memory : Bool
  msix : Bool
  config : Option ConfigIn := none
  deriving DecidableEq, Repr

structure LinkTrainIn where
  lanes : Nat
  /-- Rate in units of 0.1 GT/s: 25, 50, 80, 160, 320. -/
  rate10 : Nat
  deriving DecidableEq, Repr

/-! ### Time -/

/-- A rising PPS edge: its time after the latest tick edge in ns that the OCXO counts at its nominal frequency, its pulse width, and
the OCXO's deviation from the 10 MHz reference over the interval it ends, in parts per thousand million, when the reference was
present. -/
structure PpsIn where
  afterEdgeNs : Nat
  widthNs : Nat
  ocxoPpb : Option Int
  deriving DecidableEq, Repr

/-- A 10 MHz rising-edge count in a 2 us window (Table 3.2). -/
structure RefWindowIn where
  edges : Nat
  deriving DecidableEq, Repr

/-- A time after the latest tick edge in ns that the OCXO counts at its nominal frequency. -/
structure AfterEdgeIn where
  afterEdgeNs : Nat
  deriving DecidableEq, Repr

/-- What rejects a reference (Table 3.2): a 10 MHz measurement, or the deviation of a PPS edge in ns. -/
inductive RateRejectIn where
  | tenMHz (ppb : Int)
  | pps (deviation : Int)
  deriving DecidableEq, Repr

structure MeasureIn where
  ocxoPpb : Int
  deriving DecidableEq, Repr

/-! ### Pools -/

/-- The owner of a buffer (12_buffer_pools.md, Table 12.4). -/
inductive Owner where
  | stream (handle : U16)
  | unit (node : BitVec 7) (num : Byte)
  | scrub | touchstone | firmware | sample
  deriving DecidableEq, Repr

/-- An allocation request from a unit of `row` (R412, R416). `cls` is the service class of the frame served, none for a
module service; `job` is that frame. A sample service buffer names its `session` by function and sample slot (R424). -/
structure AllocIn where
  row : Row
  bytes : U32
  owner : Owner
  cls : Option ServiceClass
  job : Option FrameRef
  session : Option (Fn × BitVec 11)
  deriving DecidableEq, Repr

/-- A release: the pool node's row, the handle, the device address, the releasing node, the owner it names and the frame
whose job releases (R420, R421). -/
structure ReleaseIn where
  row : Row
  handle : U32
  address : DevAddr
  node : BitVec 7
  owner : Owner
  job : Option FrameRef
  deriving DecidableEq, Repr

structure PoolBufIn where
  partition : Nat
  handle : U32
  deriving DecidableEq, Repr

structure ReclaimIn where
  partition : Nat
  owner : Owner
  deriving DecidableEq, Repr

/-! ### Memory nodes -/

/-- A memory request at port `port` of the memory node of `row` (R457, R460). `partition` is the requester's. `data` and
`enables` are a write's bytes and byte enables from the address upward; a read asks for `bytes` bytes. `job` is the frame
whose stage it serves. -/
structure DramReqIn where
  row : Row
  port : Fin 9
  write : Bool
  address : DevAddr
  bytes : Nat
  data : List Byte
  enables : List Bool
  deadline : U16
  partition : Nat
  job : Option FrameRef
  deriving DecidableEq, Repr

/-- What is wrong with the 2 KiB page that a DRAM access reads (R442, R444): the page offsets whose stored bytes are damaged, and whether the
granules were read from a wrong location. -/
structure PageDamage where
  bytes : List (Fin 2048)
  misplaced : Bool
  deriving DecidableEq, Repr

/-- One scheduling decision of a channel, `slot64` units of 64 ns after the tick edge (R460, R461). `blocked` names banks
whose timing constraint is not met yet (R462); `ecc` is the state of the page that a granted read reads. -/
structure SchedIn where
  channel : Channel
  slot64 : U16
  blocked : List (Fin 16)
  ecc : PageDamage
  deriving DecidableEq, Repr

structure ChannelIn where
  channel : Channel
  deriving DecidableEq, Repr

structure TempIn where
  channel : Channel
  celsius : Int
  deriving DecidableEq, Repr

/-- Patrol scrub of one granule of a channel (R465): the granule's number, its channel address divided by 32, and the state of its page. -/
structure ScrubIn where
  channel : Channel
  granule : U32
  ecc : PageDamage
  deriving DecidableEq, Repr

/-! ### Filigree network -/

/-- Ports of a node (Table 16.6): row and column rings, both directions. -/
inductive Port where
  | rowPlus | rowMinus | colPlus | colMinus
  deriving DecidableEq, Repr

/-- The multicast part of a packet (R483). `byRow` is a column multicast's bitmap, indexed by row. -/
structure Mcast where
  bitmap : U16
  missed : U16
  mseq : U16
  gen : Byte
  columnRing : Bool
  deriving DecidableEq, Repr

/-- A Filigree packet (R468, R477, R481, R483). -/
structure FilPacket where
  id : Nat
  vc : Vc
  src : BitVec 7
  dst : BitVec 7
  flits : Nat
  fence : Bool
  isRead : Bool
  mcast : Option Mcast
  partition : Nat
  deriving DecidableEq, Repr

/-- A packet to move on, and the cycles for which the link it takes has sent nothing since its last flit (R469). -/
structure HopIn where
  packet : FilPacket
  idle : Nat
  deriving DecidableEq, Repr

structure CreditIn where
  node : BitVec 7
  port : Port
  vc : Vc
  deriving DecidableEq, Repr

structure TrailAckIn where
  source : BitVec 7
  mseq : U16
  missed : U16
  deriving DecidableEq, Repr

/-! ### Chain links -/

/-- The payload flit of PEER_TICK and TRAIN (R495). -/
structure PeerFlit where
  tick : U64
  deviceTime : U64
  timeState : Byte
  moduleNo : Byte
  tray : Byte
  slot : Byte
  link : Byte
  routeEpoch : Byte
  flags : Byte
  deriving DecidableEq, Repr

structure TrainIn where
  link : Link
  flit : PeerFlit
  deriving DecidableEq, Repr

/-- A PEER_TICK as received, its CRC correct: the fields its header has for the link (Table 14.2), the module it is for, and whether it came
over the direct link (R492, R493). -/
structure PeerTickIn where
  link : Link
  ackSeq : U16
  creditVc : Vc
  creditCount : Nat
  dstModule : ModuleNo
  direct : Bool
  flit : PeerFlit
  deriving DecidableEq, Repr

/-- A DATA packet as received: the fields of its header (Table 14.2), its payload and its CRC. -/
structure ChainDataIn where
  link : Link
  vc : Vc
  fence : Bool
  flits : Nat
  creditVc : Vc
  creditCount : Nat
  linkSeq : U16
  ackSeq : U16
  srcModule : ModuleNo
  srcNode : BitVec 7
  epoch : BitVec 6
  dstModule : ModuleNo
  dstNode : BitVec 7
  e2eSeq : U16
  /-- FLITS x 64 B of Filigree packet. -/
  payload : List Byte
  crc : U32
  /-- The mirror whose last byte this packet carries (R513). -/
  mirror : Option Machine.Mirror
  deriving DecidableEq, Repr

structure NakIn where
  link : Link
  ackSeq : U16
  deriving DecidableEq, Repr

structure LinkIn where
  link : Link
  deriving DecidableEq, Repr

/-- Why a link is declared DOWN, in the order of R499. -/
inductive LinkDownCause where
  | alignmentLost | uncorrectableCodewords | replaysNoProgress | peerTrain
  deriving DecidableEq, Repr

structure LinkDownIn where
  link : Link
  cause : LinkDownCause
  deriving DecidableEq, Repr

/-- A NACK: the packet's source node, destination and end-to-end sequence (R500), and the frame whose job sent it. -/
structure NackIn where
  srcNode : BitVec 7
  dstModule : ModuleNo
  dstNode : BitVec 7
  e2eSeq : U16
  job : Option FrameRef
  deriving DecidableEq, Repr

structure CreditResetIn where
  link : Link
  free : Vector Nat 4
  deriving DecidableEq, Repr

structure ModuleIn where
  moduleNo : ModuleNo
  deriving DecidableEq, Repr

/-- A mirrored stream a buddy holds when its sender is lost (R513, R515). -/
structure RehomeIn where
  handle : U16
  deriving DecidableEq, Repr

/-- Load of another module's partitions, in percent (R534). -/
structure LoadIn where
  moduleNo : ModuleNo
  load : Nat
  deriving DecidableEq, Repr

/-! ### Safety, thermal, start -/

/-- A touchstone job's result on a unit (R549, R550): its 64-bit signature, and the physical column its fault is
localised to when the checks find one (R353). -/
structure TouchstoneIn where
  unit : UnitRef
  signature : U64
  column : Option Nat
  deriving DecidableEq, Repr

structure ClusterIn where
  row : Row
  deriving DecidableEq, Repr

/-- The hottest junction sensor reading in the ending tick, in degrees Celsius (R618). -/
structure JunctionIn where
  celsius : Int
  deriving DecidableEq, Repr

/-- A self-test finding of Table 17.3. -/
inductive SelfTestFinding where
  | unitFails (unit : UnitRef)
  | facetColumn (tile : Fin 16) (column : Byte) (spare : Byte)
  | sramRow (node : BitVec 7) (macroNo : Byte) (sramRow : U16)
  | sramNoSpare (unit : UnitRef)
  | dramRepeat (channel : Channel) (bank : Byte) (dramRow : U32)
  | channelFails (channel : Channel)
  | partFails (part : UnitKind)
  deriving DecidableEq, Repr

/-- The equalisation of a chain link that trained, lane by lane, with its peer's identity (17_power_on_ready.md, R577). -/
structure LinkTraining where
  link : Link
  moduleNo : Byte
  tray : Byte
  slot : Byte
  peerLink : Byte
  lanes : List Byte
  deriving DecidableEq, Repr

/-- What training finds and measures (R577): each channel's DRAM timing and equalisation settings, the chain links that trained, the die
temperature in degrees and the DRAM rails in mV. -/
structure TrainingData where
  channels : List (List Byte)
  links : List LinkTraining
  dieTemp : Int
  rails : List Nat
  deriving DecidableEq, Repr

/-- What bring-up meets (17_power_on_ready.md): slot contacts (R19), which entries of each ledger copy fail their CRC (R586), whether each
firmware slot's image verifies (R575), which copies of the training record have a correct CRC (R578), what training measures and finds
(R577), whether the DRAM eye check passes (R579), the self-test findings (R582), and which banks have no repair resource left (R583). -/
structure BringUpIn where
  slot : Fin 4
  tray : Fin 2
  torn0 : List (Fin 4096)
  torn1 : List (Fin 4096)
  verifiesA : Bool
  verifiesB : Bool
  record0Ok : Bool
  record1Ok : Bool
  training : TrainingData
  eyeOk : Bool
  findings : List SelfTestFinding
  noRepair : List (Channel × Byte)
  deriving DecidableEq, Repr

/-- How a die start comes about (R569, R576). -/
inductive DieStartCause where
  | powerOn | perstAssert
  deriving DecidableEq, Repr

/-! ### Hot-swap stage and MMC -/

/-- Electrical values the hot-swap stage holds at a trip (Table 18.3): output in mV, peak input current in 10 mA units,
ms since the phase began. -/
structure TripIn where
  vOut : U16
  iPeak : U16
  msInPhase : Nat
  deriving DecidableEq, Repr

/-- The input leaves 10.8-13.2 V (R603): what the stage holds then, and whether it lies below 10.2 V (R611). -/
structure InputTripIn where
  trip : TripIn
  below : Bool
  deriving DecidableEq, Repr

/-- EN deasserted for this long, in ms, before it is asserted (R604). -/
structure EnIn where
  lowMs : Nat
  deriving DecidableEq, Repr

/-- Sensor readings the MMC takes (Table 18.5); none is an unreadable sensor (R621). -/
structure SensorIn where
  junctions : List (Option Int)
  dram : List (Option Int)
  inlet : Option Int
  outlet : Option Int
  regulator : Option Int
  p12v : Option Int
  currentA : Option Int
  powerW : Option Int
  deriving DecidableEq, Repr

/-- An SMBus transaction that carries a request: the target address, the clock, and whether its PEC is there and right (R612). -/
structure SmbusIn where
  address : BitVec 7
  kHz : Nat
  pec : Bool
  deriving DecidableEq, Repr

/-- How a management request reached the MMC: SMBus, or PCIe VDM addressed to a function (R613). -/
inductive MgmtPath where
  | smbus (t : SmbusIn)
  | vdm (fn : Fn)
  deriving DecidableEq, Repr

structure MgmtIn where
  path : MgmtPath
  deriving DecidableEq, Repr

structure MgmtByteIn where
  path : MgmtPath
  value : Byte
  deriving DecidableEq, Repr

structure MgmtWordIn where
  path : MgmtPath
  value : U16
  deriving DecidableEq, Repr

/-- REQUEST_UPDATE and UPDATE_COMPONENT name a component (R646). -/
structure MgmtComponentIn where
  path : MgmtPath
  component : U16
  deriving DecidableEq, Repr

/-- UPDATE_COMPONENT with the image data RequestFirmwareData fetches for it (R646). -/
structure MgmtImageIn where
  path : MgmtPath
  component : U16
  image : List Byte
  deriving DecidableEq, Repr

structure TodArmIn where
  path : MgmtPath
  nextPpsTime : U64
  deriving DecidableEq, Repr

structure KeySetIn where
  path : MgmtPath
  tenant : Byte
  key : List Byte
  deriving DecidableEq, Repr

/-- The pin values the boundary-scan register captures from, or the bits shifted in (R597). -/
structure JtagIn where
  bits : List Bool
  deriving DecidableEq, Repr

/-- A metadata ring (R408) or an event ring (R243) at whose turn the sequencer stands. -/
structure RingIn where
  fn : Fn
  slot : BitVec 11
  deriving DecidableEq, Repr

structure FnIn where
  fn : Fn
  deriving DecidableEq, Repr

/-! ### The commands -/

/-- The commands of the block, one per row of spec/opcode_table.json, in the table's order. -/
inductive Instr where
  -- the tick
  | commit (i : CommitIn)
  | stageOverrun (i : OverrunIn)
  | faultReport (i : FaultIn)
  | replayInputsReleased (i : FrameRef)
  | tokenRefill (i : HandleP)
  -- rings
  | doorbell (i : DoorbellIn)
  | commandAccept (i : AcceptIn)
  | hostReadCompletion (i : HostReadIn)
  | completionTimeout (i : TimeoutIn)
  | fetchLate (i : ReadRef)
  -- ring commands and their later steps
  | tenantConfigure (h : CmdHead) (p : TenantConfigureP)
  | partitionPlan (h : CmdHead) (p : PartitionPlanP)
  | queueCreate (h : CmdHead) (p : QueueCreateP)
  | queueDestroy (h : CmdHead) (p : SlotP)
  | modelLoad (h : CmdHead) (p : ModelLoadP)
  | modelLoadComplete (i : ModelLoadedIn)
  | modelUnload (h : CmdHead) (p : ModelP)
  | streamOpen (h : CmdHead) (p : StreamOpenP)
  | streamClose (h : CmdHead) (p : HandleP)
  | streamCloseComplete (i : HandleP)
  | streamModify (h : CmdHead) (p : StreamModifyP)
  | streamMigrate (h : CmdHead) (p : StreamMigrateP)
  | migrationSwitch (i : HandleP)
  | migrationCopyComplete (i : MigrationCopyIn)
  | migrationAdmissionRequest (i : MigrationRequestIn)
  | remoteRecords (i : RemoteRecordsIn)
  | tableWrite (h : CmdHead) (p : TableWriteP)
  | claspCreate (h : CmdHead) (p : ClaspCreateP)
  | claspSignal (h : CmdHead) (p : ClaspSignalP)
  | claspDestroy (h : CmdHead) (p : ClaspP)
  | calibrationPolicy (h : CmdHead) (p : CalibrationP)
  | sampleStart (h : CmdHead) (p : SampleStartP)
  | sampleStop (h : CmdHead) (p : SlotP)
  | timeSet (h : CmdHead) (p : TimeSetP)
  | fwDownloadChunk (h : CmdHead) (p : FwChunkP)
  | fwChunkWritten (i : ComponentP)
  | fwVerify (h : CmdHead) (p : ComponentP)
  | fwVerifyDone (i : ComponentP)
  | fwActivate (h : CmdHead) (p : ComponentP)
  | fwActivateDone (i : ComponentP)
  | fwConfirm (h : CmdHead) (p : ComponentP)
  | fwConfirmDone (i : ComponentP)
  | fwAutoConfirmed (i : ComponentP)
  | auditRead (h : CmdHead) (p : AuditReadP)
  | nop (h : CmdHead)
  -- registers and PCIe
  | sealRow (i : FnIn)
  | sampleAllow (i : SampleAllowIn)
  | registerWrite (i : RegWriteIn)
  | msixUnmask (i : MsixUnmaskIn)
  | busMasterEnable (i : BusMasterIn)
  | flr (i : FnIn)
  | vfEnableClear
  | hotReset
  | pcieLinkDown
  | d3hotEntry
  | linkRetraining (i : LinkTrainIn)
  | resetEnd (i : FnIn)
  | zeroingComplete (i : PoolBufIn)
  -- time
  | ppsEdge (i : PpsIn)
  | timeRefLoss10m (i : RefWindowIn)
  | timeRefLossPps (i : AfterEdgeIn)
  | timeRateReject (i : RateRejectIn)
  | timeHoldoverExpired
  | steppedClear
  | noReference (i : AfterEdgeIn)
  -- pools
  | bufferAllocate (i : AllocIn)
  | bufferRelease (i : ReleaseIn)
  | poolLeakSuspect (i : PoolBufIn)
  | poolForcedReclaim (i : ReclaimIn)
  -- memory nodes
  | dramRequest (i : DramReqIn)
  | schedulingDecision (i : SchedIn)
  | regulatorRefill (i : ClusterIn)
  | refresh (i : ChannelIn)
  | temperatureRead (i : TempIn)
  | zqCalibration (i : ChannelIn)
  | patrolScrub (i : ScrubIn)
  -- Filigree
  | filigreePacketHop (i : HopIn)
  | creditReturn (i : CreditIn)
  | trailingAcknowledgement (i : TrailAckIn)
  | fencedInjection (i : HopIn)
  | segmentHandover
  | filigreeDrainFault
  -- chain links
  | train (i : TrainIn)
  | peerTick (i : PeerTickIn)
  | chainData (i : ChainDataIn)
  | nak (i : NakIn)
  | replayTimeout (i : LinkIn)
  | chainLinkState (i : LinkDownIn)
  | nack (i : NackIn)
  | creditReset (i : CreditResetIn)
  | creditResetAck (i : LinkIn)
  | chainLinkUp (i : LinkIn)
  | chainPeerLost (i : ModuleIn)
  | streamRehomed (i : RehomeIn)
  | mirrorCapture
  | mirrorAbandoned (i : ModuleIn)
  | buddyRelease (i : ModuleIn)
  | loadExchange (i : LoadIn)
  | balanceEvaluation
  -- retune, samples
  | quantRetune (i : ModelRef)
  | sampleEpochEnd (i : RingIn)
  -- safety
  | touchstone (i : TouchstoneIn)
  | touchstoneRetest (i : TouchstoneIn)
  | lockstepMismatch (i : ClusterIn)
  | clusterReload (i : ClusterIn)
  -- thermal
  | thermalThrottle (i : JunctionIn)
  | thermalRunaway (i : JunctionIn)
  | thermalResume
  | thermtrip (i : JunctionIn)
  -- start
  | dieStart (i : DieStartCause)
  | bringUp (i : BringUpIn)
  | ready
  | bootRomWatchdog
  -- power entry
  | auxPowerUp
  | enAssert (i : EnIn)
  | pwrgd
  | enDeassert
  | currentLimitTimeout (i : TripIn)
  | rampTimeout (i : TripIn)
  | overcurrentComparator (i : TripIn)
  | p12vOutOfRange (i : InputTripIn)
  | p12vRecovered
  | retryRamp
  -- evacuation
  | evacuationRequested
  | evacuationComplete
  | evacuationCancelled
  -- the MMC
  | keepAlive
  | telemetryStale
  | mmcWatchdog
  | mmcReturn
  | mmcActivationRestart
  | fanCurveEvaluation
  | sensorRefresh (i : SensorIn)
  -- MCTP and PLDM
  | setEndpointId (i : MgmtByteIn)
  | getEndpointId (i : MgmtIn)
  | getEndpointUuid (i : MgmtIn)
  | getMctpVersionSupport (i : MgmtByteIn)
  | getMessageTypeSupport (i : MgmtIn)
  | getVendorDefinedMessageSupport (i : MgmtByteIn)
  | getTid (i : MgmtIn)
  | setTid (i : MgmtByteIn)
  | getPldmVersion (i : MgmtByteIn)
  | getPldmTypes (i : MgmtIn)
  | getPldmCommands (i : MgmtByteIn)
  | setEventReceiver (i : MgmtByteIn)
  | getEventReceiver (i : MgmtIn)
  | pollForPlatformEventMessage (i : MgmtIn)
  | getSensorReading (i : MgmtWordIn)
  | getStateSensorReadings (i : MgmtWordIn)
  | getPdrRepositoryInfo (i : MgmtIn)
  | getPdr (i : MgmtWordIn)
  | getFruRecordTableMetadata (i : MgmtIn)
  | getFruRecordTable (i : MgmtIn)
  | queryDeviceIdentifiers (i : MgmtIn)
  | getFirmwareParameters (i : MgmtIn)
  | requestUpdate (i : MgmtComponentIn)
  | passComponentTable (i : MgmtComponentIn)
  | updateComponent (i : MgmtImageIn)
  | activateFirmware (i : MgmtIn)
  | getStatus (i : MgmtIn)
  | cancelUpdateComponent (i : MgmtIn)
  | cancelUpdate (i : MgmtIn)
  -- vendor commands
  | todArm (i : TodArmIn)
  | modelKeySet (i : KeySetIn)
  | modelKeyClear (i : MgmtByteIn)
  | hotswapLogRead (i : MgmtByteIn)
  | autoRetry (i : MgmtByteIn)
  -- IEEE 1149.1
  | bypass (i : JtagIn)
  | idcode (i : JtagIn)
  | samplePreload (i : JtagIn)
  | extest (i : JtagIn)
  -- later rows
  | gapWrite (i : RingIn)
  | eventsLost (i : FnIn)
  | measurementWindow (i : MeasureIn)
  | equalisationRetune (i : LinkIn)
  | railOutOfRegulation
  | assayLockstepMismatch
  deriving DecidableEq, Repr

end Sys2Proof
end

