-- ==== Sys2Proof/Decode.lean ====
section
/-! DEFINITION. The command a word of spec/opcode_table.json spells. The table gives none of its rows any bits: a command
of this block is a whole step with its operands, and no word stands for one (notes/assumptions/3.md). -/

namespace Sys2Proof

/-- No row of the table has bits, so every word spells no command. -/
def decodeTableWord (_nbits _w : Nat) : Option Instr := none

end Sys2Proof
end

