-- ==== Sys2Proof/Machine/State.lean ====
section
/-! DEFINITION. The state of the PV-960 as plain data: every piece of state the spec gives the block, its reset value,
and the reasons a step can stop. A field's docstring ends with the section file and rule that names it ("03:R106" is
rule R106 of spec/03_time_reference.md) and its reset value; DC n and PRESUMED n point to notes/assumptions/n.md. -/

namespace Sys2Proof.Machine

/-! ### Reasons to stop -/

/-- A fault stops the machine. The spec gives every failure of this block an effect (an event, a status, a safe state,
FAILED), so nothing raises a fault and the type has no constructor: that is safe, since no run stops where the hardware
goes on. -/
inductive Fault where
  deriving DecidableEq, Repr

/-- A refusal: the model has no meaning for the command. -/
inductive Refusal where
  /-- Raised by a command of the table that has no meaning yet, by its mnemonic. Safe: nothing can be proved of it. -/
  | notModelled (mnemonic : String)
  deriving DecidableEq, Repr

/-! ### Time unit (03_time_reference.md) -/

/-- States of the time unit (Table 3.1). -/
inductive TimeMode where
  | freeRun | holdover | locked
  deriving DecidableEq, Repr

/-- An armed time-of-day (R101-R104): from TIME_SET (`head` names the command) or over SMBus. -/
structure Armed where
  value : Nat
  head : Option CmdHead
  /-- OCXO time of the edge of the commit at which the arming took effect. -/
  atNs : Nat
  deriving DecidableEq, Repr

/-- A time-of-day loaded at a PPS edge and applied at the next commit (R102): the step in ns. -/
structure Loaded where
  step : Int
  head : Option CmdHead
  deriving DecidableEq, Repr

/-- The anchor of u_dev in FREE-RUN (Table 3.1): OCXO time of the anchor and u_a in units of
10^-10 ns. -/
structure Anchor where
  ocxoNs : Nat
  uA : Nat
  deriving DecidableEq, Repr

/-- A time event waiting for the next commit (R114): its code and the s64 of its DETAIL. -/
structure TimeNote where
  code : Nat
  value : Int
  deriving DecidableEq, Repr

structure Clock where
  /-- Tick counter, 48 bits. 02:R59. Reset 0. -/
  tick : Nat
  /-- The time unit's second tick counter, 48 bits, compared by the assay monitor. 16:R548. Reset 0. -/
  twin : Nat
  /-- Actual length of the tick that begins at the latest edge, ns. 02:R55, 02:R56. Reset 1666667. -/
  lastLen : Nat
  /-- Time since tick 0 by the OCXO at the frequency in use, ns, at the latest edge. 03:R657. Reset 0. -/
  ocxoNs : Nat
  /-- Sum of the steps of device time, ns; device time is the nominal time of the tick plus this. 03:R105, 03:R656. Reset 0. -/
  stepTotal : Int
  /-- State of the time unit as visible. 03:R106. Reset FREE-RUN. -/
  mode : TimeMode
  /-- Time-of-day has been loaded since power-on. 03:R122. Reset 0. -/
  todValid : Bool
  /-- Time-of-day has been loaded since the die start, at which device time returned to 0. 03:R106. Reset 0. -/
  todLoaded : Bool
  /-- Remaining phase error, signed ns. 03:R656, 03:R109. Reset 0. -/
  phaseErr : Int
  /-- Phase error measured on the latest accepted edge, ns. 03:R106, 03:R656. Reset none. -/
  edgeErr : Option Int
  /-- The 10 MHz reference counts as valid. 03:R112. Reset 0. -/
  refValid : Bool
  /-- The PPS counts as valid. 03:R112. Reset 0. -/
  ppsValid : Bool
  /-- Consecutive good 10 MHz measurements towards requalification, 0-3. 03:R112. Reset 0. -/
  refRun : Nat
  /-- Consecutive PPS edges 1 s within 20 us of 1 s apart towards requalification, 0-3. 03:R112. Reset 0. -/
  ppsRun : Nat
  /-- Consecutive PPS edges at which both references are valid, 0-3. 03:R106. Reset 0. -/
  lockRun : Nat
  /-- OCXO time of the latest edge that met R97. 03:R112. Reset none. -/
  lastEdge : Option Nat
  /-- OCXO time of the last accepted edge. 03:R657. Reset none. -/
  lastAccepted : Option Nat
  /-- OCXO time of the latest edge whose deviation was at most 20 us. 03:R110. Reset none. -/
  lastNear : Option Nat
  /-- Deviations of the edges held in a phase-step evaluation, oldest first. 03:R111. Reset none. -/
  held : List Int
  /-- OCXO deviation last measured since the die start, parts per thousand million. 03:R107. Reset 0 (nominal frequency). -/
  ratePpb : Int
  /-- Last complete measurement made while LOCKED. 03:R107. Reset 0, DC 5. -/
  lockedPpb : Int
  /-- Armed time-of-day. 03:R102. Reset none. -/
  armed : Option Armed
  /-- Loaded time-of-day waiting for its commit. 03:R102. Reset none. -/
  loaded : Option Loaded
  /-- Value received from the MMC, armed at the next commit. 18:R617. Reset none. -/
  fromMmc : Option Nat
  /-- Tick until which STEPPED is set. 03:R105. Reset none. -/
  steppedUntil : Option Nat
  /-- Anchor of u_dev in FREE-RUN. 03:R106. Reset none. -/
  anchor : Option Anchor
  /-- OCXO time at which HOLDOVER was entered. 03:R106. Reset none. -/
  holdoverAt : Option Nat
  /-- Ticks spent LOCKED since power-on. 03:R108. Reset 0. -/
  lockedTicks : Nat
  /-- A cause to leave LOCKED awaits the commit. 03:R106. Reset 0. -/
  leaveLocked : Bool
  /-- HOLDOVER has lasted 600 s: the state is left at the coming commit. 03:R106. Reset 0. -/
  expired : Bool
  /-- Events of the time unit awaiting the commit. 03:R114. Reset none. -/
  notes : List TimeNote
  deriving DecidableEq, Repr

/-! ### PCIe functions and registers (05_pcie_setup_registers.md) -/

/-- One tenant address window (Table 5.11); addresses hold their low 12 bits as 0. -/
structure Window where
  taBase : Nat
  size : Nat
  hostBase : Nat
  read : Bool
  write : Bool
  deriving DecidableEq, Repr

/-- One MSI-X table entry with its pending bit (R173). -/
structure MsixEntry where
  vector : Nat
  addr : U64
  data : U32
  masked : Bool
  pending : Bool
  deriving DecidableEq, Repr

/-- Doorbells of a slot discarded since its last DOORBELL_REJECTED (R213). -/
structure Reject where
  slot : Nat
  code : Nat
  count : Nat
  deriving DecidableEq, Repr

/-- An event descriptor (06_rings_commands.md, Table 6.8) without ring position. -/
structure Event where
  code : Nat
  severity : Nat
  slot : Nat
  stream : Nat
  tick : Nat
  devTime : Int
  tstate : Byte
  node : Nat
  seq : Nat
  detail : List Byte
  deriving DecidableEq, Repr

structure FnState where
  /-- SEALED, 1 bit. 05:R174. Reset 0. -/
  sealed : Bool
  /-- RESET_BUSY, 1 bit. 05:R174. Reset 0. -/
  resetBusy : Bool
  /-- RWL_VIOLATION, 1 bit. 05:R174. Reset 0. -/
  rwlViolation : Bool
  /-- DB_DISCARDED, 1 bit. 05:R174. Reset 0. -/
  dbDiscarded : Bool
  /-- ADDRESS_FAULT, 1 bit. 05:R174. Reset 0. -/
  addressFault : Bool
  /-- FETCH_ERROR, 1 bit. 05:R174. Reset 0. -/
  fetchError : Bool
  /-- SEAL_ERROR, 4 bits. 05:R174. Reset 0. -/
  sealError : Nat
  /-- FN_CONTROL.SEAL: the commit at which the pending request is examined; the bit reads 1 while there is one. 05:R174, 05:R175. Reset none. -/
  sealDue : Option Nat
  /-- FN_CONTROL.HB_ENABLE, 1 bit. 05:R174. Reset 0. -/
  hbEnable : Bool
  /-- ADMIN_SQ_BASE, 64 bits. 05:R174. Reset 0. -/
  adminSqBase : U64
  /-- ADMIN_RING_SIZE.LOG2_ENTRIES, 5 bits. 05:R174. Reset 0. -/
  adminRingSize : Nat
  /-- ADMIN_CQ_BASE, 64 bits. 05:R174. Reset 0. -/
  adminCqBase : U64
  /-- EVENT_RING_BASE, 64 bits. 05:R174. Reset 0. -/
  eventRingBase : U64
  /-- EVENT_RING_SIZE.LOG2_ENTRIES, 5 bits. 05:R174. Reset 0. -/
  eventRingSize : Nat
  /-- HEARTBEAT_ADDR, 64 bits. 05:R174. Reset 0. -/
  heartbeatAddr : U64
  /-- Memory Space Enable of the configuration header. 05:R186. Reset 0, PRESUMED 6. -/
  memEnable : Bool
  /-- Bus Master Enable. 05:R187. Reset 0, PRESUMED 6. -/
  busMaster : Bool
  /-- MSI-X Enable. 05:R173. Reset 0, PRESUMED 6. -/
  msixEnable : Bool
  /-- MSI-X table entries and pending bits that are not at their reset value (masked, 0, not pending). 05:R167, 05:R173. Reset none, PRESUMED 6. -/
  msix : List MsixEntry
  /-- BAR0 base address. 05:R166. Reset 0, PRESUMED 6. -/
  bar0 : U64
  /-- BAR2 base address. 05:R166. Reset 0, PRESUMED 6. -/
  bar2 : U64
  /-- AER Uncorrectable Error Status. 05:R186. Reset 0, PRESUMED 6. -/
  aerStatus : U32
  /-- AER Uncorrectable Error Mask. 05:R186. Reset 0x0040_0000, PRESUMED 6. -/
  aerMask : U32
  /-- AER Uncorrectable Error Severity. 05:R186. Reset 0x0046_2030, PRESUMED 6. -/
  aerSeverity : U32
  /-- AER First Error Pointer, the bit of the first unmasked error. 05:R159. Reset none, PRESUMED 6. -/
  aerFirst : Option Nat
  /-- The windows of this VF's tenant are locked: from its sealing until the commit that begins its reset. 05:R180, 05:R191. Reset 0. -/
  windowLock : Bool
  /-- Doorbells discarded and not yet reported. 06:R213. Reset none. -/
  rejects : List Reject
  /-- SEQUENCE of events raised for the function, u32. 06:R220. Reset 0. -/
  eventSeq : Nat
  /-- Events raised but not written, oldest first, at most 64. 06:R242. Reset none. -/
  eventHeld : List Event
  /-- Events dropped since the last EVENTS_LOST. 06:R242, 06:R243. Reset 0. -/
  eventDropped : Nat
  /-- Safety events raised since sealing, u32. 11:R404. Reset 0. -/
  safetyEvents : Nat
  /-- LAST_SAFETY_EVENT, u16. 11:R404. Reset 0, DC 5. -/
  lastSafety : Nat
  /-- Commands accepted in the current tick, at most 64. 06:R221. Reset 0. -/
  acceptedNow : Nat
  /-- A reset trigger awaits its first commit. 05:R191. Reset 0. -/
  resetTrigger : Bool
  /-- A SEAL step has brought the request to the coming commit, which examines it among the RWC values. 05:R175, 02:R70. Reset 0. -/
  sealNow : Bool
  /-- Bytes of DRAM regions outside the pools that the reset in progress has not zeroed yet. 05:R192. Reset 0. -/
  scrubBytes : Nat
  /-- Commit c at which the reset in progress began. 05:R191, 05:R194. Reset none. -/
  resetCommit : Option Nat
  /-- Pool buffers (row, class, index) that the reset in progress handed to the scrub owner. 05:R192, 05:R193. Reset none. -/
  scrubs : List (Nat × Nat × Nat)
  deriving DecidableEq, Repr

/-- An RWC write and the commit at which it takes effect (R14, R15). -/
structure RwcWrite where
  value : U16
  due : Nat
  deriving DecidableEq, Repr

/-! ### Hallmark views (04_hallmark.md) -/

/-- One entry of a Hallmark view: TYPE, INSTANCE and its body bytes after the 8-byte entry header (Table 4.2). -/
structure HmEntry where
  type : Nat
  inst : Nat
  body : List Byte
  deriving DecidableEq, Repr

/-- A Hallmark view: what the header holds beyond what the entries give (R147), and the entries as last written. -/
structure HmView where
  flags : Byte
  generation : Nat
  genTick : Nat
  stateCode : Nat
  changeMask : Nat
  entries : List HmEntry
  deriving DecidableEq, Repr

/-! ### Queues, commands and clasps (06_rings_commands.md) -/

/-- Queue types (Table 6.1). -/
inductive QueueType where
  | ingest | command | completion | metadata | event | sample
  deriving DecidableEq, Repr

/-- The body of a fetched or accepted command descriptor: a decoded command with the offset of the first reserved byte or bit that is not
0, or an opcode that Table 6.10 does not have (R227). -/
inductive CmdBody where
  | cmd (c : RingCmd) (reserved : Option Nat)
  | unknown
  deriving DecidableEq, Repr

/-- A fetched command descriptor and its absolute ring position. -/
structure FetchedCmd where
  pos : Nat
  head : CmdHead
  opcode : Byte
  body : CmdBody
  deriving DecidableEq, Repr

/-- An ingest descriptor (Table 6.5) and its absolute ring position; `fault` is the first faulty byte offset of a
malformed or faulting one (R230). -/
structure IngestDesc where
  pos : Nat
  flags : Byte
  stream : U16
  length : Nat
  address : U64
  capture : Nat
  uncertainty : Nat
  hostTag : U32
  fault : Option Nat
  deriving DecidableEq, Repr

/-- An open gap of a metadata ring and stream (11_detections_records.md, R407, Table 11.8). -/
structure Gap where
  stream : Nat
  firstFrame : Nat
  lastFrame : Nat
  firstMissed : Nat
  lastMissed : Nat
  missed : Nat
  missedAlerts : Nat
  deriving DecidableEq, Repr

/-- A RETRACTION formed for a ring and stream (R559). -/
structure Retraction where
  fn : Fn
  slot : Nat
  stream : Nat
  firstFrame : Nat
  lastFrame : Nat
  first : Nat
  last : Nat
  event : Nat
  deriving DecidableEq, Repr

/-- The records audit counters of one ring over the last commit (16_safety_recovery.md, Table 16.4). -/
structure RingAudit where
  advanced : Nat
  writtenEntries : Nat
  formed : Nat
  written : Nat
  missed : Nat
  deriving DecidableEq, Repr

def RingAudit.zero : RingAudit := { advanced := 0, writtenEntries := 0, formed := 0, written := 0, missed := 0 }

/-- A doorbell that made ingest descriptors available: the producer count it moved to, the tick of its receipt (R61, R215) and the
device time of its arrival (03:R116). -/
structure Bell where
  upTo : Nat
  tick : Nat
  time : Int
  deriving DecidableEq, Repr

/-- A queue (R198-R203). `prod` and `cons` count entries since creation; the spec's indices are these modulo the entry
count, and PHASE is the parity of `prod` divided by it (R204, R211). -/
structure Queue where
  fn : Fn
  slot : Nat
  qtype : QueueType
  /-- 14-bit queue ID. 06:R201. -/
  id : Nat
  /-- log2 of the entry count, 6-16. 06:R199. -/
  log2 : Nat
  base : Nat
  indexAddr : Nat
  vector : Option Nat
  paired : Option Nat
  prod : Nat
  cons : Nat
  /-- `cons` or `prod` at the last index writeback. 06:R210. -/
  shown : Nat
  /-- Next descriptor to fetch. 06:R240. -/
  fetchPos : Nat
  stopped : Bool
  /-- WAKE: absolute counts at which, or past which, the index owes a message. 06:R216. -/
  wakes : List Nat
  /-- Doorbells whose descriptors are not all fetched, oldest first. 06:R215. -/
  bells : List Bell
  /-- Fetched command descriptors not yet accepted. 06:R221. -/
  fetched : List FetchedCmd
  /-- Positions of completed commands above the consumer index. 06:R207. -/
  donePos : List Nat
  /-- Completion slots reserved for accepted commands. 06:R222. -/
  reserved : Nat
  /-- RECORD_SEQUENCE of the next record, u32. 11:R402. -/
  recordSeq : Nat
  gaps : List Gap
  missedRetractions : List Retraction
  audit : RingAudit
  /-- The counters of the coming commit, as far as steps of its issue step have run. 16:R563. -/
  auditNext : RingAudit
  deriving DecidableEq, Repr

/-- Where a command came from: its ring and its absolute position there, and the completion ring that holds a slot for its completion,
the rings by queue ID (R222, R226). -/
structure RingPos where
  queue : Nat
  pos : Nat
  done : Nat
  deriving DecidableEq, Repr

/-- A command accepted from a ring, waiting for its commit (R69, R223). -/
structure Accepted where
  at_ : RingPos
  due : Nat
  head : CmdHead
  opcode : Byte
  body : CmdBody
  deriving DecidableEq, Repr

/-- Work that a "Work" command of Table 6.10 has begun (R225). -/
inductive WorkKind where
  | modelLoad (model : Byte) (bytes : Nat)
  | streamClose (handle : Nat)
  | streamMigrate (handle : Nat)
  | timeSet
  | fwChunk (component : Nat)
  | fwVerify (component : Nat)
  | fwActivate (component : Nat)
  | fwConfirm (component : Nat)
  deriving DecidableEq, Repr

structure Work where
  head : CmdHead
  opcode : Byte
  pos : Option RingPos
  kind : WorkKind
  start : Nat
  deriving DecidableEq, Repr

/-- Completion statuses (Table 6.9). -/
inductive Status where
  | success | invalidOpcode | malformed | invalidField | notPermitted | notFound | invalidState | quotaExceeded
  | noResources | addressFault | queueBusy | partitionBusy | unitUnavailable | admissionRefused | modelBusy
  | modelRejected | claspOverflow | noReference | superseded | signatureInvalid
  deriving DecidableEq, Repr

/-- What a command answers: a status, FIELD_OFFSET (0xFFFF for none) and RESULT bytes. -/
structure Answer where
  status : Status
  offset : Nat
  result : List Byte
  /-- The clasp whose value after the commit is the RESULT, for CLASP_SIGNAL. -/
  clasp : Option Nat := none
  deriving DecidableEq, Repr

/-- A completion descriptor (Table 6.7) without its ring position; `result` is 32 bytes. -/
structure Completion where
  opcode : Byte
  commandId : U16
  status : Nat
  sqSlot : U16
  sqHead : Nat
  fieldOffset : Nat
  tableEpoch : Nat
  tick : Nat
  result : List Byte
  deriving DecidableEq, Repr

/-- A completion waiting for the issue step, after every record and event of its command (R28, R241). -/
structure PendingCompletion where
  fn : Fn
  /-- Queue ID of the completion ring. 06:R226. -/
  ring : Nat
  body : Completion
  /-- The clasp whose value after the commit is the RESULT (Table 6.10, CLASP_SIGNAL). -/
  clasp : Option Nat
  deriving DecidableEq, Repr

structure Clasp where
  /-- 13-bit clasp ID. 06:R234. -/
  id : Nat
  fn : Fn
  /-- 64-bit value. 06:R234, 06:R235. -/
  value : Nat
  /-- Value latched at the previous edge. 16:R563. -/
  latched : Nat
  mirror : Nat
  threshold : Option Nat
  vector : Option Nat
  /-- The tenant whose epoch-retirement clasp it is. 02:R80. -/
  retire : Bool
  changed : Bool
  deriving DecidableEq, Repr

/-! ### Records (11_detections_records.md) -/

/-- The header fields a FRAME or ALERT carries beyond its counts (Table 11.6). -/
structure RecordHead where
  recordType : Nat
  timeState : Byte
  stream : Nat
  recordSeq : Nat
  frameSeq : Nat
  capture : Nat
  tick : Nat
  tableEpoch : Nat
  quantEpoch : Nat
  uncertainty : Nat
  outcome : Nat
  cause : Nat
  deferTicks : Nat
  flags : Nat
  concealKind : Nat
  concealedBlocks : Nat
  totalDetections : Nat
  specific : List Byte
  deriving DecidableEq, Repr

/-- The records a metadata ring carries. -/
inductive Record where
  | frame (h : RecordHead) (dets : List Detection) (sums : List Summary)
  | alert (h : RecordHead) (det : Detection)
  | gap (g : Gap) (seq : Nat) (timeState : Byte) (tick : Nat)
  | retraction (r : Retraction) (seq : Nat) (timeState : Byte) (tick : Nat)
  deriving DecidableEq, Repr

/-- A record delivered to a ring, kept for retraction (16_safety_recovery.md, R559). -/
structure Delivered where
  fn : Fn
  slot : Nat
  stream : Nat
  frameSeq : Nat
  recordSeq : Nat
  t0 : Nat
  commit : Nat
  deriving DecidableEq, Repr

/-- A heartbeat record (R404). -/
structure Heartbeat where
  timeState : Byte
  flags : Nat
  safetyEvents : Nat
  tick : Nat
  devTime : Int
  uDev : Nat
  lastSafety : Nat
  deriving DecidableEq, Repr

/-- A sample ring entry (08_vision_motion.md, Table 8.6). -/
structure SampleEntry where
  type : Nat
  order : Nat
  stream : Nat
  epoch : Nat
  frameSeq : Nat
  boxIndex : Nat
  width : Nat
  height : Nat
  flags : Nat
  position : Nat
  dataBytes : Nat
  tick : Nat
  capture : Nat
  candidates : Nat
  delivered : Nat
  dropped : Nat
  deriving DecidableEq, Repr

/-- The writes the module issues to host memory and the messages it sends, in issue order (R66, R237, R176). Every `addr` is a bus
address, which the function's windows give (05:R183); a ring entry stands at its index and at the bus address of that entry. -/
inductive Posted where
  | record (fn : Fn) (slot : Nat) (index : Nat) (addr : Nat) (r : Record)
  | event (fn : Fn) (index : Nat) (addr : Nat) (phase : Bool) (e : Event)
  | auditOut (fn : Fn) (addr : Nat) (bytes : List Byte)
  | sampleData (fn : Fn) (addr : Nat) (bytes : List Byte)
  | sample (fn : Fn) (slot : Nat) (index : Nat) (addr : Nat) (e : SampleEntry)
  | completion (fn : Fn) (slot : Nat) (index : Nat) (addr : Nat) (phase : Bool) (c : Completion)
  | writeback (fn : Fn) (addr : Nat) (index : Nat) (tickLow : Nat)
  | mirror (fn : Fn) (addr : Nat) (value : Nat)
  | heartbeat (fn : Fn) (addr : Nat) (h : Heartbeat)
  | msix (fn : Fn) (vector : Nat)
  deriving DecidableEq, Repr

structure HostSide where
  /-- The 17 functions' registers and event state, PF last. 05:R166, 05:R174. Reset: each at its reset values. -/
  fns : Vector FnState 17
  /-- VF Enable of the SR-IOV capability. 05:R188. Reset 0, PRESUMED 6. -/
  vfEnable : Bool
  /-- Windows of tenant t at 8t to 8t + 7. 05:R180, 05:R183. Reset 0. -/
  windows : Vector Window 128
  /-- AUTO_REHOME, 1 bit, in force. 05:R180. Reset 0. -/
  autoRehome : Bool
  /-- AUTO_REHOME as last written, in force from the next commit. 05:R180. Reset 0. -/
  autoRehomeWritten : Bool
  /-- SAMPLE_ALLOW in force, 16 bits. 05:R180. Reset 0. -/
  sampleAllow : U16
  /-- SAMPLE_ALLOW as last written, 16 bits, what a read returns. 00:R13. Reset 0. -/
  sampleAllowWritten : U16
  /-- SAMPLE_ALLOW writes waiting for their commit. 00:R14, 00:R15. Reset none. -/
  sampleWrites : List RwcWrite
  /-- Negotiated lanes. 05:R162. Reset 16, DC 5. -/
  lanes : Nat
  /-- Negotiated rate, 0.1 GT/s. 05:R162. Reset 320, DC 5. -/
  rate10 : Nat
  /-- Lanes and rate from the next commit. 05:R162. Reset none. -/
  retrained : Option (Nat × Nat)
  /-- PCIe link up. 05:R189. Reset 1, DC 5. -/
  linkUp : Bool
  /-- Completion Timeout Disable of the PF. 05:R658. Reset 0, PRESUMED 6. -/
  timeoutDisable : Bool
  /-- Completion Timeout Value of the PF, 4 bits. 05:R658. Reset 0. -/
  timeoutValue : BitVec 4
  /-- SR-IOV VF BAR0 base address. 05:R166. Reset 0, PRESUMED 6. -/
  vfBar0 : U64
  /-- SR-IOV VF BAR2 base address. 05:R166. Reset 0, PRESUMED 6. -/
  vfBar2 : U64
  /-- Error messages sent since the last commit: function and whether fatal. 05:R186. Reset none. -/
  errors : List (Fn × Bool)
  /-- Hallmark views, PF at 16. 04:R123, 04:R147. Reset: generation 0, STATE STARTING, entries of R154 from BRING_UP. -/
  views : Vector HmView 17
  /-- Queues. 06:R198, 06:R202. Reset none. -/
  queues : List Queue
  /-- Queue IDs freed, with the commit. 06:R201. Reset none. -/
  freedIds : List (Nat × Nat)
  /-- Accepted commands. 06:R221. Reset none. -/
  accepted : List Accepted
  /-- Commands at work. 06:R225. Reset none. -/
  works : List Work
  /-- Completions formed and not yet issued. 06:R226. Reset none. -/
  completions : List PendingCompletion
  /-- Ring entries written ahead of the coming issue step by its own rows (GAP_WRITE, EVENTS_LOST, SAMPLE_EPOCH_END). 11:R408, 06:R243. Reset none. -/
  ahead : List Posted
  /-- Work that has ended and completes at the coming commit, with its answer. 06:R207, 06:R225. Reset none. -/
  ending : List (Work × Answer)
  /-- AUDIT_READ output formed and not yet issued. 16:R566. Reset none. -/
  auditOut : List Posted
  /-- Sample entries formed and not yet issued. 08:R317. Reset none. -/
  sampleOut : List Posted
  /-- Clasps. 06:R234. Reset none. -/
  clasps : List Clasp
  /-- Retractions formed and not yet issued. 16:R559. Reset none. -/
  retractions : List Retraction
  /-- Records delivered in the last 100 ticks. 16:R559. Reset none. -/
  delivered : List Delivered
  /-- Vectors whose message the issue step owes. 05:R172, 06:R216. Reset none. -/
  owedMsix : List (Fn × Nat)
  /-- What the last issue step wrote, in order: the block's output to the host. 02:R65, 02:R66. Reset none. -/
  issue : List Posted
  deriving DecidableEq, Repr

/-! ### Models (09_facet_tiles.md, 10_quantization.md, 11_detections_records.md) -/

/-- An input descriptor (Table 9.7). -/
structure InputDesc where
  width : Nat
  height : Nat
  channels : Nat
  fit : Nat
  pixelStride : Nat
  gain : List Int
  offset : List Int
  fill : List Int
  deriving DecidableEq, Repr, Inhabited

/-- A head descriptor (Table 11.1). -/
structure HeadDesc where
  kind : Nat
  flags : Nat
  classes : Nat
  gridW : Nat
  gridH : Nat
  anchors : Nat
  pixelStride : Nat
  outputOffset : Nat
  scale : U32
  zeroPoint : Int
  stride : U32
  anchorOffset : Nat
  scoreThreshold : Nat
  nmsIou : Nat
  topK : Nat
  startScore : Nat
  iouKeep : Nat
  iouStart : Nat
  confirmHits : Nat
  deleteMisses : Nat
  deriving DecidableEq, Repr, Inhabited

/-- A facet command's header and body bytes (Table 9.3): 64 bytes. -/
abbrev FacetCmd := List Byte

/-- A reference of a scale group (Table 10.3). -/
structure GroupRef where
  kind : Nat
  tile : Nat
  target : Nat
  deriving DecidableEq, Repr

/-- A scale group (R363) with its cumulative d. -/
structure ScaleGroup where
  layer : Nat
  producers : List GroupRef
  consumers : List GroupRef
  d : Int
  total : Nat
  clip : Nat
  peakHi : Nat
  peakLo : Nat
  accSat : Nat
  deriving DecidableEq, Repr

/-- A frame's counters of one requantization block (R361): model, logical tile and region 0 offset name the block. -/
structure BlockStat where
  model : Nat
  tile : Nat
  offset : Nat
  total : Nat
  clip : Nat
  peakHi : Nat
  peakLo : Nat
  accSat : Nat
  deriving DecidableEq, Repr

/-- The calibration policy (Table 10.4). -/
structure CalPolicy where
  mode : Nat
  maxStep : Nat
  dMin : Int
  dMax : Int
  clipHigh : Nat
  clipLow : Nat
  headroom : Nat
  interval : Nat
  minSamples : Nat
  deriving DecidableEq, Repr

/-- The resident image of a model (R348) and the header fields admission uses (Table 9.5). -/
structure ModelImage where
  crc : U32
  exactOnly : Bool
  seed : Nat
  tiles : Nat
  sramBytes : Nat
  constBytes : Nat
  scratchBytes : Nat
  arrayCycles : Nat
  vectorCycles : Nat
  dramBytes : Nat
  outputBytes : Nat
  input : InputDesc
  heads : List HeadDesc
  programs : List (List FacetCmd)
  consts : List Byte
  deriving DecidableEq, Repr

/-- A model of a tenant. `image` is none while it loads (R346). -/
structure Model where
  fn : Fn
  id : Nat
  image : Option ModelImage
  packageBytes : Nat
  /-- 64-bit extended quantization epoch. 02:R73. -/
  qepoch : Nat
  groups : List ScaleGroup
  policy : CalPolicy
  windowStart : Nat
  /-- Counters that the latest commit brought, outside the window until the next one. 10:R369. -/
  fresh : List BlockStat
  deriving DecidableEq, Repr

/-! ### Tables (07, 11) -/

/-- A tenant's record-format table (R394). -/
structure RecordFormat where
  maxDetections : Nat
  flags : Nat
  inbound : List Nat
  deriving DecidableEq, Repr

/-- The balance policy (15_admission_latency.md, Table 15.7). -/
structure BalancePolicy where
  mode : Nat
  classes : Nat
  tenants : Nat
  highWater : Nat
  lowWater : Nat
  modules : Nat
  maxMoves : Nat
  interval : Nat
  minDwell : Nat
  deriving DecidableEq, Repr

structure TenantSt where
  /-- TENANT_CONFIGURE has mapped the tenant since the die start. 04:R144. Reset 0. -/
  configured : Bool
  /-- Partition, 0-7. 01:R33. Reset 0. -/
  partition : Nat
  /-- QUEUE_QUOTA, 16 bits. 06:R202. Reset 1024. -/
  quota : Nat
  /-- 64-bit extended table epoch; 0 before the first mapping. 02:R72. Reset 0. -/
  tableEpoch : Nat
  /-- A change of this commit advances the epoch. 02:R72. Reset 0. -/
  epochTouched : Bool
  /-- ID of the epoch-retirement clasp. 02:R80. Reset none. -/
  retireClasp : Option Nat
  /-- Model key in force in the die. 18:R617. Reset none. -/
  key : Option (List Byte)
  /-- Tenant-wide class filter, bit c passes class c. 11:R393. Reset all ones. -/
  filter : BitVec 256
  /-- Record-format table. 11:R394. Reset 1024, 0x02, all 0xFFFF. -/
  format : RecordFormat
  deriving DecidableEq, Repr

/-! ### Pictures, fields, tracks (07, 08, 11) -/

/-- A decoded, cropped picture with 8-bit samples (R275); rows of samples. -/
structure Picture where
  width : Nat
  height : Nat
  luma : List (List Nat)
  cb : List (List Nat)
  cr : List (List Nat)
  /-- VUI matrix_coefficients, none without VUI (R292). -/
  matrix : Option Nat
  fullRange : Bool
  codedHeight : Nat
  deriving DecidableEq, Repr, Inhabited

/-- What the module reads of a sequence parameter set (R272, R275, R276, R277, R116): profile_idc, constraint_set1_flag, the H.265
profiles whose compatibility flag is set, level, tier, chroma format, bit depths, scan, the picture area aligned to whole macroblocks or
CTUs, the cropping window in luma samples, the size of a macroblock or CTU, the limit of output reordering where the set gives one, and the
VUI's matrix_coefficients, full range flag and timing (time_scale, num_units_in_tick). -/
structure Sps where
  id : Nat
  profileIdc : Nat
  constraintSet1 : Bool
  compatible : List Nat
  levelIdc : Nat
  highTier : Bool
  chromaFormat : Nat
  depthLuma : Nat
  depthChroma : Nat
  frameMbsOnly : Bool
  fieldSeq : Bool
  width : Nat
  height : Nat
  cropLeft : Nat
  cropTop : Nat
  cropWidth : Nat
  cropHeight : Nat
  blockSize : Nat
  reorder : Option Nat
  matrix : Option Nat
  fullRange : Bool
  timing : Option (Nat × Nat)
  /-- The bytes of the parameter set. -/
  content : List Byte
  deriving DecidableEq, Repr, Inhabited

/-- A decoded picture as the module stores it: the whole coded area at its own bit depth, a sample of more than 8 bits in a 16-bit
container (R279). -/
structure RawPicture where
  sps : Sps
  luma : List (List Nat)
  cb : List (List Nat)
  cr : List (List Nat)
  deriving DecidableEq, Repr, Inhabited

/-- A reference picture of a stream's decoded picture buffer with its concealment bitmap (R279, R285). `key` is the name by which the
bitstream refers to it. -/
structure RefPicture where
  seq : Nat
  key : Nat
  conceal : List Bool
  raw : RawPicture
  /-- The pool buffer that holds it, in pool mode. 07:R281. -/
  buffer : Option Nat
  deriving DecidableEq, Repr, Inhabited

/-- One motion field vector (Table 8.4). -/
structure FieldVec where
  dx : Int
  dy : Int
  valid : Bool
  concealed : Bool
  cost : Nat
  deriving DecidableEq, Repr, Inhabited

/-- A stream's motion reference: the last picture whose T+1 committed (R301). -/
structure MotionRef where
  seq : Nat
  capture : Option Nat
  luma : List (List Nat)
  conceal : List Bool
  deriving DecidableEq, Repr, Inhabited

/-- A motion field (Table 8.3), with the capture time of its reference picture (R311). -/
structure Field where
  seq : Nat
  refCapture : Option Nat
  columns : Nat
  rows : Nat
  mode : Nat
  interval : Nat
  vecs : List FieldVec
  deriving DecidableEq, Repr, Inhabited

/-- The tensor-to-picture mapping of a frame (R294). -/
structure TensorMap where
  sx : Nat
  sy : Nat
  ox : Int
  oy : Int
  width : Nat
  height : Nat
  deriving DecidableEq, Repr, Inhabited

/-- One chunk of a picture: its descriptor, its data when received, and whether it is lost (R270, R230). -/
structure Chunk where
  desc : IngestDesc
  data : Option (List Byte)
  lost : Option Nat
  /-- The handle of its pool buffer. 07:R269. -/
  buffer : Option Nat
  deriving DecidableEq, Repr

/-- A picture of a stream before T+0 (R263-R268). `readyTick` is none until it is complete. -/
structure Pending where
  seq : Nat
  chunks : List Chunk
  extraChunks : Nat
  discontinuity : Bool
  noFirst : Bool
  truncated : Bool
  noBuffer : Bool
  readyTick : Option Nat
  lastPos : Nat
  waited : Nat
  firstCause : Option Nat
  lastCause : Option Nat
  /-- Device time at which the doorbell of its last descriptor came. 03:R116. -/
  bellTime : Int
  /-- The picture has ended while it was open: its further descriptors are consumed. 12:R426. -/
  ended : Bool
  deriving DecidableEq, Repr

/-- One error found by the decoder in a picture (Table 7.7). -/
structure DecodeErr where
  kind : Nat
  blockUnit : Nat
  chunkIndex : Nat
  byteOffset : Nat
  sliceAddress : Nat
  blockAddress : Nat
  deriving DecidableEq, Repr, Inhabited

/-- The epoch vector of a frame with the versions it names (R76, R77, R366). -/
structure EpochVector where
  tableEpoch : Nat
  subscribers : List (Nat × Nat)
  quant : List (Nat × Nat)
  route : Nat
  binding : List BindEntry
  zones : List Zone
  lines : List Line
  rules : List RuleRow
  streamFilter : Option (BitVec 256)
  filters : List (Nat × BitVec 256)
  formats : List (Nat × RecordFormat)
  motionMode : Nat
  cls : ServiceClass
  frameRate : Nat
  images : List (Nat × ModelImage)
  deriving DecidableEq, Repr

/-- A frame in the pipeline. -/
structure Frame where
  seq : Nat
  t0 : Nat
  /-- Its ready tick (R61, R527). -/
  ready : Nat
  /-- Device time at which its last ingest doorbell came (R116). -/
  bellTime : Int
  /-- The stage it occupies in the current tick. -/
  stage : Stage
  ev : EpochVector
  timeState : Byte
  /-- u_dev at T+0 in 10^-10 ns (R120). -/
  uDev : Option Nat
  capture : Option Nat
  uncertainty : Nat
  deferTicks : Nat
  cause : Nat
  /-- A stage was repeated once. 02:R94. -/
  repeated : Bool
  /-- The stage of this tick is withdrawn with this cause. 02:R94. -/
  withdrawn : Option Nat
  /-- The frame waits in this tick: its stage runs later. 02:R94, 02:R95. -/
  idle : Bool
  /-- Tick at which each of its stages last started. 02:R95. -/
  starts : List Nat
  /-- The pool buffer of its picture, in pool mode. 07:R281. -/
  buffer : Option Nat
  /-- The frame yields an INVALID record with this cause. 16:R539. -/
  invalid : Option Nat
  /-- Units its stage of this tick runs on. -/
  units : List UnitRef
  /-- What R264 to R267 found of its picture: further chunks, no FIRST, lost data before it, no LAST. -/
  extraChunks : Nat
  noFirst : Bool
  discontinuity : Bool
  truncated : Bool
  /-- Ring position of its last descriptor. -/
  lastPos : Nat
  chunks : List Chunk
  picture : Option Picture
  motion : List (Option (Int × Int × Nat))
  conceal : List Bool
  concealKind : Nat
  concealedBlocks : Nat
  input : List Byte
  field : Option Field
  map : TensorMap
  outputs : List (Nat × List Byte)
  dets : List Detection
  summaries : List Summary
  alerts : List AlertNote
  suppressed : Nat
  totalDets : Nat
  staged : Option Tracker
  deriving DecidableEq, Repr

/-- A frame that has ended and whose records the coming issue step writes (R405, R406), with its stream's owner and metadata ring. -/
structure Ended where
  handle : Nat
  fn : Fn
  metadataSlot : Nat
  seq : Nat
  t0 : Nat
  ev : EpochVector
  timeState : Byte
  capture : Nat
  uncertainty : Nat
  outcome : Nat
  cause : Nat
  deferTicks : Nat
  invalid : Bool
  concealKind : Nat
  concealedBlocks : Nat
  dets : List Detection
  summaries : List Summary
  alerts : List AlertNote
  suppressed : Nat
  totalDets : Nat
  deriving DecidableEq, Repr

structure Stream where
  /-- 16-bit handle. 07:R246. -/
  handle : Nat
  fn : Fn
  ingestSlot : Nat
  metadataSlot : Nat
  cls : ServiceClass
  codec : Nat
  seiSource : Bool
  poolMode : Bool
  width : Nat
  height : Nat
  frameRate : Nat
  timeCodeOffset : Int
  baseUncertainty : Nat
  motionMode : Nat
  binding : List BindEntry
  zones : List Zone
  lines : List Line
  rules : List RuleRow
  /-- The stream's own class filter. 11:R393. -/
  filter : Option (BitVec 256)
  subscribers : List Nat
  /-- Frame tokens, 0-2. 02:R91. -/
  tokens : Nat
  /-- Refill base commit n0. 02:R92. -/
  refillBase : Nat
  /-- Later tokens counted so far. 02:R92. -/
  refillCount : Nat
  /-- Frame sequence of the next completed picture. 07:R268. -/
  nextSeq : Nat
  openPic : Option Pending
  waiting : List Pending
  frames : List Frame
  lastT0 : Option Nat
  /-- The newest start of each stage by any frame of the stream: stage, frame sequence, tick. 02:R95. -/
  started : List (Nat × Nat × Nat)
  /-- What the AMBER fetch limit still holds back, in 1/4,800,000 bytes. 12:R425. -/
  fetchDebt : Nat
  dpb : List RefPicture
  /-- Active SPS of the last decoded picture. 07:R276. -/
  activeSps : Option Sps
  /-- Parameter-set NAL units of the pictures decoded so far, oldest first. 07:R272. -/
  paramSets : List (List Byte)
  /-- 08:R301. -/
  motionRef : Option MotionRef
  prevField : Option Field
  tracker : Tracker
  /-- Capture time and uncertainty of the last frame that had one. 03:R118. -/
  lastCapture : Option Nat
  lastCaptureUnc : Nat
  /-- Frame sequence of that frame. 03:R118. -/
  lastCaptureSeq : Nat
  /-- STREAM_CLOSE has taken effect. 07:R255. -/
  closing : Bool
  /-- STREAM_CLOSE_COMPLETE has come: the stream ends at the commit at which its last frame retires. 07:R256. -/
  closeDue : Bool
  /-- The stream is in its safe state, with the cause its records carry. 16:R539. -/
  safe : Option Nat
  /-- Commit from which a safe state that ends by itself is over. 16:R561. -/
  safeUntil : Option Nat
  /-- Module numbers serving T+0 and T+1 to T+4 when migrated. 14:R509. -/
  remote : Option (Nat × Nat)
  lastMoved : Nat
  deriving DecidableEq, Repr

/-- A sample session (08_vision_motion.md, R312-R318). -/
structure Session where
  fn : Fn
  slot : Nat
  order : Nat
  seed : Nat
  dataBase : Nat
  stream : Nat
  kind : Nat
  format : Nat
  outWidth : Nat
  outHeight : Nat
  epochTicks : Nat
  setSize : Nat
  quota : Nat
  start : Nat
  epoch : Nat
  counter : Nat
  delivered : Nat
  dropped : Nat
  /-- The coming commit is the last one of its epoch. 08:R317. -/
  epochDue : Bool
  deriving DecidableEq, Repr

/-- One entry of the plan log (16_safety_recovery.md, R552). -/
structure PlanEntry where
  unit : UnitRef
  tick : Nat
  handle : Nat
  seq : Nat
  deriving DecidableEq, Repr

/-- A fault reported and not yet reacted to (02_tick_commit.md, R85, R88). -/
structure FaultNote where
  /-- The failure class, none for a fault of a job that is no class of Table 16.1 (R421, R440). -/
  cls : Option FaultClass
  handle : Nat
  seq : Nat
  unit : UnitRef
  stateLost : Bool
  /-- The array column to which a touchstone check localised the fault. 09:R353. -/
  column : Option Nat
  /-- The channel address of a granule found uncorrectable. 13:R447. -/
  address : Option Nat := none
  deriving DecidableEq, Repr

/-- Inputs of a discarded frame kept for classification (R89). -/
structure Retained where
  handle : Nat
  fn : Fn
  commit : Nat
  /-- The frame: its chunks, picture, tensors, motion field and the versions of its epoch vector. 02:R83. -/
  frame : Frame
  /-- The reference pictures, the previous field and the tracker state that its stage read. 02:R83. -/
  refs : List RefPicture
  prevField : Option Field
  tracker : Tracker
  /-- Handles of the pool buffers kept with it. 07:R271. -/
  buffers : List Nat
  deriving DecidableEq, Repr

/-- The end of a frame whose records another module forms: those it has sent (R511), or none, when it is lost (R517). -/
structure RemoteEnd where
  handle : Nat
  seq : Nat
  records : Option RemoteRecordsIn
  deriving DecidableEq, Repr

structure WorkSt where
  /-- The 16 tenants. 01:R33, 06:R202. Reset: unmapped, partition 0, quota 1024. -/
  tenants : Vector TenantSt 16
  /-- START_MASK of the plan in force: bit r set where a partition begins. 01:R33, 06:R233. Reset 0x01. -/
  startMask : BitVec 8
  /-- 64-bit extended route-plan epoch. 02:R74. Reset 1. -/
  routeEpoch : Nat
  /-- Models. 09:R346. Reset none. -/
  models : List Model
  /-- Open streams, by ascending handle. 07:R246. Reset none. -/
  streams : List Stream
  /-- Handles freed, with the commit. 07:R247. Reset none. -/
  freedHandles : List (Nat × Nat)
  /-- Frames that ended at this commit and await the issue step. 11:R405. Reset none. -/
  ended : List Ended
  /-- Retunes that the coming commit applies among its firmware decisions: function and model. 10:R369, 02:R70. Reset none. -/
  retunes : List (Fn × Nat)
  /-- Ends of frames whose records other modules form, applied by the coming commit among its frame results. 14:R511, 14:R517, 02:R68.
  Reset none. -/
  remoteEnds : List RemoteEnd
  /-- Retained inputs of discarded frames. 02:R89. Reset none. -/
  retained : List Retained
  /-- Sample sessions. 08:R312. Reset none. -/
  sessions : List Session
  /-- Balance policy. 15:R533. Reset: the defaults of Table 15.7. -/
  balance : BalancePolicy
  /-- An evacuation is in progress. 18:R607. Reset 0. -/
  evacuating : Bool
  /-- EVAC_DONE_N is asserted. 18:R609. Reset 0. -/
  evacDone : Bool
  /-- Partitions whose admitted load failed an admission test at the last commit, with the reason. 15:R531. Reset none. -/
  overcommitted : List (Nat × Nat)
  deriving DecidableEq, Repr

/-! ### Buffer pools (12_buffer_pools.md) -/

inductive Level where
  | green | amber | red | reserve
  deriving DecidableEq, Repr

/-- An outstanding buffer: the row and class whose pool holds it and its index within that row (R414-R418). -/
structure Buffer where
  row : Row
  cls : Nat
  index : Nat
  owner : Owner
  /-- Commit at which the allocation committed. 12:R430. -/
  since : Option Nat
  /-- An accepted release frees it at the commit that closes the stage. 12:R422. -/
  releasing : Bool
  /-- The frame whose stage released it. 02:R85. -/
  releaser : Option FrameRef
  suspect : Bool
  /-- Ticks without a reference. 12:R431. -/
  unreferenced : Nat
  /-- The frame that allocated it. 12:R418. -/
  job : Option FrameRef
  /-- The sample session it serves, by function and slot. 12:R424. -/
  session : Option (Fn × Nat)
  deriving DecidableEq, Repr

/-- GENERATION of a buffer that is not 0 (R414). -/
structure BufGen where
  row : Row
  cls : Nat
  index : Nat
  gen : Nat
  deriving DecidableEq, Repr

/-- An owner that closed with buffers outstanding (R432). -/
structure ClosedOwner where
  partition : Nat
  owner : Owner
  /-- The session that ended, for a sample service buffer. 12:R424. -/
  session : Option (Fn × Nat)
  commit : Nat
  deriving DecidableEq, Repr

structure Pools where
  /-- Outstanding buffers; every other buffer is free. 12:R411, 12:R423. Reset none. -/
  bufs : List Buffer
  /-- Generations that are not 0. 12:R414, 12:R416. Reset none (0 at power-on). -/
  gens : List BufGen
  /-- Fill levels by partition and class; unlisted is GREEN. 12:R425. Reset none (GREEN, DC 5). -/
  levels : List (Nat × Nat × Level)
  /-- Owners closed with buffers outstanding. 12:R432. Reset none. -/
  closed : List ClosedOwner
  deriving DecidableEq, Repr

/-! ### Memory nodes (13_memory_qos.md) -/

/-- A request waiting at a channel; `addr` is the channel address. -/
structure DramReq where
  seq : Nat
  port : Nat
  write : Bool
  addr : Nat
  bytes : Nat
  raw : Nat
  deadline : Nat
  job : Option FrameRef
  deriving DecidableEq, Repr

/-- One write-queue entry: a 32 B granule with byte enables (R451). -/
structure WqEntry where
  granule : Nat
  data : List Byte
  enables : List Bool
  deriving DecidableEq, Repr

/-- Data a channel returned for a read: its bytes and whether they are poisoned (R447). -/
structure DramReply where
  seq : Nat
  port : Nat
  data : List Byte
  poisoned : Bool
  deriving DecidableEq, Repr

structure ChannelSt where
  /-- Waiting requests, oldest first. 13:R461. Reset none. -/
  reqs : List DramReq
  /-- Write queue, at most 64 entries. 13:R451. Reset none. -/
  wq : List WqEntry
  /-- The channel is draining its write queue. 13:R454. Reset 0. -/
  draining : Bool
  /-- Refresh interval in force, ns: 3900, 1950 or 975. 13:R448. Reset 3900. -/
  interval : Nat
  /-- Interval this channel's own temperature asks for, ns. 13:R449, 13:R450. Reset 3900. -/
  wanted : Nat
  /-- Refreshes issued since the die start. 13:R448. Reset 0. -/
  refreshes : Nat
  /-- Stagger against the other channel of the node at the rate in force, in half nanoseconds. 13:R448. Reset 0 or 3900. -/
  stagger : Nat
  /-- Last temperature read, degrees Celsius. 13:R449. Reset 25, DC 5. -/
  celsius : Int
  /-- Consecutive reads at or below 80. 13:R449. Reset 0. -/
  coolReads : Nat
  /-- ZQ calibrations issued. 13:R466. Reset 0. -/
  zqs : Nat
  /-- Tick of the last ZQ calibration latch. 13:R466. Reset none. -/
  zqTick : Option Nat
  /-- Patrol-scrub raw bytes used in this tick. 13:R465. Reset 0. -/
  scrubBytes : Nat
  /-- Pages that showed a correctable error to patrol scrub, with the pass. 13:R446. Reset none. -/
  suspectPages : List (Nat × Nat)
  /-- Patrol passes completed. 13:R446, 13:R465. Reset 0. -/
  scrubPass : Nat
  /-- Granule patrol scrub read last. 13:R465. Reset 0. -/
  scrubPos : Nat
  /-- Correctable errors counted. 13:R446. Reset 0. -/
  corrected : Nat
  /-- The rate of R450 is in force: plans shed with cause THERMAL. 13:R450. Reset 0. -/
  hot : Bool
  deriving DecidableEq, Repr

/-- A master port of a memory node (R457-R459, R463). -/
structure PortSt where
  minRate : Nat
  burst : Nat
  weight : Nat
  tokens : Nat
  /-- Raw bytes granted above minimum in the tick. 13:R461. -/
  above : Nat
  late : Nat
  /-- Raw bytes granted in the tick. 13:R467. -/
  granted : Nat
  /-- The deadline-miss event of the tick is due. 13:R463. -/
  lateDue : Nat
  deriving DecidableEq, Repr

structure Dram where
  /-- DRAM contents as (key, byte), key = channel * 2^32 + channel address; canonical: keys rising, no byte 0. 13:R437, 13:R441. Reset empty
  (unlisted bytes read 0, DC 7). -/
  mem : List (Nat × BitVec 8)
  /-- Granules whose check bits are poisoned, by key of their first byte. 13:R447. Reset none. -/
  poison : List Nat
  /-- Tile SRAM contents as (key, byte), key = tile * 2^23 + address; canonical. 09:R319, 14:R480. Reset empty (DC 7). -/
  sram : List (Nat × BitVec 8)
  /-- The function whose program wrote a tile's SRAM last, by tile. 05:R192. Reset none. -/
  sramUsers : List (Nat × Fn)
  /-- The 16 channels. 13:R437. Reset: idle at the normal rate, odd channels staggered by 1950 ns. -/
  channels : Vector ChannelSt 16
  /-- The ports of memory node r at 9r to 9r + 8. 13:R457, 13:R458. Reset 0, 256, 1, DC 5. -/
  ports : Vector PortSt 72
  /-- Answers to reads, newest first. 13:R452. Reset none. -/
  replies : List DramReply
  /-- Requests refused as errors. 13:R440. Reset 0. -/
  refused : Nat
  /-- Arrival number of the next request. 13:R461. Reset 0. -/
  nextSeq : Nat
  deriving DecidableEq, Repr

/-! ### Filigree network (14_filigree_chain.md) -/

/-- A packet in the network: where its head is, and the path fixed at injection: its directions on its row ring and its column
ring (R474-R476, R485), and the low 4 bits of the route-plan epoch (R477). -/
structure Flying where
  pkt : FilPacket
  at_ : Nat
  /-- The direction of the link whose input buffer it holds at `at_`; none while it is at its source. -/
  inPort : Option Port
  rowPort : Port
  colPort : Port
  route : Nat
  deriving DecidableEq, Repr

/-- Credits of one link and VC that differ from the idle 4 held (R470): held by the sender, and returns in transit. -/
structure LinkCredit where
  node : Nat
  port : Port
  vc : Nat
  held : Nat
  returning : Nat
  deriving DecidableEq, Repr

/-- MSEQ values a node has delivered from a source (R487), newest first, at most 64. -/
structure Seen where
  node : Nat
  source : Nat
  mseqs : List Nat
  deriving DecidableEq, Repr

/-- A packet sent and not yet acknowledged (R482). A multicast stays so until its trailing acknowledgement has come and no missed
bit is outstanding; `gen` is the generation last sent (R486). -/
structure Unacked where
  pkt : FilPacket
  trailing : Bool
  missed : Nat
  gen : Nat
  deriving DecidableEq, Repr

/-- What a link has done lately (R469): the VCs of its last 8 cycles, newest first, and the VC it served last in round robin. -/
structure LinkUse where
  node : Nat
  port : Port
  recent : List (Option Nat)
  last : Nat
  deriving DecidableEq, Repr

structure Fabric where
  /-- Packets in the network. 14:R468. Reset none. -/
  packets : List Flying
  /-- Link credits that are not all held by the sender, depth 4. 14:R470, 14:R471. Reset none. -/
  credits : List LinkCredit
  /-- Links that have sent something, with their last 8 cycles and round-robin place. 14:R469. Reset none (idle, VC0 next: DC 172). -/
  links : List LinkUse
  /-- Packets delivered, newest first: (packet id, node). 14:R473. Reset none. -/
  deliveries : List (Nat × Nat)
  /-- Delivered MSEQ windows. 14:R487. Reset none. -/
  seen : List Seen
  /-- Packets awaiting acknowledgement. 14:R482. Reset none. -/
  unacked : List Unacked
  /-- Re-sends owed as unicast on VC0. 14:R486. Reset none. -/
  resends : List FilPacket
  /-- Rows whose segments await hand-over since the plan's commit. 14:R478. Reset none. -/
  draining : List Nat
  /-- Commit that applied the plan whose segments drain. 14:R478. Reset none. -/
  planCommit : Option Nat
  /-- Rows whose segments stayed unassigned after a drain fault. 14:R479. Reset none. -/
  unassigned : List Nat
  deriving DecidableEq, Repr

/-! ### Chain links (14_filigree_chain.md) -/

inductive LinkState where
  | down | handshake | up
  deriving DecidableEq, Repr

/-- A DATA packet of the module: kept for replay under its LINK_SEQ (R498), waiting for a credit, or returned as a NACK (R500). -/
structure Replay where
  seq : Nat
  vc : Nat
  fence : Bool
  flits : Nat
  srcModule : Nat
  srcNode : Nat
  epoch : Nat
  dstModule : Nat
  dstNode : Nat
  e2eSeq : Nat
  payload : List (BitVec 8)
  deriving DecidableEq, Repr

/-- A chain packet as sent (R494): the fields of Table 14.2 and the payload. -/
structure ChainPacket where
  type : Nat
  vc : Nat
  fence : Bool
  flits : Nat
  creditVc : Nat
  creditCount : Nat
  linkSeq : Nat
  ackSeq : Nat
  srcModule : Nat
  srcNode : Nat
  epoch : Nat
  dstModule : Nat
  dstNode : Nat
  e2eSeq : Nat
  payload : List (BitVec 8)
  deriving DecidableEq, Repr

structure LinkSt where
  /-- Link state. 14:R499, 14:R504. Reset DOWN. -/
  state : LinkState
  /-- LINK_SEQ of the next DATA sent, u16. 14:R497. Reset 0. -/
  txSeq : Nat
  /-- LINK_SEQ expected, u16. 14:R497. Reset 0. -/
  rxExpect : Nat
  /-- Replay buffer, at most 2048. 14:R498. Reset none. -/
  replay : List Replay
  /-- Consecutive replays without progress. 14:R499. Reset 0. -/
  noProgress : Nat
  /-- Send credits per VC. 14:R496, 14:R503. Reset 64. -/
  credits : Vector Nat 4
  /-- Packets sent per VC, 32-bit cumulative. 14:R496. Reset 0. -/
  sent : Vector Nat 4
  /-- Credits returned per VC, 32-bit cumulative. 14:R496. Reset 0. -/
  back : Vector Nat 4
  /-- Packets waiting for a credit or room in the replay buffer, oldest first. 14:R496, 14:R498. Reset none. -/
  queue : List Replay
  /-- Peer's CREDIT_RESET received. 14:R503. Reset 0. -/
  gotReset : Bool
  /-- Peer's acknowledgement received. 14:R503. Reset 0. -/
  gotAck : Bool
  /-- Module at the far end, from TRAIN. 14:R491. Reset none. -/
  peer : Option Nat
  /-- The link was trained from the training record, and not in full. 17:R580. Reset 0. -/
  fromRecord : Bool
  /-- Receive buffers freed per VC and not yet returned to the peer as credits. 14:R494, 14:R496. Reset 0. -/
  owed : Vector Nat 4
  /-- Packets sent in this tick, newest first. 14:R494. Reset none. -/
  out : List ChainPacket
  /-- Tick of the last equalisation retune. 15:R518. Reset none. -/
  eqTick : Option Nat
  deriving DecidableEq, Repr

/-- What the module knows of another module (R492, R493, R514). -/
structure Peer where
  /-- Tick of the last PEER_TICK, by this module's counter. 14:R514. Reset none. -/
  lastSeen : Option Nat
  ready : Bool
  evacuating : Bool
  /-- Peer tick offset. 14:R492. Reset 0, DC 5. -/
  offset : Int
  /-- A PEER_TICK has come since the last TRAIN. 14:R493. Reset 0. -/
  heard : Bool
  lost : Bool
  /-- Chain route epoch it reported last. 14:R495, 14:R506. Reset 0, DC 5. -/
  epoch : Nat
  /-- Reported load, percent. 15:R534. Reset none. -/
  load : Option Nat
  deriving DecidableEq, Repr

/-- A migration in progress at the home module (R509, R510). -/
structure Migration where
  handle : Nat
  target : Nat
  decode : Nat
  head : Option CmdHead
  /-- The balancer started it (R536). -/
  balancer : Bool
  /-- Commit c at which it took effect. -/
  start : Nat
  /-- The switch commit has passed. -/
  switched : Bool
  previous : Nat
  /-- The reason this module's own share is refused, where another module is named too (R509, order 4). -/
  ownRefusal : Option Nat
  deriving DecidableEq, Repr

/-- A stream's share admitted for another module (R510), and the memory it grants (R507). -/
structure Grant where
  home : Nat
  handle : Nat
  decodeHere : Bool
  inferHere : Bool
  cls : ServiceClass
  codec : Nat
  poolMode : Bool
  width : Nat
  height : Nat
  frameRate : Nat
  motionMode : Nat
  binding : List BindEntry
  deriving DecidableEq, Repr

/-- CONTROL and PEER_TICK packets the module sends, and mirrors (R493, R510, R512, R513, R534). -/
inductive ChainOut where
  | mirrorOf (dst : Nat) (m : Mirror)
  | releaseBuddy (dst : Nat)
  | admissionRequest (dst : Nat) (handle : Nat)
  | admissionReply (dst : Nat) (handle : Nat) (reason : Nat)
  | migrationCopy (dst : Nat) (handle : Nat)
  | loadReport (dst : Nat) (load : Nat)
  deriving DecidableEq, Repr

structure Chain where
  /-- The four links. 14:R489. Reset DOWN. -/
  links : Vector LinkSt 4
  /-- What is known of modules 0-7. 14:R492, 14:R514. Reset unknown. -/
  peers : Vector Peer 8
  /-- E2E_SEQ values accepted per source module, newest first, at most 4096. 14:R502. Reset none. -/
  e2eSeen : List (Nat × List Nat)
  /-- Chain route table: destination, primary link, alternate intermediate module. 14:R505. Reset none. -/
  routes : List (Nat × Option Nat × Option Nat)
  /-- Chain route epoch. 14:R505. Reset 0, DC 5. -/
  routeEpoch : Nat
  /-- The module this one mirrors to. 14:R512. Reset none. -/
  buddy : Option Nat
  /-- Former buddy not yet released. 14:R512. Reset none. -/
  formerBuddy : Option Nat
  /-- Streams captured at the last mirror commit whose mirror is not acknowledged, with the capture tick. 14:R513. Reset none. -/
  capturing : Option (Nat × List Nat)
  /-- A changed buddy is owed a mirror of every stream, from this commit on. 14:R512. Reset none. -/
  mirrorDue : Option Nat
  /-- Mirrors whose last byte has arrived, current from the next commit. 14:R513. Reset none. -/
  incoming : List Mirror
  /-- Current mirrors held for other modules. 14:R513. Reset none. -/
  mirrors : List Mirror
  /-- Streams of a lost module awaiting re-homing, with the commit it is due at and the lost module. 14:R515. Reset none. -/
  rehoming : List (Nat × Nat × Mirror)
  /-- Migrations of this module's streams. 14:R509. Reset none. -/
  migrations : List Migration
  /-- Shares admitted for other modules. 14:R510. Reset none. -/
  grants : List Grant
  /-- Packets returned to their source nodes as NACKs. 14:R500. Reset none. -/
  nacks : List Replay
  /-- Packets accepted for nodes of this module in this tick, newest first: source module, E2E_SEQ, destination node. 14:R500,
  14:R502. Reset none. -/
  accepted : List (Nat × Nat × Nat)
  /-- Packets sent this tick and commit. 14:R493. Reset none. -/
  out : List ChainOut
  deriving DecidableEq, Repr

/-! ### Safety and thermal (16, 18) -/

/-- Hallmark STATE (Table 4.1). -/
inductive ModuleState where
  | starting | ready | failed
  deriving DecidableEq, Repr

/-- A halted partition (R564, R565): the commit of the halt and the tenants whose resets, begun after it, have ended. -/
structure Halt where
  partition : Nat
  commit : Nat
  resetDone : BitVec 16
  deriving DecidableEq, Repr

/-- A unit withdrawn from frame work by a touchstone mismatch (R551): the tick of the latest failing job or retest, the retests run,
whether one failed or none is due, and the column the checks localised. -/
structure Retest where
  unit : UnitRef
  tick : Nat
  runs : Nat
  failed : Bool
  column : Option Nat
  deriving DecidableEq, Repr

/-- A failure as a commit reacts to it (R538, R540): what its DETAIL says, the streams in its scope, the frames whose stage work of
the tick just ended it affects, and the frames of its suspect window. -/
structure Failure where
  cls : FaultClass
  unit : Option UnitRef
  partition : Option Nat
  scope : Nat
  detectTick : Nat
  suspectFrom : Nat
  streams : List Nat
  stream : Option Nat
  now : List (Nat × Nat)
  older : List (Nat × Nat)
  deriving DecidableEq, Repr

/-- Why the module is FAILED, as the MMC reports it (R575, R615): a safety event, no firmware image, or a part that failed self-test. -/
inductive FailCause where
  | safety (cls : FaultClass)
  | noImage
  | part (kind : UnitKind)
  deriving DecidableEq, Repr

structure Safety where
  /-- Hallmark STATE. 04:R126. Reset STARTING. -/
  state : ModuleState
  /-- The cause of FAILED that the MMC's MODULE_STATE sensor carries. 17:R575, 18:R615. Reset none. -/
  failCause : Option FailCause
  /-- Faults reported since the last decision point. 02:R85. Reset none. -/
  faults : List FaultNote
  /-- Retired units, the run-time view of the ledger. 01:R45, 17:R588. Reset none (from the ledger at READY). -/
  retired : List UnitRef
  /-- Units to retire at the next commit, with the event code of their ledger entry. 01:R49. Reset none. -/
  toRetire : List (UnitRef × Nat)
  /-- Units withdrawn from frame work during retest or reload. 16:R551. Reset none. -/
  retests : List Retest
  /-- Tick of each unit's last passing touchstone. 16:R552. Reset none. -/
  lastPass : List (UnitRef × Nat)
  /-- Ticks of touchstone mismatches per unit. 16:R551. Reset none. -/
  mismatches : List (UnitRef × Nat)
  /-- Plan log of the last 100 ticks. 16:R552. Reset none. -/
  planLog : List PlanEntry
  /-- Clusters halted by a lockstep mismatch, with the detection commit. 16:R545. Reset none. -/
  reloading : List (Nat × Nat)
  /-- Ticks of lockstep mismatches per row. 16:R546. Reset none. -/
  lockstepLog : List (Nat × Nat)
  /-- Commits of RECORD_CRC events, for the third within 600 ticks. 16:R542. Reset none. -/
  crcLog : List Nat
  /-- Halted partitions. 16:R564. Reset none. -/
  halts : List Halt
  /-- Streams whose lost state is restarted at a commit: handle, commit. 16:R561. Reset none. -/
  restarts : List (Nat × Nat)
  /-- Touchstone jobs run on a unit, which give the next stored input. 16:R550. Reset none run. -/
  rotation : List (UnitRef × Nat)
  /-- Facet array columns mapped onto spares: tile, faulty physical column, spare column used. 09:R320, 09:R353. Reset none. -/
  spares : List (Nat × Nat × Nat)
  /-- THROTTLE_STEP, 0-5. 18:R618. Reset 0. -/
  throttle : Nat
  /-- Tick of the last step change. 18:R618. Reset none. -/
  stepTick : Option Nat
  /-- Consecutive ticks whose readings were all at most 95 degrees. 18:R618, 18:R619. Reset 0. -/
  coolTicks : Nat
  /-- Facet arrays stopped by THERMAL_RUNAWAY. 18:R619. Reset 0. -/
  arraysStopped : Bool
  /-- FAN_FULL_N asserted by the die. 18:R619. Reset 0. -/
  fanFull : Bool
  /-- TELEMETRY_STALE in force. 04:R158. Reset 0. -/
  stale : Bool
  /-- TELEMETRY_STALE from the next commit. 04:R158. Reset 0. -/
  staleNext : Bool
  /-- Keep-alives missing in a row, in 100 ms. 18:R593. Reset 0. -/
  missedAlive : Nat
  /-- Free-value counter: the model's own field, advanced by each draw. DC 8. Reset 0. -/
  draws : Nat
  deriving DecidableEq, Repr

/-! ### NOR, ledger, firmware, start (17, 19) -/

/-- A defect ledger entry (Table 17.4); `detail` is 12 bytes. -/
structure LedgerEntry where
  type : Nat
  unitKind : Nat
  unit : Nat
  source : Nat
  startCount : Nat
  tick : Nat
  detail : List Byte
  deriving DecidableEq, Repr

/-- SLOT_STATE (Table 19.2). -/
inductive SlotState where
  | empty | downloading | downloaded | verified | pending | trial | confirmed | standby | rejected
  deriving DecidableEq, Repr

/-- A firmware slot: its state, the image as far as written, and the next expected offset (R634, R635). -/
structure FwSlot where
  state : SlotState
  /-- Empty for the image a slot holds from manufacture, whose bytes the spec does not give. -/
  image : List Byte
  nextOffset : Nat
  trials : Nat
  deriving DecidableEq, Repr

/-- A boot-pointer record (Table 19.3). -/
structure BootPtr where
  sequence : Nat
  active : Nat
  previous : Nat
  confirmed : Bool
  reverted : Bool
  trials : Nat
  autoConfirm : Nat
  deriving DecidableEq, Repr

/-- Which path holds an update of a component (R647). -/
inductive UpdatePath where
  | ring | pldm
  deriving DecidableEq, Repr

/-- One updatable component (2 or 3): slots A and B, the two boot-pointer copies, who holds an update, and the time at
which the trial reached READY. -/
structure FwComponent where
  /-- Slot A. 19:R630, 19:R633. Reset CONFIRMED running, PRESUMED 9. -/
  slotA : FwSlot
  /-- Slot B. 19:R630, 19:R633. Reset EMPTY, PRESUMED 9. -/
  slotB : FwSlot
  /-- Boot-pointer copy 0. 19:R638. Reset ACTIVE A confirmed, PRESUMED 9. -/
  ptr0 : Option BootPtr
  /-- Boot-pointer copy 1. 19:R638. Reset as copy 0, PRESUMED 9. -/
  ptr1 : Option BootPtr
  /-- Running slot, 1 A, 2 B. 19:R633. Reset 1, PRESUMED 9. -/
  running : Nat
  /-- The path that holds an update. 19:R647. Reset none. -/
  holder : Option UpdatePath
  /-- Tick at which the trial reached READY or the MMC rebuilt its state, by the present tick counter: a die start in between makes it
  negative. 19:R645. Reset none. -/
  trialReady : Option Int
  deriving DecidableEq, Repr

/-- The training record (17_power_on_ready.md, R577). -/
structure TrainingRecord where
  data : TrainingData
  major : Nat
  ledgerCount : Nat
  deriving DecidableEq, Repr

structure Nor where
  /-- Ledger copy 1, at most 4096 entries. 17:R585. Reset none, PRESUMED 9. -/
  ledger0 : List LedgerEntry
  /-- Ledger copy 2. 17:R585. Reset none, PRESUMED 9. -/
  ledger1 : List LedgerEntry
  /-- Training record, copy 1. 17:R577. Reset none, DC 5. -/
  training0 : Option TrainingRecord
  /-- Training record, copy 2. 17:R577. Reset none, DC 5. -/
  training1 : Option TrainingRecord
  /-- Module firmware, COMPONENT 2. 19:R630. Reset slot A confirmed. -/
  die : FwComponent
  /-- MMC firmware, COMPONENT 3. 19:R630. Reset slot A confirmed. -/
  mmc : FwComponent
  /-- Writes to flash and NOR are held off, P12V being below 10.2 V. 18:R611. Reset 0. -/
  writesStopped : Bool
  deriving DecidableEq, Repr

structure Boot where
  /-- The die has power and its clocks run. 17:R569. Reset 1, DC 4. -/
  running : Bool
  /-- BRING_UP has passed for this die start. 17:R572. Reset 0. -/
  broughtUp : Bool
  /-- Module number. 01:R19, 01:R20. Reset 0, DC 5. -/
  moduleNo : Nat
  /-- Slot straps. 01:R19. Reset 0, DC 5. -/
  slot : Nat
  /-- Tray straps. 01:R19. Reset 0, DC 5. -/
  tray : Nat
  /-- The start is a fast start. 17:R578. Reset 0, DC 5. -/
  fast : Bool
  /-- Row whose cluster leads partition 0. 17:R574. Reset 0. -/
  leadRow : Nat
  /-- Units that self-test found faulty, applied at READY. 17:R582. Reset none. -/
  found : List UnitRef
  /-- Events due at READY: FW_REVERTED, FW_SLOT_FALLBACK, LEDGER_FULL with their DETAIL. 19:R642, 19:R643, 17:R589. Reset none. -/
  readyEvents : List (Nat × Nat × List Byte)
  deriving DecidableEq, Repr

/-! ### Hot-swap stage (18_management_power.md) -/

inductive Gate where
  | off | ramp | on
  deriving DecidableEq, Repr

/-- A hot-swap log entry (Table 18.3). -/
structure HotswapEntry where
  cause : Nat
  phase : Nat
  timeInPhase : Nat
  vOut : Nat
  iPeak : Nat
  startCount : Nat
  retry : Nat
  deriving DecidableEq, Repr

structure Power where
  /-- EN contact. 18:R594. Reset 1, DC 4. -/
  en : Bool
  /-- Gate of the pass transistor. 18:R598. Reset ON, DC 4. -/
  gate : Gate
  /-- FAULT_N latched low. 18:R600. Reset 0. -/
  faultLatched : Bool
  /-- The latched fault never retries. 18:R605. Reset 0. -/
  noRetry : Bool
  /-- PWRGD asserted. 18:R598. Reset 1, DC 4. -/
  pwrgd : Bool
  /-- P12V is out of its range and a new ramp awaits its recovery. 18:R603. Reset 0. -/
  inputBad : Bool
  /-- THERMTRIP_N asserted. 18:R620. Reset 0. -/
  thermtrip : Bool
  /-- Faults of R600 so far, as ms between each and the latest that the hot-swap stage has timed since. 18:R605. Reset none. -/
  faultAges : List Nat
  /-- Retry number of the next ramp. 18:R605, 18:R606. Reset 0. -/
  retryNo : Nat
  /-- Turn-off the stage holds until the MMC has read it. 18:R606. Reset none. -/
  heldTrip : Option HotswapEntry
  deriving DecidableEq, Repr

/-! ### MMC (18_management_power.md) -/

/-- The MMC's running state (R626-R628). -/
inductive MmcState where
  | absent | rebuilding | serving
  deriving DecidableEq, Repr

/-- An update in progress over PLDM (R646). -/
structure PldmUpdate where
  passed : List Nat
  component : Option Nat
  activating : Bool
  deriving DecidableEq, Repr

/-- A management response: sent over SMBus with the MMC as the bus's master and a PEC, or by VDM (R612, R613); MCTP message type (0x00 control,
0x01 PLDM, 0x7E vendor), command code, completion code and data bytes. -/
structure MgmtResponse where
  smbus : Bool
  msgType : Nat
  command : Nat
  code : Nat
  data : List Byte
  deriving DecidableEq, Repr

structure Mmc where
  /-- MMC running state. 18:R626. Reset serving, DC 4. -/
  state : MmcState
  /-- Endpoint ID, 8 bits; 0 is the null EID. 18:R613. Reset 0, PRESUMED 10. -/
  eid : Byte
  /-- Terminus ID, 8 bits. 18:R614. Reset 0, PRESUMED 10. -/
  tid : Byte
  /-- Event receiver EID. 18:R614, 18:R623. Reset none, PRESUMED 10. -/
  receiver : Option Byte
  /-- Platform events waiting to be polled, oldest first: (sensor ID, state or value). 18:R614. Reset none. -/
  events : List (Nat × Int)
  /-- Sensor readings by ID. 18:R615. Reset none read, DC 5. -/
  sensors : SensorIn
  /-- FAN_REQUEST, percent. 18:R621. Reset 100, DC 5. -/
  fan : Nat
  /-- FAN_REQUEST last reported. 18:R623. Reset 100, DC 5. -/
  fanReported : Nat
  /-- FAN_FULL_N asserted by the MMC's side. 18:R625. Reset 1. -/
  fanFull : Bool
  /-- Model keys in flash by tenant. 18:R616. Reset none. -/
  keys : List (Nat × List Byte)
  /-- Keys received by the die and in force from the next commit. 18:R617. Reset none. -/
  keysDue : List (Nat × Option (List Byte))
  /-- Hot-swap log, newest first, at most 64. 18:R606. Reset none. -/
  log : List HotswapEntry
  /-- Auto-retry enabled. 18:R605. Reset 0 (off when shipped). -/
  autoRetry : Bool
  /-- Die starts since manufacture. 17:R587. Reset 1, DC 5. -/
  starts : Nat
  /-- PLDM update in progress. 19:R646. Reset none. -/
  update : Option PldmUpdate
  /-- COMPONENT 3 activation restart is due. 19:R640. Reset 0. -/
  restartDue : Bool
  /-- The last response sent. 18:R616. Reset none. -/
  response : Option MgmtResponse
  deriving DecidableEq, Repr

/-! ### IEEE 1149.1 port -/

inductive JtagInstr where
  | bypass | idcode | samplePreload | extest
  deriving DecidableEq, Repr

structure Jtag where
  /-- Instruction selected. 18:R597. Reset IDCODE, PRESUMED 10. -/
  instr : JtagInstr
  /-- Boundary-scan register. 18:R597. Reset empty, DC 5. -/
  scan : List Bool
  /-- Pins driven from the boundary-scan register by EXTEST. 18:R597. Reset none. -/
  driven : Option (List Bool)
  /-- Bits shifted out on TDO by the last scan, first bit first. 18:R597. Reset empty, DC 5. -/
  out : List Bool
  deriving DecidableEq, Repr

/-! ### The state -/

structure State where
  clk : Clock
  host : HostSide
  work : WorkSt
  pools : Pools
  dram : Dram
  fab : Fabric
  chain : Chain
  safety : Safety
  nor : Nor
  boot : Boot
  power : Power
  mmc : Mmc
  jtag : Jtag
  /-- Commands waiting, first in first out. The block's command queue. Reset empty. -/
  pending : List Instr
  deriving DecidableEq, Repr

/-! ### Reset: right after the die start at power-on (17_power_on_ready.md, R569; notes/assumptions/4.md) -/

/-- 03:R106, 03:R112, 02:R59: FREE-RUN, tick 0, device time 0, no valid reference. -/
def Clock.reset : Clock :=
  { tick := 0, twin := 0, lastLen := 1666667, ocxoNs := 0, stepTotal := 0, mode := .freeRun, todValid := false, todLoaded := false,
    phaseErr := 0, edgeErr := none, refValid := false, ppsValid := false, refRun := 0, ppsRun := 0, lockRun := 0,
    lastEdge := none, lastAccepted := none, lastNear := none, held := [], ratePpb := 0, lockedPpb := 0, armed := none,
    loaded := none, fromMmc := none, steppedUntil := none, anchor := none, holdoverAt := none, lockedTicks := 0,
    leaveLocked := false, expired := false, notes := [] }

/-- Tables 5.7 to 5.9: every function register at its reset value. -/
def FnState.reset : FnState :=
  { sealed := false, resetBusy := false, rwlViolation := false, dbDiscarded := false, addressFault := false,
    fetchError := false, sealError := 0, sealDue := none, hbEnable := false, adminSqBase := 0, adminRingSize := 0,
    adminCqBase := 0, eventRingBase := 0, eventRingSize := 0, heartbeatAddr := 0, memEnable := false, busMaster := false,
    msixEnable := false, msix := [], bar0 := 0, bar2 := 0, aerStatus := 0, aerMask := 0x00400000, aerSeverity := 0x00462030,
    aerFirst := none, windowLock := false, rejects := [], eventSeq := 0, eventHeld := [], eventDropped := 0, safetyEvents := 0,
    lastSafety := 0, acceptedNow := 0, resetTrigger := false, sealNow := false, scrubBytes := 0, resetCommit := none, scrubs := [] }

/-- Table 5.11: a window register file at reset. -/
def Window.reset : Window := { taBase := 0, size := 0, hostBase := 0, read := false, write := false }

def HmView.reset : HmView :=
  { flags := 0, generation := 0, genTick := 0, stateCode := 1, changeMask := 0, entries := [] }

def HostSide.reset : HostSide :=
  { fns := Vector.replicate 17 FnState.reset, vfEnable := false, windows := Vector.replicate 128 Window.reset,
    autoRehome := false, autoRehomeWritten := false, sampleAllow := 0, sampleAllowWritten := 0, sampleWrites := [],
    lanes := 16, rate10 := 320, retrained := none, linkUp := true, timeoutDisable := false, timeoutValue := 0, vfBar0 := 0, vfBar2 := 0, errors := [],
    views := Vector.replicate 17 HmView.reset, queues := [], freedIds := [], accepted := [], works := [],
    completions := [], ahead := [], ending := [], auditOut := [], sampleOut := [], clasps := [], retractions := [], delivered := [], owedMsix := [],
    issue := [] }

/-- R394's default record-format table. -/
def RecordFormat.default : RecordFormat :=
  { maxDetections := 1024, flags := 2, inbound := List.replicate 16 0xFFFF }

/-- Table 15.7's defaults. -/
def BalancePolicy.default : BalancePolicy :=
  { mode := 0, classes := 6, tenants := 0xFFFF, highWater := 90, lowWater := 70, modules := 0xFF, maxMoves := 2,
    interval := 600, minDwell := 6000 }

/-- 01:R33, 06:R202, 11:R393, 11:R394: an unconfigured tenant. -/
def TenantSt.reset : TenantSt :=
  { configured := false, partition := 0, quota := 1024, tableEpoch := 0, epochTouched := false, retireClasp := none,
    key := none, filter := BitVec.allOnes 256, format := RecordFormat.default }

/-- 01:R33, 02:R74: one partition of rows 0-7, route-plan epoch 1, nothing open. -/
def WorkSt.reset : WorkSt :=
  { tenants := Vector.replicate 16 TenantSt.reset, startMask := 1, routeEpoch := 1, models := [], streams := [],
    freedHandles := [], ended := [], retunes := [], remoteEnds := [], retained := [], sessions := [], balance := BalancePolicy.default,
    evacuating := false, evacDone := false, overcommitted := [] }

def Pools.reset : Pools := { bufs := [], gens := [], levels := [], closed := [] }

/-- 13:R448: idle at the normal refresh rate; the odd channel of a node starts half an interval later. -/
def ChannelSt.reset (odd : Bool) : ChannelSt :=
  { reqs := [], wq := [], draining := false, interval := 3900, wanted := 3900, refreshes := 0,
    stagger := if odd then 3900 else 0, celsius := 25, coolReads := 0, zqs := 0, zqTick := none, scrubBytes := 0,
    suspectPages := [], scrubPass := 0, scrubPos := 0, corrected := 0, hot := false }

def PortSt.reset : PortSt :=
  { minRate := 0, burst := 256, weight := 1, tokens := 256, above := 0, late := 0, granted := 0, lateDue := 0 }

def Dram.reset : Dram :=
  { mem := [], poison := [], sram := [], sramUsers := [], channels := Vector.ofFn (fun c : Fin 16 => ChannelSt.reset (c.val % 2 == 1)),
    ports := Vector.replicate 72 PortSt.reset, replies := [], refused := 0, nextSeq := 0 }

def Fabric.reset : Fabric :=
  { packets := [], credits := [], links := [], deliveries := [], seen := [], unacked := [], resends := [],
    draining := [], planCommit := none, unassigned := [] }

def LinkSt.reset : LinkSt :=
  { state := .down, txSeq := 0, rxExpect := 0, replay := [], noProgress := 0, credits := Vector.replicate 4 64,
    sent := Vector.replicate 4 0, back := Vector.replicate 4 0, queue := [], gotReset := false, gotAck := false,
    peer := none, fromRecord := false, owed := Vector.replicate 4 0, out := [], eqTick := none }

def Peer.reset : Peer :=
  { lastSeen := none, ready := false, evacuating := false, offset := 0, heard := false, lost := false, epoch := 0,
    load := none }

def Chain.reset : Chain :=
  { links := Vector.replicate 4 LinkSt.reset, peers := Vector.replicate 8 Peer.reset, e2eSeen := [], routes := [],
    routeEpoch := 0, buddy := none, formerBuddy := none, capturing := none, mirrorDue := none,
    incoming := [], mirrors := [], rehoming := [],
    migrations := [], grants := [], nacks := [], accepted := [], out := [] }

def Safety.reset : Safety :=
  { state := .starting, failCause := none, faults := [], retired := [], toRetire := [], retests := [], lastPass := [],
    mismatches := [], planLog := [], reloading := [], lockstepLog := [], crcLog := [], halts := [], restarts := [], rotation := [],
    spares := [], throttle := 0, stepTick := none, coolTicks := 0, arraysStopped := false, fanFull := false,
    stale := false, staleNext := false, missedAlive := 0, draws := 0 }

/-- notes/assumptions/9.md: slot A holds a confirmed image, slot B is empty. -/
def FwComponent.reset : FwComponent :=
  { slotA := { state := .confirmed, image := [], nextOffset := 0, trials := 0 },
    slotB := { state := .empty, image := [], nextOffset := 0, trials := 0 },
    ptr0 := some { sequence := 0, active := 1, previous := 0, confirmed := true, reverted := false, trials := 0,
                   autoConfirm := 0 },
    ptr1 := some { sequence := 0, active := 1, previous := 0, confirmed := true, reverted := false, trials := 0,
                   autoConfirm := 0 },
    running := 1, holder := none, trialReady := none }

def Nor.reset : Nor :=
  { ledger0 := [], ledger1 := [], training0 := none, training1 := none, die := FwComponent.reset, mmc := FwComponent.reset,
    writesStopped := false }

def Boot.reset : Boot :=
  { running := true, broughtUp := false, moduleNo := 0, slot := 0, tray := 0, fast := false, leadRow := 0, found := [],
    readyEvents := [] }

/-- notes/assumptions/4.md: EN asserted, the gate on, PWRGD asserted. -/
def Power.reset : Power :=
  { en := true, gate := .on, faultLatched := false, noRetry := false, pwrgd := true, inputBad := false,
    thermtrip := false, faultAges := [], retryNo := 0, heldTrip := none }

def SensorIn.unread : SensorIn :=
  { junctions := [], dram := [], inlet := none, outlet := none, regulator := none, p12v := none, currentA := none,
    powerW := none }

def Mmc.reset : Mmc :=
  { state := .serving, eid := 0, tid := 0, receiver := none, events := [], sensors := SensorIn.unread, fan := 100,
    fanReported := 100, fanFull := true, keys := [], keysDue := [], log := [], autoRetry := false, starts := 1,
    update := none, restartDue := false, response := none }

def Jtag.reset : Jtag := { instr := .idcode, scan := [], driven := none, out := [] }

/-- The block right after the die start at power-on (R569), with an empty command queue. -/
def State.reset : State :=
  { clk := Clock.reset, host := HostSide.reset, work := WorkSt.reset, pools := Pools.reset, dram := Dram.reset,
    fab := Fabric.reset, chain := Chain.reset, safety := Safety.reset, nor := Nor.reset, boot := Boot.reset,
    power := Power.reset, mmc := Mmc.reset, jtag := Jtag.reset, pending := [] }

end Sys2Proof.Machine
end

