-- ==== Sys2Proof/Config.lean ====
section
/-! DEFINITION. What an implementation fixes and what the spec leaves open. Every constant here is opaque: it has no
body, nothing can evaluate it, and a statement that holds does so for every value of it (notes/assumptions/8.md,
11.md to 14.md). -/

namespace Sys2Proof.Machine

/-- One macroblock or CTU as the standard decodes it: its samples by rows, at their own bit depth and with whatever the in-loop filters
leave; whether it is intra-coded; the blocks of 64 x 64 of reference pictures that its prediction reads, by the reference's name and the
block's index; its motion vector in 1/4 pixel; the vector of each of its 4 x 4 blocks in its first reference list with the distance in
pictures to its reference (R306); and the byte of its NAL unit at which it begins. -/
structure StdBlock where
  luma : List (List Nat)
  cb : List (List Nat)
  cr : List (List Nat)
  intra : Bool
  reads : List (Nat × Nat)
  vector : Option (Int × Int)
  motion : List (Option (Int × Int × Nat))
  at_ : Nat
  deriving DecidableEq, Repr, Inhabited

/-- One slice or slice segment: the number of its NAL unit, first_mb_in_slice or slice_segment_address, the blocks that decode, in order,
and the syntax element that ends them early: KIND 1 or 2 of Table 7.6 and its byte. -/
structure StdSlice where
  nal : Nat
  first : Nat
  blocks : List StdBlock
  err : Option (Nat × Nat)
  deriving DecidableEq, Repr, Inhabited

/-- What the standard gives for a picture's NAL units: the active SPS, the slices, the picture's own name as a reference, the names of the
pictures that the reference marking keeps, this one included if it does (R279), whether it is an IDR or IRAP picture (R286), and the clock
timestamp of its SEI: hours, minutes, seconds, n_frames, time_offset (R116). -/
structure StdPicture where
  sps : Option Sps
  slices : List StdSlice
  key : Nat
  kept : List Nat
  randomAccess : Bool
  clock : Option (Nat × Nat × Nat × Nat × Int)
  deriving DecidableEq, Repr, Inhabited

/-- Syntax and block reconstruction of H.264 and H.265, which the spec names and does not repeat (R262, R272): from the codec, the
parameter sets so far, the picture's NAL units and the reference pictures. A free function of these (notes/assumptions/11.md). -/
opaque Config.decode : Nat → List (List Byte) → List (List Byte) → List RefPicture → StdPicture

/-- The median of two motion vector components (R284): the spec names the median of up to three neighbours and no rule for two. -/
opaque Config.medianOfTwo : Int → Int → Int

/-- The whole pixel that an odd number of half pixels is rounded to (R284): the spec names no rule for the half. -/
opaque Config.halfPixel : Int → Int

/-- The sample that concealment copies from outside the reference picture: the plane (0 luma, 1 Cb, 2 Cr) and the position (R284). -/
opaque Config.outsideSample : Nat → Int → Int → Nat

/-- How far, in units in the last place, the post engine's exp lies from the correctly rounded one (R378): the model takes
it modulo 5, less 2. -/
opaque Config.expUlp : BitVec 32 → Nat

/-- The same for the logistic function (R378). -/
opaque Config.logisticUlp : BitVec 32 → Nat

/-- ECDSA P-384 verification over SHA-384: key, message, signature (R347, R637). -/
opaque Config.ecdsaVerify : List Byte → List Byte → List Byte → Bool

/-- The verifying key held in the boot ROM (R632). -/
opaque Config.bootRomKey : List Byte

/-- How long after a read, in ns, a reserved Completion Timeout Value lets the module declare a timeout (05:R658). -/
opaque Config.reservedTimeout : BitVec 4 → Nat

/-- A fresh free value per draw, where the spec says that a value results and not which (notes/assumptions/8.md). -/
opaque Config.free : Nat → Nat

/-- The signature held in the firmware image for a unit kind and stored input (R550). -/
opaque Config.touchstoneSignature : UnitKind → Nat → BitVec 64

/-- Thofonex's assigned PCI vendor identifier (R159, R613). -/
opaque Config.vendorId : BitVec 16

/-- The module serial number, endpoint UUID, firmware versions and other identity data (R159, R613, R142). -/
opaque Config.uuid : List Byte

/-- Version data of the firmware components: component, slot to major, minor, patch and build (R142). -/
opaque Config.firmwareVersion : Nat → Nat → Nat × Nat × Nat × Nat

/-- Response data of the MCTP and PLDM commands whose content the DMTF specifications give: command and selector
(R613, R614; notes/assumptions/14.md). -/
opaque Config.mgmtData : Nat → Nat → List Byte

/-- The device identification code of the IEEE 1149.1 port (R597). -/
opaque Config.idcode : BitVec 32

/-- Whether a device address lies in the region a migration or mirror grants (R507): home module, handle, address. The spec
gives no bounds of that region. -/
opaque Config.grantedRegion : Nat → Nat → Nat → Bool

/-- MIN_RATE, BURST and WEIGHT that the lead cluster derives from its plan for a port: tick, row, port (R458). The spec gives
their bounds and no rule for the numbers. -/
opaque Config.portRate : Nat → Nat → Nat → Nat
opaque Config.portBurst : Nat → Nat → Nat → Nat
opaque Config.portWeight : Nat → Nat → Nat → Nat

/-- Whether a filtered, averaged or colour-converted sample that is not a whole number (numerator, denominator) takes the whole
number above it rather than the one below (R291, R292, R298, R301, R304): the spec gives no rounding. -/
opaque Config.pixelUp : Int → Nat → Bool

/-- The luma a motion search reads outside the reference picture (R303, R304): the spec gives none. -/
opaque Config.outsideLuma : Int → Int → BitVec 8

/-- The order in which the positions of one search step are evaluated (R304, R305): the spec orders the candidates and the
steps only. -/
opaque Config.searchOrder : Int → Int → Nat

/-- Whether the chain link between two other modules is UP (R505), which no packet of the spec reports: tick, the two modules. -/
opaque Config.farLinkUp : Nat → Nat → Nat → Bool

/-- What the inline code makes of a granule with more than two damaged bytes (R444 states one and two): key, damaged places of the
codeword; modulo 3: clean, corrected, uncorrectable. And the granule's bytes where it does not find it uncorrectable. -/
opaque Config.eccBeyond : Nat → List Nat → Nat
opaque Config.eccData : Nat → List Nat → Nat → BitVec 8

/-- Whether a node holds a free multicast ejection credit (R484), whose number the spec does not give: node, deliveries so far. -/
opaque Config.ejection : Nat → Nat → Bool

/-- The dependent remote reads of a T+1 whose pictures another module decoded (R508), of which the spec gives no count: the declared width
and height. -/
opaque Config.remoteReads : Nat → Nat → Nat

/-- Whether a sample finds vision-engine time left in its tick (R316): tick, place among the tick's samples. -/
opaque Config.sampleTime : Nat → Nat → Bool

/-- A byte of tile SRAM or of a frame's output or scratch region that a job reads before it has written it: region, address. The
spec gives none. -/
opaque Config.jobStart : Nat → Nat → BitVec 8

/-- The value a vector operation writes where its exact result does not fit its output format and the spec names no
saturation (R335): format, exact result times 2^24. -/
opaque Config.narrow : Nat → Int → BitVec 32

/-- Order in which ready queues of a facet program start when several may (R338; notes/assumptions/12.md). -/
opaque Config.queueOrder : Nat → Nat

end Sys2Proof.Machine
end

