-- ==== Sys2Proof/Machine/Bytes.lean ====
section
/-! DEFINITION. Bytes, little-endian fields (00:R6), the CRC-32C of 11:R398, the mixing function of 08:R315, sparse
byte memories in canonical form, and list helpers the families share. -/

namespace Sys2Proof.Machine

/-! ### Numbers -/

/-- Rounded-up division. -/
def ceilDiv (a b : Nat) : Nat := (a + b - 1) / b

/-- `a` rounded up to a multiple of `b`. -/
def roundUp (a b : Nat) : Nat := ceilDiv a b * b

/-- Number of significant bits of `x` (10:R369's bitlen). -/
def bitlen (x : Nat) : Nat := if x = 0 then 0 else x.log2 + 1

/-- The value of the low `n` bits read as two's complement. -/
def toSigned (n : Nat) (v : Nat) : Int :=
  let w := v % 2 ^ n
  if w < 2 ^ (n - 1) then w else (w : Int) - 2 ^ n

/-- The low `n` bits of a two's complement value. -/
def ofSigned (n : Nat) (v : Int) : Nat := (v % 2 ^ n).toNat

/-- Saturation to the signed `n`-bit range. -/
def satS (n : Nat) (v : Int) : Int :=
  if v < -(2 ^ (n - 1)) then -(2 ^ (n - 1)) else if v > 2 ^ (n - 1) - 1 then 2 ^ (n - 1) - 1 else v

/-- Division of `a` by the positive `b`, to nearest with halves away from zero. -/
def divRoundAway (a : Int) (b : Nat) : Int :=
  if 0 ≤ a then ((2 * a.toNat + b) / (2 * b) : Nat) else -(((2 * (-a).toNat + b) / (2 * b) : Nat) : Int)

/-- Bit `i` of `v`. -/
def bitOf (v i : Nat) : Bool := v.testBit i

/-- Bits [hi:lo] of `v` (00:R7). -/
def bitsOf (v hi lo : Nat) : Nat := (v >>> lo) % 2 ^ (hi - lo + 1)

def boolNat (b : Bool) : Nat := if b then 1 else 0

/-- 32-bit serial-number comparison: `a` is after `b` (02:R75, 19:R638). -/
def serialAfter (a b : Nat) : Bool :=
  let d := (a + 2 ^ 32 - b % 2 ^ 32) % 2 ^ 32
  0 < d && d < 2 ^ 31

/-! ### Little-endian fields -/

/-- `v` as `n` bytes, least significant first. -/
def le : Nat → Nat → List Byte
  | 0, _ => []
  | n + 1, v => BitVec.ofNat 8 v :: le n (v / 256)

/-- A signed value as `n` bytes. -/
def leS (n : Nat) (v : Int) : List Byte := le n (ofSigned (8 * n) v)

/-- The number a little-endian byte string holds. -/
def leVal : List Byte → Nat
  | [] => 0
  | b :: bs => b.toNat + 256 * leVal bs

/-- `n` bytes at offset `off`; bytes beyond the end read as 0. -/
def sliceAt (bs : List Byte) (off n : Nat) : List Byte :=
  let s := (bs.drop off).take n
  s ++ List.replicate (n - s.length) 0

/-- The unsigned field of `n` bytes at `off`. -/
def rd (bs : List Byte) (off n : Nat) : Nat := leVal (sliceAt bs off n)

/-- The signed field of `n` bytes at `off`. -/
def rdS (bs : List Byte) (off n : Nat) : Int := toSigned (8 * n) (rd bs off n)

/-- Exactly `n` bytes: cut or filled with 0. -/
def fit (n : Nat) (bs : List Byte) : List Byte := sliceAt bs 0 n

/-- `n` bytes at `off` are all 0. -/
def zeroAt (bs : List Byte) (off n : Nat) : Bool := (sliceAt bs off n).all (· == 0)

/-- `bs` with the bytes `new` written at `off`. -/
def putAt (bs : List Byte) (off : Nat) (new : List Byte) : List Byte :=
  sliceAt bs 0 off ++ new ++ bs.drop (off + new.length)

/-! ### CRC-32C (11:R398: polynomial 0x1EDC6F41 reflected, initial value and final XOR all ones) -/

/-- `n` bit steps of the reflected CRC-32C register. -/
def crcBits : Nat → Nat → Nat
  | 0, c => c
  | n + 1, c => crcBits n (if c % 2 = 1 then (c / 2) ^^^ 0x82F63B78 else c / 2)

def crcRun : List Byte → Nat → Nat
  | [], c => c
  | b :: bs, c => crcRun bs (crcBits 8 (c ^^^ b.toNat))

/-- The CRC-32C of a byte string. -/
def crc32c (bs : List Byte) : Nat := crcRun bs 0xFFFFFFFF ^^^ 0xFFFFFFFF

/-- `bs` followed by its CRC-32C. -/
def withCrc (bs : List Byte) : List Byte := bs ++ le 4 (crc32c bs)

/-! ### mix64 (08:R315), on unsigned 64-bit values -/

def w64 (z : Nat) : Nat := z % 2 ^ 64

def mix64 (z0 : Nat) : Nat :=
  let z1 := w64 ((z0 ^^^ (z0 >>> 30)) * 0xbf58476d1ce4e5b9)
  let z2 := w64 ((z1 ^^^ (z1 >>> 27)) * 0x94d049bb133111eb)
  z2 ^^^ (z2 >>> 31)

/-! ### Sparse byte memories: (key, byte) pairs with keys rising and no byte 0; an unlisted key reads 0 -/

abbrev Memory := List (Nat × BitVec 8)

/-- The canonical form: keys strictly rising and no entry equal to what an unlisted key reads as. -/
def Memory.wf : Memory → Bool
  | [] => true
  | [(_, b)] => b != 0
  | (a, b) :: (a', b') :: m => decide (a < a') && b != 0 && Memory.wf ((a', b') :: m)

/-- The byte at a key. -/
def Memory.get : Memory → Nat → BitVec 8
  | [], _ => 0
  | (k, b) :: m, a => if k = a then b else Memory.get m a

/-- Writes one byte, keeping the canonical form. -/
def Memory.set : Memory → Nat → BitVec 8 → Memory
  | [], a, v => if v = 0 then [] else [(a, v)]
  | (k, b) :: m, a, v =>
    if a < k then (if v = 0 then (k, b) :: m else (a, v) :: (k, b) :: m)
    else if a = k then (if v = 0 then m else (a, v) :: m)
    else (k, b) :: Memory.set m a v

/-- `n` bytes from a key upward. -/
def Memory.read (m : Memory) (a : Nat) : Nat → List Byte
  | 0 => []
  | n + 1 => m.get a :: Memory.read m (a + 1) n

/-- Writes bytes from a key upward. -/
def Memory.write : Memory → Nat → List Byte → Memory
  | m, _, [] => m
  | m, a, b :: bs => Memory.write (m.set a b) (a + 1) bs

/-- Writes bytes from a key upward where the enable is set. -/
def Memory.writeEn : Memory → Nat → List Byte → List Bool → Memory
  | m, a, b :: bs, e :: es => Memory.writeEn (if e then m.set a b else m) (a + 1) bs es
  | m, _, _, _ => m

/-! ### Lists -/

/-- The element at an index, or a default. -/
def nth {α : Type} (d : α) (xs : List α) (i : Nat) : α := xs.getD i d

/-- Changes the elements that satisfy `p`. -/
def updWhere {α : Type} (p : α → Bool) (f : α → α) (xs : List α) : List α := xs.map (fun x => if p x then f x else x)

/-- Inserts into a list sorted by `before`, after its equals. -/
def insertBy {α : Type} (before : α → α → Bool) (x : α) : List α → List α
  | [] => [x]
  | y :: ys => if before x y then x :: y :: ys else y :: insertBy before x ys

/-- Stable insertion sort: `before x y` puts x strictly ahead of y. -/
def sortBy {α : Type} (before : α → α → Bool) : List α → List α
  | [] => []
  | x :: xs => insertAhead before x (sortBy before xs)
where
  /-- Puts x ahead of the first element that it need not follow. -/
  insertAhead {α : Type} (before : α → α → Bool) (x : α) : List α → List α
    | [] => [x]
    | y :: ys => if before y x then y :: insertAhead before x ys else x :: y :: ys

/-- The greatest element, 0 for none. -/
def maxOf (xs : List Nat) : Nat := xs.foldl max 0

def sumOf (xs : List Nat) : Nat := xs.foldl (· + ·) 0

def sumOfInt (xs : List Int) : Int := xs.foldl (· + ·) 0

/-- The lowest number from `lo` on that `used` does not hold, looking at most `fuel` numbers ahead. -/
def lowestFree (used : Nat → Bool) : Nat → Nat → Option Nat
  | _, 0 => none
  | lo, fuel + 1 => if used lo then lowestFree used (lo + 1) fuel else some lo

end Sys2Proof.Machine
end

