-- ==== Sys2Proof/Machine/Ops.lean ====
section
/-! DEFINITION. The named operations the meanings share: reading and changing one part of the state, the die's units and
partitions (ch. 1), device time (ch. 3), raising events (06:R220, 06:R242), forming completions (06:R226), queues,
windows (05:R183) and clasps. -/

namespace Sys2Proof.Machine

abbrev Out := Host.Outcome State Fault Refusal

/-! ### Parts of the state -/

def State.fnSt (s : State) (f : Fn) : FnState := s.host.fns.get f

def State.withHost (s : State) (h : HostSide) : State := { s with host := h }

def State.withWork (s : State) (w : WorkSt) : State := { s with work := w }

def State.withSafety (s : State) (x : Safety) : State := { s with safety := x }

def State.modFn (s : State) (f : Fn) (g : FnState → FnState) : State :=
  { s with host := { s.host with fns := s.host.fns.set f.val (g (s.host.fns.get f)) } }

def State.tenantSt (s : State) (t : Tenant) : TenantSt := s.work.tenants.get t

def State.modTenant (s : State) (t : Tenant) (g : TenantSt → TenantSt) : State :=
  { s with work := { s.work with tenants := s.work.tenants.set t.val (g (s.work.tenants.get t)) } }

/-- The tenant a function serves, none for the PF (05:R174, FN_ID). -/
def tenantOf (f : Fn) : Option Tenant := if h : f.val < 16 then some ⟨f.val, h⟩ else none

/-- The VF of a tenant. -/
def fnOf (t : Tenant) : Fn := ⟨t.val, by omega⟩

/-- The function of the tenant whose stream handle it is (R246). -/
def fnOfHandle (handle : Nat) : Fn := if h : handle / 0x1000 < 17 then ⟨handle / 0x1000, h⟩ else 0

def isPf (f : Fn) : Bool := f.val == 16

def allFns : List Fn := List.finRange 17

def allTenants : List Tenant := List.finRange 16

/-- The module accepts nothing and writes nothing once it is FAILED (16:R543, Table 17.6), or while the die is off. -/
def State.dead (s : State) : Bool := !s.boot.running || s.safety.state == .failed

/-- The die runs and is READY (17:R591). -/
def State.isReady (s : State) : Bool := s.boot.running && s.safety.state == .ready

/-! ### Units and rows (01_module_tray_die.md) -/

/-- The row of a unit (Table 1.1); edge units have none. -/
def rowOfUnit (u : UnitRef) : Option Nat :=
  match u.kind with
  | .facetTile => some (u.num / 2)
  | .decodeEngine => some (u.num / 3)
  | .visionEngine => some u.num
  | .motionEngine => some u.num
  | .postEngine => some u.num
  | .dramChannel => some (u.num / 2)
  | .controlCluster => some u.num
  | .poolNode => some u.num
  | .row => some u.num
  | .chainLink => none
  | .hostPortA => none
  | .hostPortB => none
  | .assayNode => none
  | .mgmtBridge => none

/-- Node IDs (R21, Tables 1.1 and 1.2). -/
def nodeOfUnit (u : UnitRef) : Nat :=
  match u.kind with
  | .facetTile => 9 * (u.num / 2) + u.num % 2
  | .decodeEngine => 9 * (u.num / 3) + 2
  | .visionEngine => 9 * u.num + 3
  | .motionEngine => 9 * u.num + 3
  | .postEngine => 9 * u.num + 4
  | .dramChannel => 9 * (u.num / 2) + 5
  | .controlCluster => 9 * u.num + 6
  | .poolNode => 9 * u.num + 7
  | .row => 9 * u.num + 6
  | .hostPortA => 8
  | .hostPortB => 17
  | .chainLink => 26 + 9 * u.num
  | .assayNode => 62
  | .mgmtBridge => 71

/-- KIND codes of Table 4.5, 0 for the parts without one. -/
def kindCode : UnitKind → Nat
  | .facetTile => 1
  | .decodeEngine => 2
  | .visionEngine => 3
  | .motionEngine => 4
  | .postEngine => 5
  | .dramChannel => 6
  | .controlCluster => 7
  | .poolNode => 8
  | .chainLink => 9
  | .row => 10
  | .hostPortA => 0
  | .hostPortB => 0
  | .assayNode => 0
  | .mgmtBridge => 0

/-- BUILT of Table 4.5. -/
def builtOf : UnitKind → Nat
  | .facetTile => 16
  | .decodeEngine => 24
  | .visionEngine => 8
  | .motionEngine => 8
  | .postEngine => 8
  | .dramChannel => 16
  | .controlCluster => 8
  | .poolNode => 8
  | .chainLink => 4
  | .row => 8
  | .hostPortA => 1
  | .hostPortB => 1
  | .assayNode => 1
  | .mgmtBridge => 1

/-- A unit stands in the retired list itself. -/
def listedRetired (retired : List UnitRef) (k : UnitKind) (n : Nat) : Bool := retired.contains ⟨k, n⟩

/-- R45, Table 1.4: what retires a row. -/
def rowRetiredIn (retired : List UnitRef) (r : Nat) : Bool :=
  listedRetired retired .row r || listedRetired retired .controlCluster r || listedRetired retired .poolNode r ||
    (listedRetired retired .dramChannel (2 * r) && listedRetired retired .dramChannel (2 * r + 1))

/-- R136: a unit is available when it is not in the ledger and not in a retired row. -/
def availableIn (retired : List UnitRef) (u : UnitRef) : Bool :=
  !retired.contains u && match rowOfUnit u with
    | some r => !rowRetiredIn retired r
    | none => true

def State.rowUsable (s : State) (r : Nat) : Bool := !rowRetiredIn s.safety.retired r

def State.available (s : State) (k : UnitKind) (n : Nat) : Bool := availableIn s.safety.retired ⟨k, n⟩

/-- The unit a touchstone covers: a motion field engine is covered with its vision engine (Table 16.3). -/
def touchUnit (k : UnitKind) (n : Nat) : UnitRef := if k == .motionEngine then ⟨.visionEngine, n⟩ else ⟨k, n⟩

/-- The row of a unit receives stage work: its cluster is not being reloaded (16:R545), and its ring segments are assigned
(14:R478, R479). -/
def State.rowWorks (s : State) (r : Nat) : Bool :=
  !(s.safety.reloading.any (fun x => x.1 == r)) && !s.fab.draining.contains r && !s.fab.unassigned.contains r

/-- A unit that may receive frame work: available, not under retest (16:R551), in a row that receives work. -/
def State.workable (s : State) (k : UnitKind) (n : Nat) : Bool :=
  s.available k n && !(s.safety.retests.any (fun x => x.unit == touchUnit k n)) &&
    match rowOfUnit ⟨k, n⟩ with
    | some r => s.rowWorks r
    | none => true

/-! ### Partitions (01_module_tray_die.md, R32, R37) -/

/-- Number of partitions of a start mask. -/
def partCount (mask : BitVec 8) : Nat := ((List.range 8).filter (fun r => mask.getLsbD r)).length

/-- The partition that holds a row: partitions are numbered upward by their lowest row (R32). -/
def partOfRow (mask : BitVec 8) (r : Nat) : Nat :=
  ((List.range (r + 1)).filter (fun q => mask.getLsbD q)).length - 1

/-- The rows of a partition. -/
def partRows (mask : BitVec 8) (p : Nat) : List Nat := (List.range 8).filter (fun r => partOfRow mask r == p)

/-- The lowest row of a partition. -/
def partFirstRow (mask : BitVec 8) (p : Nat) : Nat := ((partRows mask p).head?).getD 0

def State.partOf (s : State) (f : Fn) : Nat :=
  match tenantOf f with
  | some t => (s.tenantSt t).partition
  | none => 0

def State.rowsOf (s : State) (p : Nat) : List Nat := partRows s.work.startMask p

def State.usableRows (s : State) (p : Nat) : List Nat := (s.rowsOf p).filter s.rowUsable

/-- R37, R546: the lead cluster is the control cluster of the partition's lowest usable row; for a partition without one the spec gives
no value: 0xFF (log entry 175). -/
def State.leadNode (s : State) (p : Nat) : Nat :=
  match (s.usableRows p).head? with
  | some r => 9 * r + 6
  | none => 0xFF

/-- The usable units of a kind in a partition. -/
def State.unitsOf (s : State) (p : Nat) (k : UnitKind) : List Nat :=
  (List.range (builtOf k)).filter (fun n =>
    s.available k n && match rowOfUnit ⟨k, n⟩ with
      | some r => partOfRow s.work.startMask r == p
      | none => false)

/-- The units of a kind that may receive frame work. -/
def State.workUnits (s : State) (p : Nat) (k : UnitKind) : List Nat := (s.unitsOf p k).filter (s.workable k)

/-! ### Device time (03_time_reference.md) -/

/-- R55, R656: nominal time of edge n, ns: the pattern 1,666,667, 1,666,667, 1,666,666. -/
def nominalNs (n : Nat) : Nat := 1666667 * n - n / 3

/-- Nominal length of the tick that begins at edge n. -/
def nominalLen (n : Nat) : Nat := nominalNs (n + 1) - nominalNs n

/-- Device time at the latest tick edge (R656). -/
def Clock.devTime (c : Clock) : Int := (nominalNs c.tick : Int) + c.stepTotal

/-- Device time `after` ns of OCXO time behind the latest edge: the nominal length is spread evenly over the tick as it is
actually generated (R656). -/
def Clock.devTimeAt (c : Clock) (after : Nat) : Int :=
  c.devTime + ((after * nominalLen c.tick / max 1 c.lastLen : Nat) : Int)

/-- u_dev at the latest edge in units of 10^-10 ns, none when unknown (Table 3.1, R108, R109). -/
def Clock.uDev (c : Clock) : Option Nat :=
  let slew := if c.phaseErr.natAbs > 20 then c.phaseErr.natAbs * 10 ^ 10 else 0
  match c.mode with
  | .locked => some (20 * 10 ^ 10 + slew)
  | .holdover =>
    let rate := if c.lockedTicks < 720000 then 50 else 16
    some (20 * 10 ^ 10 + rate * (c.ocxoNs - c.lastAccepted.getD c.ocxoNs) + slew)
  | .freeRun =>
    if c.todLoaded then
      match c.anchor with
      | some a => some (a.uA + 500 * (c.ocxoNs - a.ocxoNs) + slew)
      | none => none
    else none

/-- A quantity in 10^-10 ns as a u16 count of 8 ns, rounded up; 0xFFFF when unknown or too large (R120, R121). -/
def encodeUnc : Option Nat → Nat
  | none => 0xFFFF
  | some x => let u := ceilDiv x (8 * 10 ^ 10); if u < 0xFFFF then u else 0xFFFF

/-! ### Events (06:R220, R242; 20:R650-R653) -/

/-- DETAIL bytes: 28, the given ones first, the rest 0 (20:R653). -/
def detail28 (bs : List Byte) : List Byte := fit 28 bs

/-- Table 20.1: the severity of an event code; DECODE_ERROR's comes from Table 7.6. -/
def severityOf (code : Nat) : Nat :=
  if [0x0002, 0x0008, 0x0104, 0x0106, 0x0202, 0x0205, 0x0206, 0x0410, 0x0411, 0x0503, 0x0504, 0x0505, 0x0601,
      0x0702].contains code then 0
  else if [0x0005, 0x0006, 0x0204, 0x0303, 0x0305, 0x0501, 0x0502, 0x0700, 0x0701].contains code then 2
  else if 0x0400 ≤ code && code ≤ 0x040F then 2
  else 1

/-- Time state byte with bits [6:4] clear (Table 3.3, R122). -/
def Clock.stateByte (c : Clock) : Byte :=
  let st : Nat := match c.mode with
    | .freeRun => 0
    | .holdover => 1
    | .locked => 2
  let stepped := match c.steppedUntil with
    | some n => decide (c.tick < n)
    | none => false
  BitVec.ofNat 8 (st + 4 * boolNat c.todValid + 8 * boolNat (decide (c.phaseErr.natAbs > 20)) + 128 * boolNat stepped)

/-- An event as raised for a function: it takes the next SEQUENCE and joins the held list (R242). -/
def FnState.addEvent (x : FnState) (e : Event) : FnState :=
  { x with eventSeq := (x.eventSeq + 1) % 2 ^ 32, eventHeld := x.eventHeld ++ [{ e with seq := (x.eventSeq + 1) % 2 ^ 32 }] }

/-- Raises an event on the event ring of one function. -/
def State.raiseFull (s : State) (f : Fn) (code sev slot stream node : Nat) (detail : List Byte) : State :=
  s.modFn f (fun x => x.addEvent
    { code := code, severity := sev, slot := slot, stream := stream, tick := s.clk.tick, devTime := s.clk.devTime,
      tstate := s.clk.stateByte, node := node, seq := 0, detail := detail28 detail })

/-- Raises an event that concerns neither a slot, a stream nor a node. -/
def State.raise (s : State) (f : Fn) (code : Nat) (detail : List Byte) : State :=
  s.raiseFull f code (severityOf code) 0xFFFF 0xFFFF 0xFF detail

/-- Raises an event that concerns a stream. -/
def State.raiseStream (s : State) (f : Fn) (code handle : Nat) (detail : List Byte) : State :=
  s.raiseFull f code (severityOf code) 0xFFFF handle 0xFF detail

/-- Raises an event that concerns a slot. -/
def State.raiseSlot (s : State) (f : Fn) (code slot : Nat) (detail : List Byte) : State :=
  s.raiseFull f code (severityOf code) slot 0xFFFF 0xFF detail

/-- Raises an event that concerns a node. -/
def State.raiseNode (s : State) (f : Fn) (code node : Nat) (detail : List Byte) : State :=
  s.raiseFull f code (severityOf code) 0xFFFF 0xFFFF node detail

/-- Raises an event for several functions. -/
def State.raiseAll (s : State) (fs : List Fn) (code : Nat) (detail : List Byte) : State :=
  fs.foldl (fun s f => s.raise f code detail) s

/-- The state with the number and the edge time of the coming commit. -/
def State.coming (s : State) : State :=
  { s with clk := { s.clk with tick := s.clk.tick + 1, ocxoNs := s.clk.ocxoNs + s.clk.lastLen } }

/-- The state with the number and the edge time that clock `c` shows. -/
def State.backTo (s : State) (c : Clock) : State := { s with clk := { s.clk with tick := c.tick, ocxoNs := c.ocxoNs } }

/-- What a row between two commits does as of the coming commit, whose number and edge time it sees: an event it raises carries that
commit's tick (Table 6.8); the commit gives it the device time and the time state of its own edge (log entry 1). -/
def State.atNext (s : State) (f : State → State) : State := (f s.coming).backTo s.clk

/-- Gives the events raised for the current commit its device time and time state (Table 6.8). -/
def FnState.stamp (x : FnState) (c : Clock) : FnState :=
  let f (e : Event) : Event := if e.tick == c.tick then { e with devTime := c.devTime, tstate := c.stateByte } else e
  { x with eventHeld := x.eventHeld.map f }

/-- The sealed functions. -/
def State.sealedFns (s : State) : List Fn := allFns.filter (fun f => (s.fnSt f).sealed)

/-- The VFs of the tenants mapped to a partition. -/
def State.fnsOfPart (s : State) (p : Nat) : List Fn :=
  (allTenants.filter (fun t => (s.tenantSt t).partition == p)).map fnOf

/-! ### Windows (05:R183-R185) -/

def State.window (s : State) (t : Tenant) (w : Fin 8) : Window := s.host.windows.get ⟨8 * t.val + w.val, by omega⟩

def State.windowsOf (s : State) (t : Tenant) : List Window := (List.finRange 8).map (s.window t)

/-- R183, R184: the bus address of `n` bytes at tenant address `a`, if they lie wholly inside one enabled window that
permits the direction. The PF's addresses are bus addresses. -/
def State.translate (s : State) (f : Fn) (a n : Nat) (writing : Bool) : Option Nat :=
  match tenantOf f with
  | none => some a
  | some t =>
    ((s.windowsOf t).find? (fun w => w.size != 0 && w.taBase ≤ a && a + n ≤ w.taBase + w.size &&
        (if writing then w.write else w.read))).map (fun w => w.hostBase + (a - w.taBase))

/-- R184: sets ADDRESS_FAULT and raises its event. -/
def State.addressFault (s : State) (f : Fn) (slot a : Nat) (writing : Bool) : State :=
  (s.modFn f (fun x => { x with addressFault := true })).raiseSlot f 0x0005 slot (le 8 a ++ le 1 (boolNat writing))

/-! ### Queues (06_rings_commands.md) -/

def Queue.entries (q : Queue) : Nat := 2 ^ q.log2

/-- Rings host software produces (Table 6.1). -/
def Queue.hostProduced (q : Queue) : Bool := q.qtype == .ingest || q.qtype == .command

/-- R209: free entries of a module-produced ring. -/
def Queue.room (q : Queue) : Nat := q.entries - 1 - (q.prod - q.cons)

/-- PHASE of the entry at an absolute position (R211). -/
def Queue.phaseAt (q : Queue) (pos : Nat) : Bool := (pos / q.entries) % 2 == 0

def State.queue? (s : State) (f : Fn) (slot : Nat) : Option Queue :=
  s.host.queues.find? (fun q => q.fn == f && q.slot == slot)

/-- The queue of an ID (R201). -/
def State.queueId? (s : State) (id : Nat) : Option Queue := s.host.queues.find? (fun q => q.id == id)

def State.modQueueId (s : State) (id : Nat) (g : Queue → Queue) : State :=
  { s with host := { s.host with queues := updWhere (fun q => q.id == id) g s.host.queues } }

def State.modQueue (s : State) (f : Fn) (slot : Nat) (g : Queue → Queue) : State :=
  { s with host := { s.host with queues := updWhere (fun q => q.fn == f && q.slot == slot) g s.host.queues } }

/-- R202: a function's queue quota. -/
def State.quotaOf (s : State) (f : Fn) : Nat :=
  match tenantOf f with
  | some t => (s.tenantSt t).quota
  | none => 2048

/-- MSI-X vectors of a function (Table 5.6). -/
def vectorsOf (f : Fn) : Nat := if isPf f then 256 else 64

/-- The issue step owes a function one message on a vector (05:R172, 06:R216). -/
def State.oweMsix (s : State) (f : Fn) (v : Option Nat) : State :=
  match v with
  | some v => if s.host.owedMsix.contains (f, v) then s
              else { s with host := { s.host with owedMsix := s.host.owedMsix ++ [(f, v)] } }
  | none => s

/-! ### Completions (06:R219, R226, R227) -/

/-- The STATUS codes of Table 6.9. -/
def statusCode : Status → Nat
  | .success => 0x00
  | .invalidOpcode => 0x01
  | .malformed => 0x02
  | .invalidField => 0x03
  | .notPermitted => 0x04
  | .notFound => 0x05
  | .invalidState => 0x06
  | .quotaExceeded => 0x07
  | .noResources => 0x08
  | .addressFault => 0x09
  | .queueBusy => 0x0A
  | .partitionBusy => 0x0B
  | .unitUnavailable => 0x0C
  | .admissionRefused => 0x0D
  | .modelBusy => 0x0E
  | .modelRejected => 0x0F
  | .claspOverflow => 0x10
  | .noReference => 0x11
  | .superseded => 0x12
  | .signatureInvalid => 0x13

def okWith (result : List Byte) : Answer := { status := .success, offset := 0xFFFF, result := result }

def ok : Answer := okWith []

def failWith (st : Status) : Answer := { status := st, offset := 0xFFFF, result := [] }

/-- R227: a status that names the faulty field's byte offset. -/
def failAt (st : Status) (off : Nat) : Answer := { status := st, offset := off, result := [] }

def State.claspOf (s : State) (id : Nat) : Option Clasp := s.host.clasps.find? (fun c => c.id == id)

def State.modClasp (s : State) (id : Nat) (g : Clasp → Clasp) : State :=
  { s with host := { s.host with clasps := updWhere (fun c => c.id == id) g s.host.clasps } }

/-- R235: raises a clasp's value; a clasp never falls. -/
def Clasp.raiseTo (c : Clasp) (v : Nat) : Clasp :=
  if c.value < v then { c with value := v, changed := true } else c

/-- R226: SIGNAL advances DONE_CLASP by 1 in the completing commit, whatever the status. -/
def State.signalDone (s : State) (h : CmdHead) : State :=
  if h.flags.getLsbD 1 then
    s.modClasp (h.doneClasp.toNat % 8192) (fun c =>
      if c.fn == h.fn && c.value + 1 < 2 ^ 64 then c.raiseTo (c.value + 1) else c)
  else s

/-- R207: the consumer index of a command ring moves past every completed command at its head. -/
def advanceDone : Nat → Nat → List Nat → Nat × List Nat
  | 0, c, done => (c, done)
  | fuel + 1, c, done => if done.contains c then advanceDone fuel (c + 1) (done.filter (· != c)) else (c, done)

def Queue.complete (q : Queue) (pos : Nat) : Queue :=
  let r := advanceDone (q.donePos.length + 1) q.cons (pos :: q.donePos)
  { q with cons := r.1, donePos := r.2 }

/-- Table epoch a completion carries: the tenant's, 0 for the PF (Table 6.7). -/
def State.completionEpoch (s : State) (f : Fn) : Nat :=
  match tenantOf f with
  | some t => (s.tenantSt t).tableEpoch % 2 ^ 32
  | none => 0

/-- The command ring a command came from. -/
def State.sourceRing (s : State) (h : CmdHead) (pos : Option RingPos) : Option Queue :=
  match pos with
  | some p => s.queueId? p.queue
  | none => s.queue? h.fn h.slot.toNat

/-- R226: the completion ring paired with a command's ring: the one that holds its slot, or for a command that came as a step of its own
the one its ring names. -/
def State.answerRing (s : State) (h : CmdHead) (pos : Option RingPos) : Option Nat :=
  match pos with
  | some p => some p.done
  | none => (((s.queue? h.fn h.slot.toNat).bind (·.paired)).bind (s.queue? h.fn)).map (·.id)

/-- A command's completion is formed: its ring is consumed up to it (R207), and the slot reserved for the completion is taken (R222). -/
def State.consume (s : State) (p : RingPos) : State :=
  (s.modQueueId p.queue (fun q => q.complete p.pos)).modQueueId p.done (fun q => { q with reserved := q.reserved - 1 })

/-- The completion of a command, but for what the commit adds to it (Table 6.7). -/
def State.completionBody (s : State) (h : CmdHead) (opcode : Byte) (pos : Option RingPos) (a : Answer) : Completion :=
  { opcode := opcode, commandId := h.commandId, status := statusCode a.status, sqSlot := h.slot,
    sqHead := match s.sourceRing h pos with
      | some q => q.cons % q.entries
      | none => 0
    fieldOffset := a.offset, tableEpoch := 0, tick := s.clk.tick, result := fit 32 a.result }

/-- R71, R226: forms the one completion of a command, in the commit of its effect, and advances DONE_CLASP. `pos` says where the command
stands when it came through its ring. -/
def State.complete (s : State) (h : CmdHead) (opcode : Byte) (pos : Option RingPos) (a : Answer) : State :=
  let s := match pos with
    | some p => s.consume p
    | none => s
  let body := s.completionBody h opcode pos a
  let s := s.signalDone h
  match s.answerRing h pos with
  | some ring => s.withHost { s.host with
      completions := s.host.completions ++ [{ fn := h.fn, ring := ring, body := body, clasp := a.clasp }] }
  | none => s

/-- R225: a Work command that has begun completes in the commit of the current tick number. -/
def State.finishNow (s : State) (w : Work) (a : Answer) : State :=
  (s.withHost { s.host with works := s.host.works.erase w }).complete w.head w.opcode w.pos a

/-- R225: the work of a Work command ends: the coming commit completes it. -/
def State.finishWork (s : State) (w : Work) (a : Answer) : State :=
  s.withHost { s.host with works := s.host.works.erase w, ending := s.host.ending ++ [(w, a)] }

/-- R207, R225, R235: the commands whose work has ended complete. -/
def State.endWorks (s : State) : State :=
  let es := s.host.ending
  es.foldl (fun s e => s.complete e.1.head e.1.opcode e.1.pos e.2) (s.withHost { s.host with ending := [] })

/-- The Work entry of a kind. -/
def State.workOf? (s : State) (k : WorkKind) : Option Work := s.host.works.find? (fun w => w.kind == k)

/-! ### Spare columns (R320, R353, R588) -/

/-- R320: a spare column that remains: neither used nor found faulty. -/
def spareLeft (mapped : List (Nat × Nat)) (c : Nat) : Bool :=
  decide (128 ≤ c) && decide (c < 132) && !mapped.any (fun m => m.1 == c || m.2 == c)

/-- The spare for one more column: the one asked for, else the lowest that remains (notes/assumptions/170.md). -/
def spareFor (mapped : List (Nat × Nat)) (column wanted : Nat) : Option Nat :=
  ([wanted, 128, 129, 130, 131].filter (spareLeft ((column, column) :: mapped))).head?

/-! ### Streams, models -/

def State.stream? (s : State) (handle : Nat) : Option Stream := s.work.streams.find? (fun x => x.handle == handle)

def State.modStream (s : State) (handle : Nat) (g : Stream → Stream) : State :=
  { s with work := { s.work with streams := updWhere (fun x => x.handle == handle) g s.work.streams } }

/-- A stream a function owns. -/
def State.ownStream? (s : State) (f : Fn) (handle : Nat) : Option Stream :=
  s.work.streams.find? (fun x => x.handle == handle && x.fn == f)

def State.model? (s : State) (f : Fn) (id : Nat) : Option Model :=
  s.work.models.find? (fun m => m.fn == f && m.id == id)

/-- A model whose MODEL_LOAD completed with SUCCESS. -/
def State.image? (s : State) (f : Fn) (id : Nat) : Option ModelImage := (s.model? f id).bind (·.image)

def State.modModel (s : State) (f : Fn) (id : Nat) (g : Model → Model) : State :=
  { s with work := { s.work with models := updWhere (fun m => m.fn == f && m.id == id) g s.work.models } }

/-- The functions that receive records of a stream: its owner and subscribers. -/
def Stream.audience (x : Stream) : List Fn :=
  x.fn :: (x.subscribers.filterMap (fun t => if h : t < 16 then some (fnOf ⟨t, h⟩) else none))

/-- Marks a tenant's tables as changed at this commit, so that its epoch advances once (02:R72). -/
def State.touchEpoch (s : State) (f : Fn) : State :=
  match tenantOf f with
  | some t => s.modTenant t (fun x => { x with epochTouched := true })
  | none => s

/-- One free value: the opaque source at the draw counter, which advances (notes/assumptions/8.md). -/
def State.draw (s : State) : Nat × State :=
  (Config.free s.safety.draws, { s with safety := { s.safety with draws := s.safety.draws + 1 } })

end Sys2Proof.Machine
end

