-- ==== Sys2Proof/Machine/Hallmark.lean ====
section
/-! DEFINITION. The Hallmark table (04_hallmark.md): the entries of each function's view, the bytes of a view, and the
change of the views at a commit. -/

namespace Sys2Proof.Machine

/-! ### Entry bodies (R132-R145) -/

/-- R132, Table 5.3, Table 4.4: BLOCK_ID, BAR, offset and size of the register blocks of a function. -/
def hmBlocks (pf : Bool) : List (Nat × Nat × Nat × Nat) :=
  [(1, 0, 0x4000, 0x1000), (2, 2, 0, 0x4000), (3, 0, 0x8000, if pf then 0x1000 else 0x400),
   (4, 0, 0x9000, if pf then 32 else 8)] ++ if pf then [(5, 0, 0x6000, 0x2000)] else []

/-- R132; the spec gives BLOCK_VERSION no value: 1 (log entry 162). -/
def hmRegisterBlocks (pf : Bool) : List HmEntry :=
  (hmBlocks pf).zipIdx.map (fun (b, i) =>
    { type := 1, inst := i, body := le 1 b.1 ++ le 1 b.2.1 ++ le 2 1 ++ le 4 b.2.2.1 ++ le 4 b.2.2.2 ++ le 4 0 })

/-- R133: the six queue types of Table 6.1, at the printed values whatever is retired (log entry 162). -/
def hmRingFormats : List HmEntry :=
  (List.range 6).map (fun i =>
    { type := 2, inst := i, body := le 1 (i + 1) ++ le 1 12 ++ le 2 64 ++ le 4 64 ++ le 4 65536 ++ le 4 0 })

/-- R134 with Table 11.5; the spec gives FORMAT_VERSION no value: 1 (log entry 162). -/
def hmRecordFormats : List HmEntry :=
  ([(1, 64, 32, 1152), (2, 64, 32, 1), (3, 64, 0, 0), (4, 64, 0, 0), (5, 64, 0, 0), (6, 32, 0, 0)] :
      List (Nat × Nat × Nat × Nat)).zipIdx.map (fun (r, i) =>
    { type := 3, inst := i,
      body := le 1 r.1 ++ le 1 1 ++ le 2 r.2.1 ++ le 2 r.2.2.1 ++ le 2 r.2.2.2 ++ le 8 0 })

/-- The unit kinds of Table 4.5 in KIND order. -/
def hmKinds : List UnitKind :=
  [.facetTile, .decodeEngine, .visionEngine, .motionEngine, .postEngine, .dramChannel, .controlCluster, .poolNode,
   .chainLink, .row]

/-- A bitmap of the first `n` units that satisfy `p`. -/
def bitmap (n : Nat) (p : Nat → Bool) : Nat := sumOf ((List.range n).map (fun i => if p i then 2 ^ i else 0))

/-- Number of bits set. -/
def popCount (n v : Nat) : Nat := ((List.range n).filter v.testBit).length

/-- R135, R136, R146: AVAILABLE and IN_VIEW of a kind. `rows` are the rows the view covers, none for the PF view. AVAILABLE counts every
unit in every view, as R136 words it (log entry 163). -/
def hmInventory (retired : List UnitRef) (rows : Option (List Nat)) : List HmEntry :=
  hmKinds.zipIdx.map (fun (k, i) =>
    let n := builtOf k
    let avail := bitmap n (fun u => availableIn retired ⟨k, u⟩)
    let inView := bitmap n (fun u => match rows with
      | none => true
      | some rs => match rowOfUnit ⟨k, u⟩ with
        | some r => rs.contains r
        | none => false)
    { type := 4, inst := i,
      body := le 1 (kindCode k) ++ le 1 n ++ le 1 (popCount n (avail &&& inView)) ++ le 5 0 ++ le 8 avail ++ le 8 inView })

/-- R138: limit 0x01. -/
def limitStreams (retired : List UnitRef) (rows : List Nat) : Nat :=
  32 * (rows.filter (fun r => !rowRetiredIn retired r)).length

/-- R138: limit 0x02, stream units. -/
def limitUnits (retired : List UnitRef) (rows : List Nat) : Nat :=
  256 * ((List.range 24).filter (fun u => rows.contains (u / 3) && availableIn retired ⟨.decodeEngine, u⟩)).length / 24

/-- R138: limit 0x16, MiB. -/
def limitDram (retired : List UnitRef) (rows : List Nat) : Nat :=
  sumOf (rows.map (fun r =>
    if rowRetiredIn retired r then 0
    else 3584 * ([2 * r, 2 * r + 1].filter (fun c => !listedRetired retired .dramChannel c)).length))

/-- R137, R138, Table 4.6, over the rows a view covers. -/
def hmLimits (retired : List UnitRef) (rows : List Nat) : List (Nat × Nat) :=
  [(0x01, limitStreams retired rows), (0x02, limitUnits retired rows), (0x03, 16384), (0x04, 1024), (0x05, 2048),
   (0x06, 8192), (0x07, 512), (0x08, 8192 * rows.length), (0x09, 16384), (0x0A, 1024), (0x0B, 512 * rows.length),
   (0x0C, 16), (0x0D, 16), (0x0E, 8), (0x0F, 4), (0x10, 3840), (0x11, 2160), (0x12, 320), (0x13, 240), (0x14, 81),
   (0x15, 16), (0x16, limitDram retired rows)]

def hmLimitEntry (retired : List UnitRef) (rows : List Nat) : HmEntry :=
  { type := 5, inst := 0, body := (hmLimits retired rows).flatMap (fun l => le 2 l.1 ++ le 2 0 ++ le 4 l.2) }

/-- R139, Table 4.7. -/
def hmCodec : HmEntry :=
  { type := 6, inst := 0,
    body := ([[1, 66, 52, 1, 8, 8], [1, 77, 52, 0, 8, 8], [1, 100, 52, 0, 8, 8], [2, 1, 153, 0, 8, 8],
              [2, 2, 153, 0, 10, 8]] : List (List Nat)).flatMap (fun r => r.flatMap (le 1) ++ le 2 0) }

/-- R140, Table 4.8. -/
def hmNumeric : HmEntry :=
  { type := 7, inst := 0,
    body := ([(1, 3, 64), (2, 1, 128), (3, 4, 0), (4, 2, 16)] : List (Nat × Nat × Nat)).flatMap
      (fun r => le 1 r.1 ++ le 1 r.2.1 ++ le 2 0 ++ le 4 r.2.2) }

/-- R141, Table 4.9. -/
def hmTickSafety : HmEntry :=
  { type := 8, inst := 0,
    body := le 4 1666667 ++ le 4 1665000 ++ le 4 1668333 ++ le 4 8000 ++ le 4 2000 ++ le 2 5 ++ le 2 96 ++ le 2 200 ++
      le 2 2 ++ le 2 3 ++ le 2 30 ++ le 2 600 ++ le 2 300 ++ le 2 200 ++ le 2 50 }

/-- Table 19.2: SLOT_STATE codes. -/
def slotCode : SlotState → Nat
  | .empty => 0
  | .downloading => 1
  | .downloaded => 2
  | .verified => 3
  | .pending => 4
  | .trial => 5
  | .confirmed => 6
  | .standby => 7
  | .rejected => 8

/-- R142. -/
def hmFirmware (inst component slot state trials : Nat) (v : Nat × Nat × Nat × Nat) : HmEntry :=
  { type := 9, inst := inst,
    body := le 1 component ++ le 1 slot ++ le 1 state ++ le 1 trials ++ le 2 v.1 ++ le 2 v.2.1 ++ le 2 v.2.2.1 ++ le 2 0 ++
      le 4 v.2.2.2 }

/-- The boot ROM's entry: it runs and cannot change (R630, R632). -/
def hmBootRom : HmEntry := hmFirmware 0 1 0 6 0 (Config.firmwareVersion 1 0)

/-- The version of a slot's image: from its header (Table 19.1), or free where the model holds no header. -/
def FwSlot.version (x : FwSlot) (component slot : Nat) : Nat × Nat × Nat × Nat :=
  if x.image.isEmpty || x.state == .downloading || x.state == .empty then Config.firmwareVersion component slot
  else (rd x.image 8 2, rd x.image 10 2, rd x.image 12 2, rd x.image 16 4)

def hmSlot (inst component slot : Nat) (x : FwSlot) : HmEntry :=
  hmFirmware inst component slot (slotCode x.state) x.trials (x.version component slot)

def hmFirmwares (n : Nor) : List HmEntry :=
  [hmBootRom, hmSlot 1 2 1 n.die.slotA, hmSlot 2 2 2 n.die.slotB, hmSlot 3 3 1 n.mmc.slotA, hmSlot 4 3 2 n.mmc.slotB]

/-- Table 18.7: the facet clock of a throttle step, MHz. -/
def facetMHz (step : Nat) : Nat := 1250 - 125 * step

/-- R143. -/
def State.hmStatus (s : State) : HmEntry :=
  { type := 10, inst := 0,
    body := le 1 s.clk.stateByte.toNat ++ le 1 s.safety.throttle ++ le 2 (facetMHz s.safety.throttle) ++
      le 2 s.nor.ledger0.length ++ le 1 (partCount s.work.startMask) ++ le 1 0 ++ le 4 s.work.routeEpoch ++ le 4 0 }

/-- R144. -/
def State.hmTenant (s : State) (inst : Nat) (t : Tenant) : HmEntry :=
  let x := s.tenantSt t
  { type := 11, inst := inst,
    body := le 1 t.val ++ le 1 x.partition ++ le 1 (boolNat x.configured) ++ le 1 0 ++ le 2 x.quota ++
      le 2 (x.retireClasp.getD 0xFFFF) ++ le 2 (t.val * 0x1000) ++ le 6 0 }

/-- R145. -/
def State.hmPartition (s : State) (inst p : Nat) : HmEntry :=
  let rows := s.rowsOf p
  { type := 12, inst := inst,
    body := le 1 p ++ le 1 (partFirstRow s.work.startMask p) ++ le 1 (rows.getLastD 0) ++ le 1 (s.leadNode p) ++
      le 1 (s.usableRows p).length ++ le 1 0 ++
      le 2 (bitmap 16 (fun t => allTenants.any (fun u => u.val == t && (s.tenantSt u).partition == p))) ++ le 8 0 }

/-! ### Views (R131, R146, R154, R155) -/

/-- Every entry of a function's view once the module has been READY. -/
def State.hmFull (s : State) (f : Fn) : List HmEntry :=
  let rows := match tenantOf f with
    | some t => s.rowsOf (s.tenantSt t).partition
    | none => List.range 8
  hmRegisterBlocks (isPf f) ++ hmRingFormats ++ hmRecordFormats ++
    hmInventory s.safety.retired (if isPf f then none else some rows) ++
    [hmLimitEntry s.safety.retired rows, hmCodec, hmNumeric, hmTickSafety] ++ hmFirmwares s.nor ++ [s.hmStatus] ++
    (match tenantOf f with
     | some t => [s.hmTenant 0 t, s.hmPartition 0 (s.tenantSt t).partition]
     | none => allTenants.map (fun t => s.hmTenant t.val t) ++
        (List.range (partCount s.work.startMask)).map (fun p => s.hmPartition p p))

/-- R154: what a view holds before READY. -/
def State.hmEarly (s : State) : List HmEntry := [hmBootRom, s.hmStatus]

/-- Table 4.1, STATE. -/
def moduleStateCode : ModuleState → Nat
  | .starting => 1
  | .ready => 2
  | .failed => 3

/-- Table 4.1, FLAGS. -/
def State.hmFlags (s : State) (f : Fn) : Byte :=
  BitVec.ofNat 8 (boolNat (!s.safety.retired.isEmpty) + 2 * boolNat (decide (0 < s.safety.throttle)) +
    4 * boolNat s.safety.stale + 8 * boolNat (s.fnSt f).sealed)

/-- A view that has held its full entries keeps them (R131, R155). -/
def HmView.isFull (v : HmView) : Bool := v.entries.any (fun e => e.type == 5)

/-- The content of a view as the state stands, with the generation fields of the view it replaces. -/
def State.hmContent (s : State) (f : Fn) (old : HmView) : HmView :=
  { old with
    flags := s.hmFlags f, stateCode := moduleStateCode s.safety.state,
    entries := if s.safety.state == .ready || old.isFull then s.hmFull f else s.hmEarly }

/-- CHANGE_MASK (Table 4.1): a bit per entry type that changed, bit 0 for the header's flags, state and length. -/
def hmChangeMask (old new : HmView) : Nat :=
  boolNat (old.flags != new.flags || old.stateCode != new.stateCode || old.entries.length != new.entries.length ||
      sumOf (old.entries.map (·.body.length)) != sumOf (new.entries.map (·.body.length))) +
    sumOf ((List.range 12).map (fun k =>
      if old.entries.filter (fun e => e.type == k + 1) != new.entries.filter (fun e => e.type == k + 1)
      then 2 ^ (k + 1) else 0))

/-- R148, R149: a view after a commit: its generation advances by 2 exactly when a byte of it changes. -/
def HmView.advance (old new : HmView) (tick : Nat) : HmView :=
  if old.flags == new.flags && old.stateCode == new.stateCode && old.entries == new.entries then old
  else { new with generation := (old.generation + 2) % 2 ^ 32, genTick := tick, changeMask := hmChangeMask old new }

/-- R151, R176: a function has an event ring once it is sealed with an EVENT_RING_BASE that is not 0. -/
def State.hasEventRing (s : State) (f : Fn) : Bool := (s.fnSt f).sealed && (s.fnSt f).eventRingBase != 0

/-- R148, R151: the view of one function at a commit, with its HALLMARK_CHANGED event. -/
def State.hallmarkOne (s : State) (f : Fn) : State :=
  let old := s.host.views.get f
  let new := old.advance (s.hmContent f old) s.clk.tick
  if new == old then s
  else
    let s := s.withHost { s.host with views := s.host.views.set f.val new }
    if s.hasEventRing f && s.safety.state != .failed then s.raise f 0x0002 (le 4 new.generation ++ le 4 new.changeMask) else s

/-- R68, R148: the views of all functions follow the state at a commit, and only there. -/
def State.hallmarkCommit (s : State) : State := allFns.foldl State.hallmarkOne s

/-- R154: the views as they first appear; the spec gives their first GENERATION and CHANGE_MASK no value: 0 (log entry 164). -/
def State.hallmarkStart (s : State) : State :=
  allFns.foldl (fun s f => s.withHost { s.host with
    views := s.host.views.set f.val { s.hmContent f HmView.reset with generation := 0, genTick := s.clk.tick } }) s

/-! ### The bytes host software reads (R126, R128, R150) -/

def HmEntry.bytes (e : HmEntry) : List Byte :=
  le 2 e.type ++ le 2 (8 + e.body.length) ++ le 1 1 ++ le 1 e.inst ++ le 2 0 ++ e.body

/-- The header with a given CHECKSUM. -/
def HmView.header (v : HmView) (view length sum : Nat) : List Byte :=
  le 4 0x4B4D4C48 ++ le 1 1 ++ le 1 0 ++ le 2 64 ++ le 4 length ++ le 2 v.entries.length ++ le 1 view ++
    le 1 v.flags.toNat ++ le 4 v.generation ++ le 4 sum ++ le 8 v.genTick ++ le 1 v.stateCode ++ le 3 0 ++
    le 4 v.changeMask ++ le 24 0

/-- A view as bytes, with its CHECKSUM correct (R150). -/
def HmView.bytes (v : HmView) (view : Nat) : List Byte :=
  let body := v.entries.flatMap HmEntry.bytes
  let len := 64 + body.length
  v.header view len (crc32c (v.header view len 0 ++ body)) ++ body

/-- VIEW of Table 4.1. -/
def viewCode (f : Fn) : Nat := if isPf f then 0xFF else f.val

end Sys2Proof.Machine
end

