-- ==== Sys2Proof/Machine/Operands.lean ====
section
/-! DEFINITION. The operand forms: the doorbell value (Table 6.3), the ingest descriptor (Table 6.5), the command
descriptor (Tables 6.6 and 6.10) with the checks of R227 and R233, and the tables of TABLE_WRITE (R659). -/

namespace Sys2Proof.Machine

/-! ### Doorbell value (Table 6.3) -/

def dbIndex (v : U64) : Nat := bitsOf v.toNat 15 0
def dbCheck (v : U64) : Nat := bitsOf v.toNat 29 16
def dbWake (v : U64) : Bool := bitOf v.toNat 31
/-- Bit 30 and bits [63:32] are reserved. -/
def dbReserved (v : U64) : Bool := bitOf v.toNat 30 || bitsOf v.toNat 63 32 != 0

/-! ### Ingest descriptor (Table 6.5) -/

/-- The first check that fails, by its byte offset, among checks in ascending offset. -/
def firstFault (checks : List (Nat × Bool)) : Option Nat := (checks.find? (fun c => !c.2)).map (·.1)

/-- Reserved bytes, each a check of its own. -/
def zeroBytes (bs : List Byte) (from_ n : Nat) : List (Nat × Bool) := (List.range n).map (fun i => (from_ + i, rd bs (from_ + i) 1 == 0))

/-- R217, R230: an ingest descriptor of a ring bound to the stream `handle`; `reachable` says whether its chunk lies in
one read window (R184). A field whose value is at fault counts from its first byte. -/
def parseIngest (bs : List Byte) (pos handle : Nat) (reachable : Nat → Nat → Bool) : IngestDesc :=
  { pos := pos, flags := BitVec.ofNat 8 (rd bs 0 1), stream := BitVec.ofNat 16 (rd bs 2 2), length := rd bs 4 4,
    address := BitVec.ofNat 64 (rd bs 8 8), capture := rd bs 0x10 8, uncertainty := rd bs 0x18 2,
    hostTag := BitVec.ofNat 32 (rd bs 0x1C 4),
    fault := firstFault
      [(0, decide (rd bs 0 1 < 16)), (1, zeroAt bs 1 1), (2, rd bs 2 2 == handle),
       (4, decide (1 ≤ rd bs 4 4) && decide (rd bs 4 4 ≤ 4194304)),
       (8, reachable (rd bs 8 8) (rd bs 4 4))] <|> firstFault (zeroBytes bs 0x1A 2 ++ zeroBytes bs 0x20 32) }

/-- FLAGS of Table 6.5. -/
def IngestDesc.first (d : IngestDesc) : Bool := d.flags.getLsbD 0
def IngestDesc.last (d : IngestDesc) : Bool := d.flags.getLsbD 1
def IngestDesc.discontinuity (d : IngestDesc) : Bool := d.flags.getLsbD 2
def IngestDesc.captureValid (d : IngestDesc) : Bool := d.flags.getLsbD 3

/-! ### Command descriptor: opcodes, reserved fields, ranges (R227, R233, Table 6.10) -/

def opcodeOf : RingCmd → Byte
  | .tenantConfigure _ => 0x01
  | .partitionPlan _ => 0x02
  | .queueCreate _ => 0x10
  | .queueDestroy _ => 0x11
  | .modelLoad _ => 0x20
  | .modelUnload _ => 0x21
  | .streamOpen _ => 0x30
  | .streamClose _ => 0x31
  | .streamModify _ => 0x32
  | .streamMigrate _ => 0x33
  | .tableWrite _ => 0x40
  | .claspCreate _ => 0x50
  | .claspSignal _ => 0x51
  | .claspDestroy _ => 0x52
  | .calibrationPolicy _ => 0x60
  | .sampleStart _ => 0x70
  | .sampleStop _ => 0x71
  | .timeSet _ => 0x80
  | .fwDownloadChunk _ => 0x90
  | .fwVerify _ => 0x91
  | .fwActivate _ => 0x92
  | .fwConfirm _ => 0x93
  | .auditRead _ => 0xA0
  | .nop => 0xF0

/-- The commands Table 6.10 marks "PF only". -/
def pfOnly : RingCmd → Bool
  | .tenantConfigure _ => true
  | .partitionPlan _ => true
  | .timeSet _ => true
  | .fwDownloadChunk _ => true
  | .fwVerify _ => true
  | .fwActivate _ => true
  | .fwConfirm _ => true
  | .auditRead _ => true
  | .queueCreate _ => false
  | .queueDestroy _ => false
  | .modelLoad _ => false
  | .modelUnload _ => false
  | .streamOpen _ => false
  | .streamClose _ => false
  | .streamModify _ => false
  | .streamMigrate _ => false
  | .tableWrite _ => false
  | .claspCreate _ => false
  | .claspSignal _ => false
  | .claspDestroy _ => false
  | .calibrationPolicy _ => false
  | .sampleStart _ => false
  | .sampleStop _ => false
  | .nop => false

/-- The parameter bytes Table 6.10 lists, as (offset, size) in ascending order. -/
def paramFields (opcode : Nat) : Option (List (Nat × Nat)) :=
  match opcode with
  | 0x01 => some [(0x08, 4)]
  | 0x02 => some [(0x08, 1)]
  | 0x10 => some [(0x08, 24)]
  | 0x11 => some [(0x08, 2)]
  | 0x20 => some [(0x08, 1), (0x0C, 12)]
  | 0x21 => some [(0x08, 1)]
  | 0x30 => some [(0x08, 29)]
  | 0x31 => some [(0x08, 2)]
  | 0x32 => some [(0x08, 6), (0x10, 4)]
  | 0x33 => some [(0x08, 4)]
  | 0x40 => some [(0x08, 3), (0x0C, 12)]
  | 0x50 => some [(0x08, 26)]
  | 0x51 => some [(0x08, 3), (0x0C, 2), (0x10, 16)]
  | 0x52 => some [(0x08, 2)]
  | 0x60 => some [(0x08, 1), (0x0C, 9), (0x16, 6)]
  | 0x70 => some [(0x08, 3), (0x10, 36)]
  | 0x71 => some [(0x08, 2)]
  | 0x80 => some [(0x08, 8)]
  | 0x90 => some [(0x08, 1), (0x0C, 16)]
  | 0x91 => some [(0x08, 1)]
  | 0x92 => some [(0x08, 1)]
  | 0x93 => some [(0x08, 1)]
  | 0xA0 => some [(0x08, 1), (0x0C, 12)]
  | 0xF0 => some []
  | _ => none

/-- The first byte of a descriptor that is reserved, wholly or in the bits given, and not 0 (Tables 6.6, 6.10, R233). -/
def reservedFault (bs : List Byte) (opcode : Nat) (fields : List (Nat × Nat)) : Option Nat :=
  (List.range 64).find? (fun o =>
    let b := rd bs o 1
    if o == 0 then false
    else if o == 1 then decide (4 ≤ b)
    else if o == 5 then decide (0x20 ≤ b)
    else if o < 6 then false
    else if o < 8 then b != 0
    else if fields.any (fun f => decide (f.1 ≤ o) && decide (o < f.1 + f.2)) then
      (opcode == 0x30 && o == 0x0F && decide (4 ≤ b)) || (opcode == 0x32 && o == 0x0A && decide (16 ≤ b))
    else b != 0)

/-- The parameters of a descriptor, read at the offsets of Table 6.10. TABLE_WRITE and FW_DOWNLOAD_CHUNK get `source`, the
data read for them once (R229). -/
def parseParams (bs : List Byte) (opcode : Nat) (source : List Byte) : Option RingCmd :=
  let u8 (o : Nat) : Byte := BitVec.ofNat 8 (rd bs o 1)
  let u16 (o : Nat) : U16 := BitVec.ofNat 16 (rd bs o 2)
  let u32 (o : Nat) : U32 := BitVec.ofNat 32 (rd bs o 4)
  let u64 (o : Nat) : U64 := BitVec.ofNat 64 (rd bs o 8)
  match opcode with
  | 0x01 => some (.tenantConfigure { tenant := u8 8, partition := u8 9, queueQuota := u16 0x0A })
  | 0x02 => some (.partitionPlan { startMask := u8 8 })
  | 0x10 => some (.queueCreate { slot := u16 8, queueType := u8 0x0A, log2Entries := u8 0x0B, msixVector := u16 0x0C,
                                 pairedSlot := u16 0x0E, base := u64 0x10, indexAddr := u64 0x18 })
  | 0x11 => some (.queueDestroy { slot := u16 8 })
  | 0x20 => some (.modelLoad { model := u8 8, bytes := u32 0x0C, package := u64 0x10 })
  | 0x21 => some (.modelUnload { model := u8 8 })
  | 0x30 => some (.streamOpen { ingestSlot := u16 8, metadataSlot := u16 0x0A, model := u8 0x0C, cls := u8 0x0D,
                                codec := u8 0x0E, flags := u8 0x0F, width := u16 0x10, height := u16 0x12,
                                frameRate := u32 0x14, timeCodeOffset := u64 0x18, baseUncertainty := u32 0x20,
                                motionMode := u8 0x24 })
  | 0x31 => some (.streamClose { handle := u16 8 })
  | 0x32 => some (.streamModify { handle := u16 8, change := u8 0x0A, cls := u8 0x0B, model := u8 0x0C,
                                  motionMode := u8 0x0D, frameRate := u32 0x10 })
  | 0x33 => some (.streamMigrate { handle := u16 8, targetModule := u8 0x0A, decodeModule := u8 0x0B })
  | 0x40 => some (.tableWrite { handle := u16 8, table := u8 0x0A, bytes := u32 0x0C, source := u64 0x10, data := source })
  | 0x50 => some (.claspCreate { initial := u64 8, mirrorAddr := u64 0x10, threshold := u64 0x18, msixVector := u16 0x20 })
  | 0x51 => some (.claspSignal { clasp := u16 8, op := u8 0x0A, msixVector := u16 0x0C, value := u64 0x10,
                                 mirrorAddr := u64 0x18 })
  | 0x52 => some (.claspDestroy { clasp := u16 8 })
  | 0x60 => some (.calibrationPolicy { model := u8 8, mode := u8 0x0C, maxStep := u8 0x0D, dMin := u8 0x0E,
                                       dMax := u8 0x0F, clipHigh := u16 0x10, clipLow := u16 0x12, headroom := u8 0x14,
                                       interval := u16 0x16, minSamples := u32 0x18 })
  | 0x70 => some (.sampleStart { sampleSlot := u16 8, order := u8 0x0A, seed := u64 0x10, dataBase := u64 0x18,
                                 stream := u16 0x20, kind := u8 0x22, format := u8 0x23, outWidth := u16 0x24,
                                 outHeight := u16 0x26, epochTicks := u32 0x28, setSize := u32 0x2C, quota := u32 0x30 })
  | 0x71 => some (.sampleStop { slot := u16 8 })
  | 0x80 => some (.timeSet { nextPpsTime := u64 8 })
  | 0x90 => some (.fwDownloadChunk { component := u8 8, offset := u32 0x0C, source := u64 0x10, bytes := u32 0x18,
                                     data := source })
  | 0x91 => some (.fwVerify { component := u8 8 })
  | 0x92 => some (.fwActivate { component := u8 8 })
  | 0x93 => some (.fwConfirm { component := u8 8 })
  | 0xA0 => some (.auditRead { audit := u8 8, bytes := u32 0x0C, dest := u64 0x10 })
  | 0xF0 => some .nop
  | _ => none

/-- A vector a queue may name: none, or one from 2 on that the function has (Table 6.10). -/
def vectorOk (f : Fn) (v : U16) : Bool := v == 0xFFFF || (decide (2 ≤ v.toNat) && decide (v.toNat < vectorsOf f))

/-- A vector a clasp may name: none, or one the function has (Table 6.10; log entry 167). -/
def claspVectorOk (f : Fn) (v : U16) : Bool := v == 0xFFFF || decide (v.toNat < vectorsOf f)

/-- SLOT_BYTES (R312). -/
def slotBytes (w h format : Nat) : Nat := roundUp (w * h * (if format = 1 then 3 else 1)) 4096

/-- The ranges Table 6.10 gives a command's fields, in ascending offset; the first that fails. `quota` is the function's queue quota. -/
def rangeFault (f : Fn) (quota : Nat) : RingCmd → Option Nat
  | .tenantConfigure p => firstFault [(0x08, decide (p.tenant.toNat < 16)),
      (0x0A, p.queueQuota == 0 || (decide (3 ≤ p.queueQuota.toNat) && decide (p.queueQuota.toNat ≤ 2048)))]
  | .partitionPlan p => firstFault [(0x08, p.startMask.getLsbD 0)]
  | .queueCreate p =>
    let ring := decide (6 ≤ p.log2Entries.toNat) && decide (p.log2Entries.toNat ≤ 16)
    firstFault
      [(0x08, decide (3 ≤ p.slot.toNat) && decide (p.slot.toNat < quota)),
      (0x0A, decide (1 ≤ p.queueType.toNat) && decide (p.queueType.toNat ≤ 6)),
       (0x0B, ring), (0x0C, vectorOk f p.msixVector), (0x0E, p.queueType == 2 || p.pairedSlot == 0xFFFF),
       (0x10, p.base.toNat % 4096 == 0),
       (0x18, p.indexAddr.toNat % 8 == 0 && !((p.queueType == 4 || p.queueType == 6) && p.indexAddr == 0))]
  | .queueDestroy p => firstFault [(0x08, decide (3 ≤ p.slot.toNat))]
  | .modelLoad _ => none
  | .modelUnload _ => none
  | .streamOpen _ => none
  | .streamClose _ => none
  | .streamModify p => firstFault
      [(0x0A, p.change != 0), (0x0B, !p.change.getLsbD 0 || decide (p.cls.toNat ≤ 2)),
       (0x0D, !p.change.getLsbD 3 || decide (p.motionMode.toNat ≤ 1)),
       (0x10, !p.change.getLsbD 2 || (decide (1000 ≤ p.frameRate.toNat) && decide (p.frameRate.toNat ≤ 60000)))]
  | .streamMigrate p => firstFault [(0x0A, decide (p.targetModule.toNat < 8)),
      (0x0B, decide (p.decodeModule.toNat < 8) || p.decodeModule == 0xFF)]
  | .tableWrite _ => none
  | .claspCreate p => firstFault [(0x10, p.mirrorAddr.toNat % 8 == 0), (0x20, claspVectorOk f p.msixVector)]
  | .claspSignal p => firstFault [(0x0A, decide (p.op.toNat ≤ 2)), (0x0C, p.op != 2 || claspVectorOk f p.msixVector),
      (0x18, p.op != 2 || p.mirrorAddr.toNat % 8 == 0)]
  | .claspDestroy _ => none
  | .calibrationPolicy p => firstFault
      [(0x0C, decide (p.mode.toNat ≤ 2)), (0x0D, decide (1 ≤ p.maxStep.toNat) && decide (p.maxStep.toNat ≤ 16)),
       (0x0E, decide (-64 ≤ toSigned 8 p.dMin.toNat) && decide (toSigned 8 p.dMin.toNat ≤ 0)),
       (0x0F, decide (0 ≤ toSigned 8 p.dMax.toNat) && decide (toSigned 8 p.dMax.toNat ≤ 64)),
       (0x10, decide (1 ≤ p.clipHigh.toNat)), (0x12, decide (p.clipLow.toNat ≤ p.clipHigh.toNat)),
       (0x14, decide (1 ≤ p.headroom.toNat)), (0x16, decide (600 ≤ p.interval.toNat)),
       (0x18, decide (1 ≤ p.minSamples.toNat))]
  | .sampleStart p =>
    let sh := p.order == 1
    firstFault
      [(0x0A, decide (p.order.toNat ≤ 1)), (0x18, p.dataBase.toNat % 4096 == 0), (0x22, decide (p.kind.toNat ≤ 1)),
       (0x23, decide (p.format.toNat ≤ 1)),
       (0x24, decide (16 ≤ p.outWidth.toNat) && decide (p.outWidth.toNat ≤ 256) && p.outWidth.toNat % 16 == 0),
       (0x26, decide (16 ≤ p.outHeight.toNat) && decide (p.outHeight.toNat ≤ 256) && p.outHeight.toNat % 16 == 0),
       (0x28, decide (600 ≤ p.epochTicks.toNat) && decide (p.epochTicks.toNat ≤ 36000)),
       (0x2C, if sh then decide (1 ≤ p.setSize.toNat) && decide (p.setSize.toNat ≤ 16777216) else p.setSize == 0),
       (0x30, if sh then decide (1 ≤ p.quota.toNat) && decide (p.quota.toNat ≤ p.setSize.toNat) &&
                decide (p.quota.toNat ≤ 2 * p.epochTicks.toNat) else p.quota == 0)]
  | .sampleStop _ => none
  | .timeSet p => firstFault [(0x08, p.nextPpsTime.toNat % 1000000000 == 0)]
  | .fwDownloadChunk p => firstFault [(0x08, p.component == 2 || p.component == 3)]
  | .fwVerify p => firstFault [(0x08, p.component == 2 || p.component == 3)]
  | .fwActivate p => firstFault [(0x08, p.component == 2 || p.component == 3)]
  | .fwConfirm p => firstFault [(0x08, p.component == 2 || p.component == 3)]
  | .auditRead p => firstFault [(0x08, decide (p.audit.toNat ≤ 4))]
  | .nop => none

/-- R227: what completes a command without effect before its state-dependent preconditions: NOT_PERMITTED names the
opcode, so it is met first; INVALID_FIELD names the first field out of range. -/
def cmdFault (f : Fn) (quota : Nat) (c : RingCmd) : Option Answer :=
  if pfOnly c && !isPf f then some (failAt .notPermitted 0)
  else (rangeFault f quota c).map (failAt .invalidField)

/-- R227: of a fault of the command and a reserved byte that is not 0, the one at the lower byte offset completes it. -/
def lowerFault (a : Option Answer) (reserved : Option Nat) : Option Answer :=
  match a, reserved with
  | some a, some r => some (if a.offset < r then a else failAt .malformed r)
  | a, none => a
  | none, some r => some (failAt .malformed r)

/-- The reserved bits of the fields a command row carries: header FLAGS and DONE_CLASP, and the parameters of R233 (Table 6.6). -/
def rowReserved (h : CmdHead) (c : RingCmd) : Option Nat :=
  firstFault [(1, decide (h.flags.toNat < 4)), (5, decide (h.doneClasp.toNat < 0x2000)),
    (0x0A, match c with
      | .streamModify p => decide (p.change.toNat < 16)
      | _ => true),
    (0x0F, match c with
      | .streamOpen p => decide (p.flags.toNat < 4)
      | _ => true)]

/-- A descriptor as read from its ring: the command with the first reserved byte that is not 0, or an unknown opcode. -/
def parseCommand (bs : List Byte) (source : List Byte) : CmdBody :=
  let op := rd bs 0 1
  match paramFields op, parseParams bs op source with
  | some fields, some c => .cmd c (reservedFault bs op fields)
  | _, _ => .unknown

/-- Table 6.6: the header of a command descriptor. -/
def parseHead (f : Fn) (slot : Nat) (bs : List Byte) : CmdHead :=
  { fn := f, slot := BitVec.ofNat 16 slot, commandId := BitVec.ofNat 16 (rd bs 2 2), flags := BitVec.ofNat 8 (rd bs 1 1),
    doneClasp := BitVec.ofNat 16 (rd bs 4 2) }

def headFence (h : CmdHead) : Bool := h.flags.getLsbD 0
def headSignal (h : CmdHead) : Bool := h.flags.getLsbD 1

/-! ### Tables (R258, R388, R390, R393-R395, R533, R659) -/

inductive TableContent where
  | binding (es : List BindEntry)
  | zones (zs : List Zone) (ls : List Line)
  | rules (rs : List RuleRow)
  | filter (f : BitVec 256)
  | format (f : RecordFormat)
  | subscribers (ts : List Nat)
  | balance (p : BalancePolicy)
  deriving DecidableEq, Repr

/-- Table 6.11: header size. -/
def tableHeader (table : Nat) : Nat := if table == 4 || table == 5 then 40 else if table == 7 then 32 else 8

/-- R659 step 3: the count fields, by table offset. -/
def countFault (table : Nat) (bs : List Byte) : Option Nat :=
  match table with
  | 1 => firstFault [(0, decide (1 ≤ rd bs 0 1) && decide (rd bs 0 1 ≤ 4))]
  | 2 => firstFault [(0, decide (rd bs 0 1 ≤ 16)), (1, decide (rd bs 1 1 ≤ 8))]
  | 3 => firstFault [(0, decide (1 ≤ rd bs 0 2) && decide (rd bs 0 2 ≤ 256))]
  | 6 => firstFault [(0, decide (rd bs 0 1 ≤ 4))]
  | _ => none

/-- Table 6.11: the size the counts give. -/
def tableSize (table : Nat) (bs : List Byte) : Nat :=
  match table with
  | 1 => 8 + 8 * rd bs 0 1
  | 2 => 8 + 72 * rd bs 0 1 + 16 * rd bs 1 1
  | 3 => 8 + 16 * rd bs 0 2
  | 6 => 8 + 8 * rd bs 0 1
  | t => tableHeader t

def zoneChecks (bs : List Byte) (o : Nat) : List (Nat × Bool) :=
  [(o, decide (3 ≤ rd bs o 1) && decide (rd bs o 1 ≤ 16)), (o + 1, decide (rd bs (o + 1) 1 ≤ 1)),
   (o + 2, zeroAt bs (o + 2) 2)]

def lineChecks (bs : List Byte) (o : Nat) : List (Nat × Bool) :=
  [(o + 8, decide (rd bs (o + 8) 1 ≤ 1)), (o + 9, zeroAt bs (o + 9) 7)]

/-- Table 11.4: the ranges of a row's fields. -/
def ruleChecks (bs : List Byte) (o : Nat) : List (Nat × Bool) :=
  let cls := rd bs (o + 8) 2
  [(o, decide (rd bs o 1 ≤ 23)), (o + 1, decide (rd bs (o + 1) 1 ≤ 7)), (o + 2, decide (rd bs (o + 2) 1 ≤ 4)),
   (o + 3, decide (rd bs (o + 3) 1 ≤ 7)), (o + 6, decide (rd bs (o + 6) 1 ≤ 1)), (o + 7, zeroAt bs (o + 7) 1),
   (o + 8, decide (cls ≤ 255) || cls == 0xFFFF), (o + 0x0C, zeroAt bs (o + 0x0C) 4)]

/-- Table 7.2: the ranges of an entry's fields: ROLE 0 or 1, and what SOURCE_HEAD and MAX_BOXES hold under that role. -/
def bindChecks (bs : List Byte) (i : Nat) : List (Nat × Bool) :=
  let o := 8 + 8 * i
  let role := rd bs (o + 1) 1
  let boxes := rd bs (o + 4) 2
  [(o + 1, decide (role ≤ 1)), (o + 2, role != 0 || rd bs (o + 2) 1 == 0), (o + 3, zeroAt bs (o + 3) 1),
   (o + 4, if role == 0 then boxes == 0 else decide (1 ≤ boxes) && decide (boxes ≤ 1024)), (o + 6, zeroAt bs (o + 6) 2)]

/-- R659 step 5: the fields and reserved bytes of a table in ascending offset. -/
def fieldFault (table : Nat) (bs : List Byte) : Option Nat :=
  match table with
  | 1 => firstFault ((1, zeroAt bs 1 7) :: (List.range (rd bs 0 1)).flatMap (bindChecks bs))
  | 2 => firstFault ((2, zeroAt bs 2 6) :: (List.range (rd bs 0 1)).flatMap (fun i => zoneChecks bs (8 + 72 * i)) ++
      (List.range (rd bs 1 1)).flatMap (fun i => lineChecks bs (8 + 72 * rd bs 0 1 + 16 * i)))
  | 3 => firstFault ((2, zeroAt bs 2 6) :: (List.range (rd bs 0 2)).flatMap (fun i => ruleChecks bs (8 + 16 * i)))
  | 4 => firstFault [(0, zeroAt bs 0 8)]
  | 5 => firstFault [(0, decide (rd bs 0 2 ≤ 1024)), (2, decide (rd bs 2 1 < 4)), (3, zeroAt bs 3 5)]
  | 6 => firstFault ((1, zeroAt bs 1 7) :: (List.range (rd bs 0 1)).flatMap (fun i =>
      [(8 + 8 * i, decide (rd bs (8 + 8 * i) 1 < 16)), (9 + 8 * i, zeroAt bs (9 + 8 * i) 7)]))
  | 7 => firstFault
      [(0, decide (rd bs 0 1 ≤ 2)), (1, rd bs 1 1 &&& 0xF9 == 0),
       (4, decide (50 ≤ rd bs 4 1) && decide (rd bs 4 1 ≤ 100)),
       (5, decide (10 ≤ rd bs 5 1) && decide (rd bs 5 1 + 10 ≤ rd bs 4 1)),
       (7, decide (1 ≤ rd bs 7 1) && decide (rd bs 7 1 ≤ 16)),
       (8, decide (600 ≤ rd bs 8 2) && decide (rd bs 8 2 ≤ 36000)), (0x0A, decide (600 ≤ rd bs 0x0A 2)),
       (0x0C, zeroAt bs 0x0C 20)]
  | _ => none

def parseZone (bs : List Byte) (o : Nat) : Zone :=
  { ref := rd bs (o + 1) 1, dirX := rdS bs (o + 4) 2, dirY := rdS bs (o + 6) 2,
    vertices := (List.range (rd bs o 1)).map (fun v => (rd bs (o + 8 + 4 * v) 2, rd bs (o + 10 + 4 * v) 2)) }

def parseLine (bs : List Byte) (o : Nat) : Line :=
  { ax := rd bs o 2, ay := rd bs (o + 2) 2, bx := rd bs (o + 4) 2, nby := rd bs (o + 6) 2, ref := rd bs (o + 8) 1 }

def parseRule (bs : List Byte) (o : Nat) : RuleRow :=
  { target := rd bs o 1, frm := rd bs (o + 1) 1, condition := rd bs (o + 2) 1, next := rd bs (o + 3) 1,
    param := rd bs (o + 4) 2, action := rd bs (o + 6) 1, cls := rd bs (o + 8) 2, alertCode := rd bs (o + 0x0A) 2 }

def parseBind (bs : List Byte) (i : Nat) : BindEntry :=
  { model := rd bs (8 + 8 * i) 1, role := rd bs (9 + 8 * i) 1, sourceHead := rd bs (10 + 8 * i) 1,
    maxBoxes := rd bs (12 + 8 * i) 2 }

def parseTable (table : Nat) (bs : List Byte) : TableContent :=
  match table with
  | 1 => .binding ((List.range (rd bs 0 1)).map (parseBind bs))
  | 2 => .zones ((List.range (rd bs 0 1)).map (fun i => parseZone bs (8 + 72 * i)))
      ((List.range (rd bs 1 1)).map (fun i => parseLine bs (8 + 72 * rd bs 0 1 + 16 * i)))
  | 3 => .rules ((List.range (rd bs 0 2)).map (fun i => parseRule bs (8 + 16 * i)))
  | 4 => .filter (BitVec.ofNat 256 (rd bs 8 32))
  | 5 => .format { maxDetections := rd bs 0 2, flags := rd bs 2 1,
                   inbound := (List.range 16).map (fun t => rd bs (8 + 2 * t) 2) }
  | 6 => .subscribers ((List.range (rd bs 0 1)).map (fun i => rd bs (8 + 8 * i) 1))
  | _ => .balance { mode := rd bs 0 1, classes := rd bs 1 1, tenants := rd bs 2 2, highWater := rd bs 4 1,
                    lowWater := rd bs 5 1, modules := rd bs 6 1, maxMoves := rd bs 7 1, interval := rd bs 8 2,
                    minDwell := rd bs 0x0A 2 }

/-- The answer to a TABLE_WRITE that fails: RESULT holds the table offset or 0xFFFFFFFF (R659). -/
def tableFail (st : Status) (fieldOffset : Nat) (tableOffset : Option Nat) : Answer :=
  { status := st, offset := fieldOffset, result := le 4 (tableOffset.getD 0xFFFFFFFF) }

/-- R390: whether a condition suits a target. -/
def conditionSuits (condition target : Nat) : Bool := if condition == 3 then decide (16 ≤ target) else decide (target < 16)

/-- R390: PARAM is 0 for a condition that takes none, and at most 2 for CROSS. -/
def paramSuits (condition param : Nat) : Bool :=
  if condition ≤ 1 then param == 0 else if condition == 3 then decide (param ≤ 2) else true

/-- R659 step 6, R390: the first row whose CONDITION does not suit its TARGET, or PARAM its CONDITION. -/
def rulesFault (rs : List RuleRow) : Option Nat :=
  firstFault (rs.zipIdx.flatMap (fun (r, k) =>
    [(8 + 16 * k + 2, conditionSuits r.condition r.target), (8 + 16 * k + 4, paramSuits r.condition r.param)]))

/-- R659 step 6, R394: the first INBOUND entry of another tenant that is neither none nor a slot below the quota. -/
def inboundFault (quota own : Nat) (r : RecordFormat) : Option Nat :=
  firstFault (r.inbound.zipIdx.map (fun (slot, t) =>
    (8 + 2 * t, t == own || slot == 0xFFFF || (decide (3 ≤ slot) && decide (slot < quota)))))

/-- R659 steps 2 to 5 on a table's bytes. -/
def checkTable (table bytes : Nat) (bs : List Byte) : Except Answer TableContent :=
  if bytes < tableHeader table then .error (tableFail .invalidField 0x0C none)
  else match countFault table bs with
    | some o => .error (tableFail .invalidField 0x10 (some o))
    | none =>
      if bytes != tableSize table bs then .error (tableFail .invalidField 0x0C none)
      else match fieldFault table bs with
        | some o => .error (tableFail .invalidField 0x10 (some o))
        | none => .ok (parseTable table bs)

end Sys2Proof.Machine
end

