-- ==== Sys2Proof/Machine/Pcie.lean ====
section
/-! DEFINITION. The PCIe endpoint as configuration software sees it (05_pcie_setup_registers.md, R159-R161, R166, R658), error logging
in AER (R186), and the posts of the issue step at translated addresses (R183-R185, R187). -/

namespace Sys2Proof.Machine

/-! ### Capabilities and header values (R159, Table 5.1) -/

/-- A capability: its ID, whether it is an extended one, and the functions that present it. -/
structure PcieCap where
  id : Nat
  extended : Bool
  pf : Bool
  vf : Bool
  deriving DecidableEq, Repr

/-- Table 5.1: Power Management, PCI Express, MSI-X; AER, Device Serial Number, ARI, SR-IOV, Secondary PCIe, Data Link Feature,
Physical Layer 16.0 GT/s, Lane Margining, Physical Layer 32.0 GT/s. R160: no others. -/
def pcieCaps : List PcieCap :=
  [⟨0x01, false, true, false⟩, ⟨0x10, false, true, true⟩, ⟨0x11, false, true, true⟩, ⟨0x0001, true, true, true⟩,
   ⟨0x0003, true, true, false⟩, ⟨0x000E, true, true, true⟩, ⟨0x0010, true, true, false⟩, ⟨0x0019, true, true, false⟩,
   ⟨0x0025, true, true, false⟩, ⟨0x0026, true, true, false⟩, ⟨0x0027, true, true, false⟩, ⟨0x002A, true, true, false⟩]

/-- The capabilities of a function. -/
def capsOf (f : Fn) : List PcieCap := pcieCaps.filter (fun c => if isPf f then c.pf else c.vf)

/-- The Type 0 header of a function, as far as the spec gives its values. -/
structure CfgHeader where
  vendorId : Nat
  deviceId : Nat
  classCode : Nat
  subsystemId : Nat
  expansionRom : Bool
  deriving DecidableEq, Repr

def cfgHeader (f : Fn) : CfgHeader :=
  { vendorId := Config.vendorId.toNat, deviceId := if isPf f then 0x0960 else 0x0961, classCode := 0x120000,
    subsystemId := 0x0960, expansionRom := false }

/-- Power Management and PCI Express values. -/
structure CfgValues where
  powerStates : List Nat
  noSoftReset : Bool
  pme : Bool
  maxPayload : Nat
  tenBitTags : Bool
  flrCapable : Bool
  maxLanes : Nat
  maxRate10 : Nat
  aspm : Bool
  timeoutRanges : List Char
  timeoutDisableSupported : Bool
  ecrc : Bool
  deriving DecidableEq, Repr

def cfgValues : CfgValues :=
  { powerStates := [0, 3], noSoftReset := false, pme := false, maxPayload := 512, tenBitTags := true, flrCapable := true, maxLanes := 16,
    maxRate10 := 320, aspm := false, timeoutRanges := ['A', 'B', 'C', 'D'], timeoutDisableSupported := true, ecrc := true }

/-- SR-IOV values of the PF. -/
structure SriovValues where
  totalVfs : Nat
  initialVfs : Nat
  vfDeviceId : Nat
  pageKiB : Nat
  firstVfOffset : Nat
  vfStride : Nat
  migration : Bool
  deriving DecidableEq, Repr

/-- First VF Offset follows ARI Capable Hierarchy. -/
def sriovValues (ari : Bool) : SriovValues :=
  { totalVfs := 16, initialVfs := 16, vfDeviceId := 0x0961, pageKiB := 4, firstVfOffset := if ari then 1 else 0x100, vfStride := 1,
    migration := false }

/-- R161: the attributes of every request the module issues: Relaxed Ordering, ID-Based Ordering, No Snoop. -/
def requestAttrs : Bool × Bool × Bool := (false, false, false)

/-! ### BARs (R166, Table 5.2) -/

def bar0Bytes : Nat := 65536

def bar2Bytes : Nat := 16384

/-- The address bits of a BAR that software sets: those above its size. -/
def barBase (v size : Nat) : Nat := v / size * size

/-- The type bits of a 64-bit non-prefetchable memory BAR. -/
def barType : Nat := 4

/-- The 32-bit BAR register `n` of a function's own header; a VF's are in the SR-IOV capability and read as 0. -/
def State.readBarReg (s : State) (f : Fn) (n : Nat) : Nat :=
  if !isPf f then 0
  else
    let x := s.fnSt f
    match n with
    | 0 => barBase x.bar0.toNat bar0Bytes % 2 ^ 32 + barType
    | 1 => x.bar0.toNat / 2 ^ 32
    | 2 => barBase x.bar2.toNat bar2Bytes % 2 ^ 32 + barType
    | 3 => x.bar2.toNat / 2 ^ 32
    | _ => 0

/-- The bus addresses of a function's BAR0 and BAR2: VF t has the t-th slice of the VF BARs. -/
def State.barsOf (s : State) (f : Fn) : Nat × Nat :=
  if isPf f then (barBase (s.fnSt f).bar0.toNat bar0Bytes, barBase (s.fnSt f).bar2.toNat bar2Bytes)
  else (barBase s.host.vfBar0.toNat bar0Bytes + f.val * bar0Bytes, barBase s.host.vfBar2.toNat bar2Bytes + f.val * bar2Bytes)

/-! ### Completion timeout (R658) -/

/-- The lower bound of a Completion Timeout Value's range, ns: the ranges are the PCI Express Base Specification's (log entry 165); a
reserved value selects none that the spec gives. -/
def timeoutNs (v : BitVec 4) : Nat :=
  if v = 0 || v = 1 then 50000
  else if v = 2 then 1000000
  else if v = 5 then 16000000
  else if v = 6 then 65000000
  else if v = 9 then 260000000
  else if v = 10 then 1000000000
  else if v = 13 then 4000000000
  else if v = 14 then 17000000000
  else Config.reservedTimeout v

/-! ### Advanced Error Reporting (R186; log entry 165) -/

/-- Bits of the Uncorrectable Error registers: poisoned TLP, completion timeout, unsupported request, internal error. -/
def aerPoisoned : Nat := 12

def aerTimeout : Nat := 14

def aerUnsupported : Nat := 20

def aerInternal : Nat := 22

/-- An uncorrectable error of a function is logged: its status bit sets; an error that is not masked is reported at its severity, and the
first of them holds the First Error Pointer. -/
def State.logError (s : State) (f : Fn) (bit : Nat) : State :=
  let x := s.fnSt f
  let s := s.modFn f (fun x => { x with
    aerStatus := x.aerStatus ||| (1 <<< bit : U32),
    aerFirst := if x.aerMask.getLsbD bit || x.aerFirst.isSome then x.aerFirst else some bit })
  if x.aerMask.getLsbD bit then s
  else s.withHost { s.host with errors := s.host.errors ++ [(f, x.aerSeverity.getLsbD bit)] }

/-- Status bits written with 1 clear; a First Error Pointer whose bit clears is free again. -/
def FnState.clearAer (x : FnState) (bits : U32) : FnState :=
  { x with aerStatus := x.aerStatus &&& ~~~ bits, aerFirst := x.aerFirst.filter (fun b => !bits.getLsbD b) }

/-! ### Posted writes at translated addresses (R183, R184, R187, R190) -/

/-- The module may issue a request for a function. -/
def State.mayIssue (s : State) (f : Fn) : Bool :=
  let x := s.fnSt f
  x.busMaster && !x.resetTrigger && !x.resetBusy && s.host.linkUp

/-- R183, R184: posts `n` bytes to a function's address at the bus address its windows give, or faults; `slot` is the queue concerned. -/
def State.postAt (s : State) (f : Fn) (slot a n : Nat) (make : Nat → Posted) : State :=
  match s.translate f a n true with
  | some b => s.withHost { s.host with issue := s.host.issue ++ [make b] }
  | none => s.addressFault f slot a true

/-- R183: the bus address of the ring entry at a position; 0 where no window takes the ring, to which nothing is written. -/
def State.entryAddr (s : State) (q : Queue) (pos : Nat) : Nat := (s.translate q.fn (q.base + 64 * (pos % q.entries)) 64 true).getD 0

/-- R185: every entry of a ring lies in a window that permits writing. -/
def State.ringReached (s : State) (q : Queue) : Bool := (s.translate q.fn q.base (64 * q.entries) true).isSome

end Sys2Proof.Machine
end

