-- ==== Sys2Proof/Machine/Functions.lean ====
section
/-! DEFINITION. The PCIe face (05_pcie_setup_registers.md): register writes and reads, sealing, MSI-X, configuration
enables, and the triggers of a reset. -/

namespace Sys2Proof.Machine

/-! ### MSI-X (R171-R173) -/

/-- Table 5.4, PCIe: an entry at its reset value: masked, nothing pending. -/
def MsixEntry.blank (v : Nat) : MsixEntry := { vector := v, addr := 0, data := 0, masked := true, pending := false }

def FnState.msixOf (x : FnState) (v : Nat) : MsixEntry := (x.msix.find? (fun e => e.vector == v)).getD (MsixEntry.blank v)

def FnState.setMsix (x : FnState) (e : MsixEntry) : FnState :=
  let rest := x.msix.filter (fun y => y.vector != e.vector)
  { x with msix := if e = MsixEntry.blank e.vector then rest else insertBy (fun a b => a.vector < b.vector) e rest }

/-- R173: unmasking a vector with its pending bit set owes its message to the next commit, which clears the bit when it sends. -/
def State.unmask (s : State) (f : Fn) (v : Nat) : State :=
  let e := (s.fnSt f).msixOf v
  let s := s.modFn f (fun x => x.setMsix { e with masked := false })
  if e.masked && e.pending then s.oweMsix f (some v) else s

/-- The messages pending on unmasked vectors of a function that may send them again go out at the next commit (log entry 34). -/
def State.owePending (s : State) (f : Fn) : State :=
  let x := s.fnSt f
  if x.busMaster && x.msixEnable then
    (x.msix.filter (fun e => e.pending && !e.masked)).foldl (fun s e => s.oweMsix f (some e.vector)) s
  else s

/-! ### Register writes (R11, R13, R16, R168, R169, R174, R180, R181) -/

/-- Replaces one half of a 64-bit register. -/
def setHalf (old : U64) (hi : Bool) (v : Nat) : U64 :=
  if hi then BitVec.ofNat 64 (bitsOf old.toNat 31 0 + 2 ^ 32 * (v % 2 ^ 32))
  else BitVec.ofNat 64 (2 ^ 32 * bitsOf old.toNat 63 32 + v % 2 ^ 32)

/-- A write to an RWL field: refused and recorded once locked (R16). -/
def FnState.rwl (x : FnState) (g : FnState → FnState) : FnState :=
  if x.sealed then { x with rwlViolation := true } else g x

/-- Commit at which an RWC write takes effect (R14, R15). -/
def State.rwcDue (s : State) (toEdgeNs : Nat) : Nat := s.clk.tick + if 8000 ≤ toEdgeNs then 1 else 2

/-- One 4-byte write to the function set-up registers at a block offset (Tables 5.5 to 5.9). -/
def FnState.writeReg (x : FnState) (off v due : Nat) : FnState :=
  match off with
  | 0x008 =>
    { x with rwlViolation := x.rwlViolation && !bitOf v 2, dbDiscarded := x.dbDiscarded && !bitOf v 3,
             addressFault := x.addressFault && !bitOf v 4, fetchError := x.fetchError && !bitOf v 5 }
  | 0x010 =>
    let x := x.rwl (fun x => { x with hbEnable := bitOf v 1 })
    if bitOf v 0 && x.sealDue.isNone then { x with sealDue := some due } else x
  | 0x018 => x.rwl (fun x => { x with adminSqBase := setHalf x.adminSqBase false v })
  | 0x01C => x.rwl (fun x => { x with adminSqBase := setHalf x.adminSqBase true v })
  | 0x020 => x.rwl (fun x => { x with adminRingSize := bitsOf v 4 0 })
  | 0x028 => x.rwl (fun x => { x with adminCqBase := setHalf x.adminCqBase false v })
  | 0x02C => x.rwl (fun x => { x with adminCqBase := setHalf x.adminCqBase true v })
  | 0x030 => x.rwl (fun x => { x with eventRingBase := setHalf x.eventRingBase false v })
  | 0x034 => x.rwl (fun x => { x with eventRingBase := setHalf x.eventRingBase true v })
  | 0x038 => x.rwl (fun x => { x with eventRingSize := bitsOf v 4 0 })
  | 0x040 => x.rwl (fun x => { x with heartbeatAddr := setHalf x.heartbeatAddr false v })
  | 0x044 => x.rwl (fun x => { x with heartbeatAddr := setHalf x.heartbeatAddr true v })
  | _ => x

/-- R180, R191: the windows of tenant t are locked from the sealing of its VF until the commit that begins its reset. -/
def State.windowsLocked (s : State) (t : Tenant) : Bool := (s.fnSt (fnOf t)).windowLock

/-- One 4-byte write to a window register file at `off` within it (Table 5.11); reserved bits are ignored (R11). -/
def Window.writeReg (w : Window) (off v : Nat) : Window :=
  let lo (old : Nat) : Nat := old / 2 ^ 32 * 2 ^ 32 + v / 4096 * 4096 % 2 ^ 32
  let hi (old bits : Nat) : Nat := old % 2 ^ 32 + 2 ^ 32 * (v % 2 ^ bits)
  match off with
  | 0x00 => { w with taBase := lo w.taBase }
  | 0x04 => { w with taBase := hi w.taBase 16 }
  | 0x08 => { w with size := lo w.size }
  | 0x0C => { w with size := hi w.size 16 }
  | 0x10 => { w with hostBase := lo w.hostBase }
  | 0x14 => { w with hostBase := hi w.hostBase 32 }
  | 0x18 => { w with read := bitOf v 0, write := bitOf v 1 }
  | _ => w

/-- R180, R14, R15: a write to SAMPLE_ALLOW. -/
def State.writeSampleAllow (s : State) (v due : Nat) : State :=
  let x : U16 := BitVec.ofNat 16 v
  s.withHost { s.host with sampleAllowWritten := x,
                           sampleWrites := s.host.sampleWrites ++ [{ value := x, due := due }] }

/-- One 4-byte write to the module set-up registers (Table 5.11). R181: a write to a locked window is recorded in the PF. -/
def State.writeModuleReg (s : State) (off v due : Nat) : State :=
  if off = 0 then s.withHost { s.host with autoRehomeWritten := bitOf v 0 }
  else if off = 8 then s.writeSampleAllow v due
  else if h : 0x100 ≤ off ∧ off < 0x1100 then
    let t : Tenant := ⟨(off - 0x100) / 0x100, by omega⟩
    let w := (off % 0x100) / 0x20
    if 0x1C ≤ off % 0x20 then s
    else if s.windowsLocked t then s.modFn pfFn (fun x => { x with rwlViolation := true })
    else
      let i := 8 * t.val + w
      if hi : i < 128 then
        s.withHost { s.host with windows := s.host.windows.set i ((s.host.windows.get ⟨i, hi⟩).writeReg (off % 0x20) v) hi }
      else s
  else s

/-- One 4-byte write to the MSI-X table: address, data, vector control. -/
def State.writeMsix (s : State) (f : Fn) (off v : Nat) : State :=
  let n := off / 16
  if vectorsOf f ≤ n then s
  else
    let e := (s.fnSt f).msixOf n
    match off % 16 with
    | 0 => s.modFn f (fun x => x.setMsix { e with addr := setHalf e.addr false v })
    | 4 => s.modFn f (fun x => x.setMsix { e with addr := setHalf e.addr true v })
    | 8 => s.modFn f (fun x => x.setMsix { e with data := BitVec.ofNat 32 v })
    | 12 => if bitOf v 0 then s.modFn f (fun x => x.setMsix { e with masked := true }) else s.unmask f n
    | _ => s

/-- One 4-byte write to BAR0 (Table 5.3): the Hallmark range and uncovered offsets ignore it (R123, R168). -/
def State.writeBar0 (s : State) (f : Fn) (off v due : Nat) : State :=
  if off < 0x4000 then s
  else if off < 0x5000 then s.modFn f (fun x => x.writeReg (off - 0x4000) v due)
  else if 0x6000 ≤ off && off < 0x8000 then (if isPf f then s.writeModuleReg (off - 0x6000) v due else s)
  else if 0x8000 ≤ off && off < 0x9000 then s.writeMsix f (off - 0x8000) v
  else s

/-- The module answers on its link: the die has passed phase 1 of bring-up (Table 17.6). -/
def State.linkAnswers (s : State) : Bool := s.boot.running && s.boot.broughtUp && s.host.linkUp

/-- A request decodes to a function's BARs: its Memory Space Enable is 1 and its VF exists. -/
def State.barDecodes (s : State) (f : Fn) : Bool := (s.fnSt f).memEnable && (isPf f || s.host.vfEnable)

/-- A write to a function's BARs acts: the module answers, the BARs decode, and the module is not FAILED. -/
def State.barOpen (s : State) (f : Fn) : Bool := s.linkAnswers && s.barDecodes f && !s.dead

/-- Table 5.12: a write that is poisoned or that meets a function whose Memory Space Enable is 0 is logged. -/
def State.logWrite (s : State) (f : Fn) (poisoned : Bool) : State :=
  if !s.linkAnswers then s
  else if !s.barDecodes f then s.logError f aerUnsupported
  else if poisoned then s.logError f aerPoisoned
  else s

/-- REGISTER_WRITE (R13, R169): naturally aligned writes of 4 or 8 bytes act, dword by dword; a poisoned write is
discarded (Table 5.12). -/
def execRegisterWrite (i : RegWriteIn) (s : State) : Out :=
  .next (
    let off := i.offset.toNat
    let due := s.rwcDue i.toEdgeNs
    if i.poisoned || !s.barOpen i.fn then s.logWrite i.fn i.poisoned
    else if i.size == 4 && off % 4 == 0 then s.writeBar0 i.fn off (i.value.toNat % 2 ^ 32) due
    else if i.size == 8 && off % 8 == 0 then
      (s.writeBar0 i.fn off (i.value.toNat % 2 ^ 32) due).writeBar0 i.fn (off + 4) (i.value.toNat / 2 ^ 32) due
    else s)

/-- SAMPLE_ALLOW (R180): the PF's write; COMMIT applies it (R14) and ends the sessions of a bit that clears (R318). -/
def execSampleAllow (i : SampleAllowIn) (s : State) : Out :=
  .next (if s.barOpen pfFn then s.writeSampleAllow i.value.toNat (s.rwcDue i.toEdgeNs) else s.logWrite pfFn false)

/-- MSIX_UNMASK (R173). -/
def execMsixUnmask (i : MsixUnmaskIn) (s : State) : Out :=
  .next (if !s.barOpen i.fn then s.logWrite i.fn false
    else if i.vector < vectorsOf i.fn then s.unmask i.fn i.vector
    else s)

/-- The registers of a configuration write beside the enables: the PF's also hold the VF BARs and the completion timeout. -/
def State.writeConfig (s : State) (f : Fn) (c : ConfigIn) : State :=
  let s := s.modFn f (fun x => { x.clearAer c.aerClear with
    bar0 := c.bar0, bar2 := c.bar2, aerMask := c.aerMask, aerSeverity := c.aerSeverity })
  if isPf f then s.withHost { s.host with vfBar0 := c.vfBar0, vfBar2 := c.vfBar2, timeoutValue := c.timeoutValue,
                                          timeoutDisable := c.timeoutDisable }
  else s

/-- BUS_MASTER_ENABLE (R187): the function's configuration enables take their new values; enabling a VF implies that VF
Enable is set. Before phase 1 of bring-up ends the request is retried and changes nothing (Table 17.6). -/
def execBusMasterEnable (i : BusMasterIn) (s : State) : Out :=
  .next (if s.dead || !s.boot.broughtUp || !s.host.linkUp then s
    else
      let s := s.modFn i.fn (fun x => { x with busMaster := i.enable, memEnable := i.memory, msixEnable := i.msix })
      let s := if !isPf i.fn && i.memory then s.withHost { s.host with vfEnable := true } else s
      (match i.config with
        | some c => s.writeConfig i.fn c
        | none => s).owePending i.fn)

/-! ### Register reads (R9, R13, R123, R124, R167-R169, R174, R180): what a read returns; the table of commands has no read -/

def FnState.statusReg (x : FnState) (failed : Bool) : Nat :=
  boolNat x.sealed + 2 * boolNat x.resetBusy + 4 * boolNat x.rwlViolation + 8 * boolNat x.dbDiscarded +
    16 * boolNat x.addressFault + 32 * boolNat x.fetchError + 64 * boolNat failed + 256 * (x.sealError % 16)

/-- The 64-bit value at a block offset of the function set-up registers. -/
def State.readFnReg (s : State) (f : Fn) (off : Nat) : Nat :=
  let x := s.fnSt f
  match off with
  | 0x000 => (match tenantOf f with
      | some t => t.val
      | none => 0xFF) + 2 ^ 16 * vectorsOf f
  | 0x008 => x.statusReg (s.safety.state == .failed)
  | 0x010 => boolNat x.sealDue.isSome + 2 * boolNat x.hbEnable
  | 0x018 => x.adminSqBase.toNat
  | 0x020 => x.adminRingSize
  | 0x028 => x.adminCqBase.toNat
  | 0x030 => x.eventRingBase.toNat
  | 0x038 => x.eventRingSize
  | 0x040 => x.heartbeatAddr.toNat
  | 0x048 => 8 + 2 ^ 8 * s.quotaOf f
  | _ => 0

/-- The 64-bit value at an offset of a window register file (Table 5.11). -/
def Window.readReg (w : Window) (off : Nat) : Nat :=
  match off with
  | 0x00 => w.taBase
  | 0x08 => w.size
  | 0x10 => w.hostBase
  | 0x18 => boolNat w.read + 2 * boolNat w.write
  | _ => 0

/-- The 64-bit value at an offset of the module set-up registers: an RWC field reads as last written (00:R13). -/
def State.readModuleReg (s : State) (off : Nat) : Nat :=
  if off = 0 then boolNat s.host.autoRehomeWritten
  else if off = 8 then s.host.sampleAllowWritten.toNat
  else if h : 0x100 ≤ off ∧ off < 0x1100 then
    (s.host.windows.get ⟨8 * ((off - 0x100) / 0x100) + off % 0x100 / 0x20, by omega⟩).readReg (off % 0x20)
  else 0

/-- The 64-bit value at an offset of the MSI-X table: address, then data with vector control. -/
def State.readMsix (s : State) (f : Fn) (off : Nat) : Nat :=
  let e := (s.fnSt f).msixOf (off / 16)
  if vectorsOf f ≤ off / 16 then 0
  else if off % 16 = 0 then e.addr.toNat
  else e.data.toNat + 2 ^ 32 * boolNat e.masked

/-- The 64-bit value at an offset of the pending-bit array. -/
def State.readPba (s : State) (f : Fn) (off : Nat) : Nat :=
  bitmap 64 (fun i => decide (8 * off + i < vectorsOf f) && ((s.fnSt f).msixOf (8 * off + i)).pending)

/-- The 8 bytes at an aligned offset of BAR0 (Table 5.3): 0 beyond the length of the Hallmark table (R124) and where no block is (R168). -/
def State.readBar0 (s : State) (f : Fn) (off : Nat) : Nat :=
  if off < 0x4000 then rd ((s.host.views.get f).bytes (viewCode f)) off 8
  else if off < 0x5000 then s.readFnReg f (off - 0x4000)
  else if 0x6000 ≤ off && off < 0x8000 then (if isPf f then s.readModuleReg (off - 0x6000) else 0)
  else if 0x8000 ≤ off && off < 0x9000 then s.readMsix f (off - 0x8000)
  else if 0x9000 ≤ off && off < 0xA000 then s.readPba f (off - 0x9000)
  else 0

/-- What a read of BAR0 returns (R169): naturally aligned reads of 4 or 8 bytes give what stands there, any other 0; none is an
Unsupported Request (Table 5.12). -/
def State.barRead (s : State) (f : Fn) (off size : Nat) : Option Nat :=
  if !s.linkAnswers || !s.barDecodes f then none
  else if size = 8 && off % 8 = 0 then some (s.readBar0 f off)
  else if size = 4 && off % 4 = 0 then some (s.readBar0 f (off / 8 * 8) / 2 ^ (8 * (off % 8)) % 2 ^ 32)
  else some 0

/-! ### Sealing (R175, R176, Table 5.10) -/

/-- A range lies within one enabled window of a tenant that permits a direction; the PF's addresses are bus addresses. -/
def State.reaches (s : State) (f : Fn) (a n : Nat) (writing : Bool) : Bool := (s.translate f a n writing).isSome

/-- No two enabled windows of a tenant overlap (Table 5.10, check 6). -/
def windowsDisjoint : List Window → Bool
  | [] => true
  | w :: ws => ws.all (fun v => w.size == 0 || v.size == 0 || decide (w.taBase + w.size ≤ v.taBase) ||
      decide (v.taBase + v.size ≤ w.taBase)) && windowsDisjoint ws

def ringSizeOk (n : Nat) : Bool := decide (6 ≤ n) && decide (n ≤ 16)

/-- Table 5.10: the code of the first failing check, 0 when every one passes. -/
def State.sealCheck (s : State) (f : Fn) : Nat :=
  let x := s.fnSt f
  let aligned (a : U64) : Bool := a.toNat % 4096 == 0
  let hasEvent := x.eventRingBase != 0
  let vf := tenantOf f
  let reach (a : U64) (log2 : Nat) (writing : Bool) : Bool := s.reaches f a.toNat (64 * 2 ^ log2) writing
  if !s.isReady then 1
  else if (match vf with
    | some t => !(s.tenantSt t).configured
    | none => false) then 2
  else if !(ringSizeOk x.adminRingSize && aligned x.adminSqBase && aligned x.adminCqBase) then 3
  else if hasEvent && !(aligned x.eventRingBase && ringSizeOk x.eventRingSize) then 4
  else if x.hbEnable && x.heartbeatAddr.toNat % 32 != 0 then 5
  else match vf with
    | none => 0
    | some t =>
      if !windowsDisjoint (s.windowsOf t) then 6
      else if reach x.adminSqBase x.adminRingSize false && reach x.adminCqBase x.adminRingSize true &&
        (!hasEvent || reach x.eventRingBase x.eventRingSize true) &&
        (!x.hbEnable || s.reaches f x.heartbeatAddr.toNat 32 true) then 0
      else 7

/-- R201, R203: the queue IDs reserved for a function's admin queues (notes/assumptions/15.md). -/
def adminQueueId (f : Fn) (slot : Nat) : Nat := 0x30 + 3 * f.val + slot

/-- An admin queue as sealing sets it up (R170, R171): admin rings on vector 0, the event ring on vector 1. -/
def adminQueue (f : Fn) (slot log2 base : Nat) (ty : QueueType) (paired : Option Nat) : Queue :=
  { fn := f, slot := slot, qtype := ty, id := adminQueueId f slot, log2 := log2, base := base, indexAddr := 0,
    vector := some (if slot = 2 then 1 else 0), paired := paired, prod := 0, cons := 0, shown := 0, fetchPos := 0,
    stopped := false, wakes := [], bells := [], fetched := [], donePos := [], reserved := 0, recordSeq := 0, gaps := [],
    missedRetractions := [], audit := RingAudit.zero, auditNext := RingAudit.zero }

/-- R176: the queues of a function that seals. -/
def FnState.adminQueues (x : FnState) (f : Fn) : List Queue :=
  [adminQueue f 0 x.adminRingSize x.adminSqBase.toNat .command (some 1),
   adminQueue f 1 x.adminRingSize x.adminCqBase.toNat .completion none] ++
    if x.eventRingBase != 0 then [adminQueue f 2 x.eventRingSize x.eventRingBase.toNat .event none] else []

/-- R175: the examination of a sealing request. -/
def State.sealFn (s : State) (f : Fn) : State :=
  let code := s.sealCheck f
  if code = 0 then
    let s := s.modFn f (fun x => { x with sealed := true, windowLock := !isPf f, sealDue := none, sealError := 0, safetyEvents := 0 })
    s.withHost { s.host with queues := s.host.queues ++ (s.fnSt f).adminQueues f }
  else s.modFn f (fun x => { x with sealDue := none, sealError := code })

/-- A request that SEAL has brought to this commit is examined; one of a sealed function only clears. -/
def State.takeSeal (s : State) (f : Fn) : State :=
  if (s.fnSt f).sealNow then
    let s := s.modFn f (fun x => { x with sealNow := false })
    if (s.fnSt f).sealed then s.modFn f (fun x => { x with sealDue := none }) else s.sealFn f
  else s

/-- R70, step 4: the requests of a commit are examined among its RWC values; it shows a sealing in the function's view and writes the
first heartbeat (R176). -/
def State.takeSeals (s : State) : State := allFns.foldl State.takeSeal s

/-- SEAL (R175): a request due at the coming commit, on a function that is in no reset, goes to that commit. -/
def execSeal (i : FnIn) (s : State) : Out :=
  .next (if !s.dead && !(s.fnSt i.fn).resetBusy && (s.fnSt i.fn).sealDue.any (fun due => decide (due ≤ s.clk.tick + 1)) then
    s.modFn i.fn (fun x => { x with sealNow := true })
  else s)

/-! ### Reset triggers (R188-R190, R195) -/

/-- R190: the set-up registers, and the configuration and MSI-X state of the function, return to their reset values and
RESET_BUSY sets; the events it has raised stay counted, AER is sticky, and a tenant's windows stay locked until commit c (R191). -/
def FnState.trigger (x : FnState) : FnState :=
  { FnState.reset with
    aerStatus := x.aerStatus, aerMask := x.aerMask, aerSeverity := x.aerSeverity, aerFirst := x.aerFirst, windowLock := x.windowLock,
    resetBusy := true, resetTrigger := true, resetCommit := none, eventSeq := x.eventSeq, eventHeld := x.eventHeld,
    eventDropped := x.eventDropped, lastSafety := x.lastSafety }

/-- R195: a trigger for a function whose reset is in progress begins no second reset. -/
def State.triggerOne (s : State) (f : Fn) : State :=
  if (s.fnSt f).resetBusy then s else s.modFn f FnState.trigger

/-- R188: a reset of every tenant. -/
def State.triggerTenants (s : State) : State := (allTenants.map fnOf).foldl State.triggerOne s

/-- R189, R190, R196: a reset of the PF resets every tenant, and the PF's registers but the sticky AUTO_REHOME. -/
def State.triggerPf (s : State) : State :=
  if (s.fnSt pfFn).resetBusy then s
  else
    let s := s.triggerTenants.triggerOne pfFn
    s.withHost { s.host with vfEnable := false, vfBar0 := 0, vfBar2 := 0, timeoutValue := 0, timeoutDisable := false,
                             windows := Vector.replicate 128 Window.reset, sampleAllowWritten := 0,
                             sampleWrites := [{ value := 0, due := s.clk.tick + 1 }] }

/-- The triggers act once PCIe is usable and the module is not FAILED (Table 17.6). -/
def State.pcieUsable (s : State) : Bool := !s.dead && s.boot.broughtUp

/-- FLR (R188, R189). -/
def execFlr (i : FnIn) (s : State) : Out :=
  .next (if !s.pcieUsable then s else if isPf i.fn then s.triggerPf else s.triggerOne i.fn)

/-- VF_ENABLE_CLEAR (R188). -/
def execVfEnableClear (s : State) : Out :=
  .next (if !s.pcieUsable then s
    else
      let s := s.triggerTenants
      s.withHost { s.host with vfEnable := false })

/-- HOT_RESET (R189). -/
def execHotReset (s : State) : Out := .next (if s.pcieUsable then s.triggerPf else s)

/-- PCIE_LINK_DOWN (R189). -/
def execPcieLinkDown (s : State) : Out :=
  .next (if s.pcieUsable then
    let s := s.triggerPf
    s.withHost { s.host with linkUp := false }
  else s)

/-- D3HOT_ENTRY (R189). -/
def execD3hotEntry (s : State) : Out := .next (if s.pcieUsable then s.triggerPf else s)

/-- Widths x1 to x16 and rates 2.5 to 32 GT/s (R159). -/
def linkTrainOk (i : LinkTrainIn) : Bool :=
  [1, 2, 4, 8, 16].contains i.lanes && [25, 50, 80, 160, 320].contains i.rate10

/-- LINK_RETRAINING (R162): the negotiated width and rate become the capacity of host ports A and B at the next commit. -/
def execLinkRetraining (i : LinkTrainIn) (s : State) : Out :=
  .next (if s.boot.running && linkTrainOk i then
    s.withHost { s.host with linkUp := true, retrained := some (i.lanes, i.rate10) }
  else s)

end Sys2Proof.Machine
end

