-- ==== Sys2Proof/Machine/Time.lean ====
section
/-! DEFINITION. The time unit (03_time_reference.md): judging PPS edges, reference faults, states, loading time-of-day and
the time rows of the table. -/

namespace Sys2Proof.Machine

/-! ### Reference judging on the clock alone -/

def Clock.note (c : Clock) (code : Nat) (value : Int) : Clock := { c with notes := c.notes ++ [{ code := code, value := value }] }

/-- R111: an evaluation that ends without a step reports each held edge with its own deviation. -/
def Clock.endEvaluation (c : Clock) : Clock :=
  { c with held := [], notes := c.notes ++ c.held.map (fun d => { code := 0x0104, value := d }) }

/-- Table 3.2, R657: the reaction to a fault of a valid reference: its event, and LOCKED is left at the next commit. -/
def Clock.refFault (c : Clock) (code : Nat) : Clock :=
  { c.note code 0 with lockRun := 0, leaveLocked := c.leaveLocked || c.mode == .locked }

/-- Table 3.2: the 10 MHz reference is lost or rejected; R112: it must requalify. A rate change ends an open evaluation (R111). -/
def Clock.dropRef (c : Clock) (code : Nat) : Clock :=
  if c.refValid then
    let c := if code = 0x0103 then c.endEvaluation else c
    { c.refFault code with refValid := false, refRun := 0 }
  else { c with refRun := 0 }

/-- Table 3.2: the PPS is lost or rejected; an evaluation open ends without a step (R111). -/
def Clock.dropPps (c : Clock) (code : Nat) : Clock :=
  if c.ppsValid then { c.endEvaluation.refFault code with ppsValid := false, ppsRun := 0 } else { c with ppsRun := 0 }

/-- R98, R107, R112: one frequency measurement of the OCXO against the 10 MHz, none where the reference was absent in part
of the interval. -/
def Clock.measure (c : Clock) (ppb : Option Int) : Clock :=
  match ppb with
  | none => { c with refRun := 0 }
  | some d =>
    if d.natAbs ≤ 20000 then
      if c.refValid || 2 ≤ c.refRun then
        { c with refValid := true, refRun := 0, ratePpb := d, lockedPpb := if c.mode == .locked then d else c.lockedPpb }
      else { c with refRun := c.refRun + 1 }
    else c.dropRef 0x0103

/-- The OCXO deviation device time runs at (R107). -/
def Clock.ppbInUse (c : Clock) : Int :=
  if !c.refValid && c.mode == .holdover then c.lockedPpb else c.ratePpb

/-- R107: the interval that `raw` nanoseconds counted on the oscillator at its nominal frequency last at the frequency in use. -/
def Clock.timed (c : Clock) (raw : Nat) : Nat := raw * 1000000000 / (1000000000 + c.ppbInUse).toNat

/-- The whole second nearest to a device time, in ns. -/
def nearestSecond (t : Int) : Int := (2 * t + 1000000000) / 2000000000 * 1000000000

/-- The correction of the running tick: what it is longer than nominal (R56). -/
def Clock.slew (c : Clock) : Int := (c.lastLen : Int) - nominalLen c.tick

/-- R656, R657: an accepted edge measures the phase error, anchors u_dev and predicts later edges. The slewing of the
running tick that precedes the edge is not counted off the error measured, so it is added back here. -/
def Clock.accept (c : Clock) (after : Nat) : Clock :=
  let t := c.devTimeAt after
  let e := t - nearestSecond t
  { c with
    lastAccepted := some (c.ocxoNs + after), edgeErr := some e,
    phaseErr := e + c.slew * after / max 1 c.lastLen,
    anchor := if c.mode == .freeRun && c.todLoaded then some { ocxoNs := c.ocxoNs + after, uA := 20 * 10 ^ 10 }
              else c.anchor }

/-- R102, R105: an armed time-of-day is loaded at an edge; the step is applied at the next commit. -/
def Clock.load (c : Clock) (after : Nat) : Clock :=
  match c.armed with
  | some a =>
    { c with armed := none, loaded := some { step := (a.value : Int) - nearestSecond (c.devTimeAt after), head := a.head },
             anchor := some { ocxoNs := c.ocxoNs + after, uA := 20 * 10 ^ 10 } }
  | none => c

/-- R657: the deviation of an edge at OCXO time `t` from its prediction. -/
def Clock.deviation (c : Clock) (t : Nat) : Int :=
  let d : Int := (t : Int) - (c.lastAccepted.getD t : Nat)
  d - nearestSecond d

/-- R657, R111, Table 3.2: an edge of a valid PPS is accepted, held or rejects the PPS. The answer says whether it was
accepted. The edge that rejects the PPS counts as the first towards its requalification (log entry 159). -/
def Clock.judgeValid (c : Clock) (after : Nat) : Clock × Bool :=
  let t := c.ocxoNs + after
  let dev := c.deviation t
  if 20000 < dev.natAbs then ({ c.dropPps 0x0103 with ppsRun := 1 }, false)
  else
    let c := { c with lastNear := some t }
    if dev.natAbs ≤ 50 then (c.endEvaluation.accept after, true)
    else if c.held.any (fun h => 50 < (dev - h).natAbs) then ({ c.endEvaluation with held := [dev] }, false)
    else if c.held.length == 2 then ((({ c with held := [] }).note 0x0105 dev).accept after, true)
    else ({ c with held := c.held ++ [dev] }, false)

/-- R112: an edge of a PPS that is not valid counts towards requalification; the third in a row is accepted. -/
def Clock.judgeInvalid (c : Clock) (after : Nat) : Clock × Bool :=
  let t := c.ocxoNs + after
  let spaced := match c.lastEdge with
    | some e => decide (((t : Int) - e - 1000000000).natAbs ≤ 20000)
    | none => false
  let run := if spaced then c.ppsRun + 1 else 1
  if 3 ≤ run then (({ c with ppsValid := true, ppsRun := 0, lastNear := some t }).accept after, true)
  else ({ c with ppsRun := run }, false)

/-- R97, R657: a PPS edge. The edge that completes a requalification is the first at which the reference is valid (log entry 159). -/
def Clock.ppsEdge (c : Clock) (i : PpsIn) : Clock :=
  if i.widthNs < 100 then c
  else
    let wasValid := c.ppsValid
    let after := c.timed i.afterEdgeNs
    let c := c.measure i.ocxoPpb
    let r := if c.ppsValid then c.judgeValid after else c.judgeInvalid after
    let c := if r.2 || !wasValid then r.1.load after else r.1
    { c with lastEdge := some (c.ocxoNs + after),
             lockRun := if c.refValid && c.ppsValid then min 3 (c.lockRun + 1) else 0 }

/-- Table 3.2, loss of PPS: no edge of at most 20 us deviation within 1.000002 s of the previous one. -/
def Clock.ppsLost (c : Clock) (after : Nat) : Clock :=
  match c.lastNear with
  | some t => if c.ppsValid && t + 1000002000 ≤ c.ocxoNs + after then c.dropPps 0x0102 else c
  | none => c

/-! ### What a commit does to the clock -/

/-- Entry conditions of LOCKED (Table 3.1). -/
def Clock.lockable (c : Clock) : Bool :=
  c.refValid && c.ppsValid && 3 ≤ c.lockRun && c.todLoaded && match c.edgeErr with
    | some e => decide (e.natAbs ≤ 20)
    | none => false

/-- R55-R59, R656: the next tick edge. The ended tick's slewing is done; the new tick is lengthened or shortened towards a
phase error of 0 while the PPS is valid, by at most 1,666 ns. -/
def Clock.advance (c : Clock) : Clock :=
  let err := c.phaseErr - c.slew
  let corr : Int := if c.ppsValid then max (-1666) (min 1666 err) else 0
  { c with
    tick := c.tick + 1, twin := c.twin + 1, ocxoNs := c.ocxoNs + c.lastLen, phaseErr := err,
    lastLen := ((nominalLen (c.tick + 1) : Int) + corr).toNat,
    lockedTicks := if c.mode == .locked then c.lockedTicks + 1 else c.lockedTicks }

/-- R102, R105: a loaded time-of-day is applied. -/
def Clock.applyLoad (c : Clock) : Clock :=
  match c.loaded with
  | some l =>
    let c := { c with loaded := none, todValid := true, todLoaded := true, stepTotal := c.stepTotal + l.step }
    if l.step = 0 then c else { c.note 0x0100 l.step with steppedUntil := some (c.tick + 600) }
  | none => c

/-- Table 3.1: HOLDOVER becomes FREE-RUN, anchored at its u_dev without the slewing term, which R109 goes on adding (log entry 160). -/
def Clock.leaveHoldover (c : Clock) : Clock :=
  { c.note 0x0107 0 with
    mode := .freeRun, holdoverAt := none, expired := false,
    anchor := some { ocxoNs := c.ocxoNs, uA := ({ c with phaseErr := 0 }).uDev.getD 0 } }

/-- R106, Table 3.1: the state changes at a commit only. Until a measurement completes while LOCKED, the frequency in use on entry
stands for the one held (R107, log entry 161). -/
def Clock.transition (c : Clock) : Clock :=
  if c.leaveLocked then
    { c with leaveLocked := false, expired := false, mode := if c.mode == .locked then .holdover else c.mode,
             holdoverAt := if c.mode == .locked then some c.ocxoNs else c.holdoverAt }
  else if c.mode != .locked && c.lockable then
    { c.note 0x0106 0 with mode := .locked, expired := false, lockedPpb := c.ratePpb }
  else if c.mode == .holdover && c.expired then c.leaveHoldover
  else { c with expired := false }

/-- STATE of Table 3.3. -/
def modeCode : TimeMode → Nat
  | .freeRun => 0
  | .holdover => 1
  | .locked => 2

/-- R114, R652: the time events of a commit. Those that give the cause of a transition go to every sealed function, the
others to the PF; DETAIL gives the old and new states (Table 20.1). -/
def State.raiseTimeNotes (s : State) (old : TimeMode) : State :=
  let c := s.clk
  let changed := old != c.mode
  let s := { s with clk := { c with notes := [] } }
  c.notes.foldl (fun s n =>
    let d := le 1 (modeCode old) ++ le 1 (modeCode c.mode) ++ zeroes 6 ++ leS 8 n.value
    let causes := [0x0101, 0x0102, 0x0103, 0x0106, 0x0107].contains n.code
    if changed && causes then s.raiseAll s.sealedFns n.code d else s.raise pfFn n.code d) s
where
  zeroes (n : Nat) : List Byte := List.replicate n 0

/-- The TIME_SET at work that a header names. -/
def State.timeSetWork? (s : State) (head : Option CmdHead) : Option Work :=
  head.bind (fun h => s.host.works.find? (fun (w : Work) => w.kind == .timeSet && w.head == h))

/-- Completes a TIME_SET in the current commit (R102, R104). -/
def State.endTimeSet (s : State) (head : Option CmdHead) (a : Answer) : State :=
  match s.timeSetWork? head with
  | some w => s.finishNow w a
  | none => s

/-- R616: the response to an SMBus TOD_ARM (vendor command 0x01), from an MMC that serves requests. -/
def State.answerTod (s : State) (code : Nat) : State :=
  if s.mmc.state == .serving then
    { s with mmc := { s.mmc with response := some { smbus := true, msgType := 0x7E, command := 0x01, code := code, data := [] } } }
  else s


/-- The time-unit part of a commit's apply step: loads (R102), the state (R106) and its events (R114). -/
def State.timeCommit (s : State) : State :=
  let s := match s.clk.loaded with
    | some l => s.endTimeSet l.head ok
    | none => s
  let old := s.clk.mode
  let s := { s with clk := s.clk.applyLoad.transition }
  s.raiseTimeNotes old

/-- R104: ends the arming that a later one replaces: its TIME_SET completes, or its SMBus response is sent. -/
def State.supersede (s : State) : State :=
  match s.clk.armed with
  | some a => if a.head.isSome then s.endTimeSet a.head (failWith .superseded) else s.answerTod 5
  | none => s

/-- R102, R104: arms a time-of-day at the current commit. -/
def State.arm (s : State) (value : Nat) (head : Option CmdHead) : State :=
  let s := s.supersede
  { s with clk := { s.clk with armed := some { value := value, head := head, atNs := s.clk.ocxoNs } } }

/-- R104, 18:R617: the SMBus value received takes effect after the commands of the commit. -/
def State.armFromMmc (s : State) : State :=
  match s.clk.fromMmc with
  | some v => let s := s.arm v none
              { s with clk := { s.clk with fromMmc := none } }
  | none => s

/-! ### The rows -/

/-- PPS_EDGE (R657). The time unit runs while the die does; an SMBus arming that the edge loads is answered (R616). -/
def execPpsEdge (i : PpsIn) (s : State) : Out :=
  .next (if s.boot.running then
    let s' := { s with clk := s.clk.ppsEdge i }
    if s.clk.armed.any (fun a => a.head.isNone) && s'.clk.armed.isNone then s'.answerTod 0 else s'
  else s)

/-- TIME_REF_LOSS_10M (R110): fewer than 16 rising edges in a 2 us window. -/
def execTimeRefLoss10m (i : RefWindowIn) (s : State) : Out :=
  .next (if s.boot.running && i.edges < 16 then { s with clk := s.clk.dropRef 0x0101 } else s)

/-- TIME_REF_LOSS_PPS (R110). -/
def execTimeRefLossPps (i : AfterEdgeIn) (s : State) : Out :=
  .next (if s.boot.running then { s with clk := s.clk.ppsLost (s.clk.timed i.afterEdgeNs) } else s)

/-- TIME_RATE_REJECT (R110): 10 MHz outside 20 ppm, or a PPS edge whose deviation exceeds 20 us. -/
def execTimeRateReject (i : RateRejectIn) (s : State) : Out :=
  .next (if s.boot.running then
    match i with
    | .tenMHz ppb => if 20000 < ppb.natAbs then { s with clk := s.clk.dropRef 0x0103 } else s
    | .pps dev => if 20000 < dev.natAbs then { s with clk := s.clk.dropPps 0x0103 } else s
  else s)

/-- TIME_HOLDOVER_EXPIRED (Table 3.1): HOLDOVER will have lasted 600 s at the coming edge; its commit makes the transition, raises the
event and updates the Hallmark status entry (R106, R114), unless LOCKED is entered there. -/
def execTimeHoldoverExpired (s : State) : Out :=
  .next (match s.clk.holdoverAt with
    | some t =>
      if s.boot.running && s.clk.mode == .holdover && t + 600000000000 ≤ s.clk.ocxoNs + s.clk.lastLen then
        { s with clk := { s.clk with expired := true } }
      else s
    | none => s)

/-- STEPPED_CLEAR (R105), at the coming commit: 600 ticks after a step. -/
def execSteppedClear (s : State) : Out :=
  .next (match s.clk.steppedUntil with
    | some n => if n ≤ s.clk.tick + 1 then { s with clk := { s.clk with steppedUntil := none } } else s
    | none => s)

/-- NO_REFERENCE (R103): no PPS edge has come within 1.000002 s of the arming; the TIME_SET completes at the coming commit, or the
SMBus response is sent. -/
def execNoReference (i : AfterEdgeIn) (s : State) : Out :=
  .next (match s.clk.armed with
    | some a =>
      if a.atNs + 1000002000 ≤ s.clk.ocxoNs + s.clk.timed i.afterEdgeNs then
        let s := { s with clk := { s.clk with armed := none } }
        if a.head.isNone then s.answerTod 4
        else match s.timeSetWork? a.head with
          | some w => s.finishWork w (failWith .noReference)
          | none => s
      else s
    | none => s)

/-- MEASUREMENT_WINDOW (R98, R107): a 1 s window while PPS is absent. -/
def execMeasurementWindow (i : MeasureIn) (s : State) : Out :=
  .next (if s.boot.running && !s.clk.ppsValid then { s with clk := s.clk.measure (some i.ocxoPpb) } else s)

end Sys2Proof.Machine
end

