-- ==== Sys2Proof/Machine/Rings.lean ====
section
/-! DEFINITION. Doorbells, acceptance of commands, stopped rings and the event rings (06_rings_commands.md). -/

namespace Sys2Proof.Machine

/-! ### Doorbells (R212-R216) -/

/-- R212: the value a write of a size at an offset within a slot carries; none for a write that R212 does not allow. -/
def doorbellValue (i : DoorbellIn) : Option U64 :=
  if i.size == 8 && i.offset == 0 then some i.value
  else if i.size == 4 && i.offset == 0 then some (BitVec.ofNat 64 (i.value.toNat % 2 ^ 32))
  else none

/-- How far an INDEX is ahead of an absolute count, modulo the entry count (R204). -/
def Queue.ahead (q : Queue) (count index : Nat) : Nat := (index + q.entries - count % q.entries) % q.entries

/-- The index a doorbell moves: the producer's of a host-produced ring, else the consumer's (Table 6.3). -/
def Queue.dbTarget (q : Queue) (index : Nat) : Nat :=
  if q.hostProduced then q.prod + q.ahead q.prod index else q.cons + q.ahead q.cons index

/-- Check 6 of Table 6.4. -/
def Queue.dbFits (q : Queue) (index : Nat) : Bool :=
  if q.hostProduced then decide (q.dbTarget index - q.cons ≤ q.entries - 1) else decide (q.dbTarget index ≤ q.prod)

/-- Table 6.4: the code of the first failing check, 0 when every one passes. -/
def doorbellCheck (q : Option Queue) (slot quota : Nat) (v : U64) (sized : Bool) : Nat :=
  match q with
  | none => 1
  | some q =>
    if quota ≤ slot then 1
    else if dbCheck v != q.id then 2
    else if dbReserved v then 3
    else if q.entries ≤ dbIndex v then 4
    else if q.stopped then 5
    else if !q.dbFits (dbIndex v) then 6
    else if !sized then 7
    else 0

/-- R214-R216: an accepted doorbell received in tick `tick` at device time `time`. -/
def Queue.ring (q : Queue) (v : U64) (tick : Nat) (time : Int) : Queue :=
  let t := q.dbTarget (dbIndex v)
  let q := if dbWake v && q.vector.isSome then { q with wakes := if q.hostProduced then q.wakes ++ [t] else [t] } else q
  if q.hostProduced then
    { q with prod := t, bells := if q.qtype == .ingest && t != q.prod then q.bells ++ [{ upTo := t, tick := tick, time := time }] else q.bells }
  else { q with cons := t }

/-- R213: counts a discarded doorbell on its slot. Of several with different codes since the last event, the first one's is reported (log
entry 166). -/
def FnState.reject (x : FnState) (slot code : Nat) : FnState :=
  if x.rejects.any (fun r => r.slot == slot) then
    { x with rejects := updWhere (fun r => r.slot == slot) (fun r => { r with count := r.count + 1 }) x.rejects }
  else { x with rejects := x.rejects ++ [{ slot := slot, code := code, count := 1 }] }

/-- DOORBELL (R212). -/
def execDoorbell (i : DoorbellIn) (s : State) : Out :=
  .next (
    if i.poisoned || !s.barOpen i.fn then s.logWrite i.fn i.poisoned
    else if !(s.fnSt i.fn).sealed || !s.isReady then s.modFn i.fn (fun x => { x with dbDiscarded := true })
    else
      let v := (doorbellValue i).getD i.value
      let slot := i.slot.toNat
      let code := doorbellCheck (s.queue? i.fn slot) slot (s.quotaOf i.fn) v (doorbellValue i).isSome
      if code = 0 then s.modQueue i.fn slot (fun q => q.ring v s.clk.tick (s.clk.devTimeAt (s.clk.timed i.afterEdgeNs)))
      else s.modFn i.fn (fun x => x.reject slot code))

/-- R213: at a commit, one DOORBELL_REJECTED per slot that discarded doorbells. -/
def State.reportRejects (s : State) : State :=
  allFns.foldl (fun s f =>
    let rs := (s.fnSt f).rejects
    let s := s.modFn f (fun x => { x with rejects := [] })
    rs.foldl (fun s r => s.raiseSlot f 0x0003 r.slot (le 1 r.code ++ le 3 0 ++ le 4 r.count)) s) s

/-! ### Fetching commands (R186, R231) -/

/-- Why a read fails (Table 5.12): a poisoned completion, or none in time. -/
inductive ReadFailure where
  | poisoned | timeout
  deriving DecidableEq, Repr

/-- R174, R186: a read of a function failed: FETCH_ERROR sets, and the error is logged. -/
def State.readFailed (s : State) (f : Fn) (why : ReadFailure) : State :=
  (s.modFn f (fun x => { x with fetchError := true })).logError f (match why with
    | .poisoned => aerPoisoned
    | .timeout => aerTimeout)

/-- R186, R231: a descriptor fetch that failed stops the ring; the event's code is 1 for poisoned, 2 for a timeout. -/
def State.stopRing (s : State) (f : Fn) (slot : Nat) (why : ReadFailure) : State :=
  let s := (s.modQueue f slot (fun q => { q with stopped := true })).readFailed f why
  s.atNext (fun s => s.raiseSlot f 0x0006 slot (le 1 (match why with
    | .poisoned => 1
    | .timeout => 2)))

/-- A ring of a sealed function whose descriptors the module fetches (R176, R177, R190, R231). -/
def State.fetches (s : State) (f : Fn) (q : Queue) : Bool :=
  s.isReady && (s.fnSt f).sealed && s.mayIssue f && !q.stopped && q.hostProduced && q.fetchPos < q.prod

/-- A command descriptor returns from host memory. -/
def Queue.fetchCommand (q : Queue) (f : Fn) (bs : List Byte) : Queue :=
  let h := parseHead f q.slot bs
  { q with fetchPos := q.fetchPos + 1,
           fetched := q.fetched ++ [{ pos := q.fetchPos, head := h, opcode := BitVec.ofNat 8 (rd bs 0 1),
                                      body := parseCommand (fit 64 bs) [] }] }

/-! ### Acceptance (R69, R221, R222, R224, R229) -/

/-- R229: the source data a command names joins it; the answer gives the sources left. -/
def withSource (b : CmdBody) (sources : List (List Byte)) : CmdBody × List (List Byte) :=
  match b with
  | .cmd (.tableWrite p) r => (.cmd (.tableWrite { p with data := sources.headD [] }) r, sources.tail)
  | .cmd (.fwDownloadChunk p) r => (.cmd (.fwDownloadChunk { p with data := sources.headD [] }) r, sources.tail)
  | b => (b, sources)

/-- R224: every earlier command of the ring is complete and its completion written. -/
def State.fenceOpen (s : State) (q : Queue) (pos : Nat) : Bool :=
  q.cons == pos && !s.host.completions.any (fun c => c.fn == q.fn && c.body.sqSlot.toNat == q.slot)

/-- Completions formed for a completion ring and not yet written. -/
def State.unwritten (s : State) (ring : Nat) : Nat := (s.host.completions.filter (fun c => c.ring == ring)).length

/-- The completion ring paired with a command ring, when it has a slot left to reserve (R222). -/
def State.canReserve (s : State) (f : Fn) (q : Queue) : Option Queue :=
  (q.paired.bind (s.queue? f)).filter (fun c => decide (c.reserved + s.unwritten c.id < c.room))

/-- R187, R229: the module may read what a command names: its source is read between acceptance and effect. -/
def State.sourceReadable (s : State) (f : Fn) : CmdBody → Bool
  | .cmd (.tableWrite _) _ => s.mayIssue f
  | .cmd (.fwDownloadChunk _) _ => s.mayIssue f
  | _ => true

/-- Accepts the commands of one ring in ring order, at most `n` of them. -/
def State.acceptRing : Nat → Fn → Nat → Nat → List (List Byte) → State → State
  | 0, _, _, _, _, s => s
  | n + 1, f, slot, due, sources, s =>
    match s.queue? f slot with
    | none => s
    | some q =>
      match q.fetched with
      | [] => s
      | c :: rest =>
        match s.canReserve f q with
        | none => s
        | some done =>
          if 64 ≤ (s.fnSt f).acceptedNow || !s.sourceReadable f c.body || (headFence c.head && !s.fenceOpen q c.pos) then s
          else
            let r := withSource c.body sources
            let s := s.modQueue f slot (fun q => { q with fetched := rest })
            let s := s.modQueueId done.id (fun q => { q with reserved := q.reserved + 1 })
            let s := s.modFn f (fun x => { x with acceptedNow := x.acceptedNow + 1 })
            let s := s.withHost { s.host with accepted := s.host.accepted ++
              [{ at_ := { queue := q.id, pos := c.pos, done := done.id }, due := due, head := c.head, opcode := c.opcode, body := r.1 }] }
            State.acceptRing n f slot due r.2 s

/-- COMMAND_ACCEPT (R221, R69). -/
def execCommandAccept (i : AcceptIn) (s : State) : Out :=
  .next (
    match s.queue? i.fn i.slot.toNat with
    | some q =>
      if s.isReady && (s.fnSt i.fn).sealed && !(s.fnSt i.fn).resetBusy && !q.stopped && q.qtype == .command then
        s.acceptRing q.fetched.length i.fn i.slot.toNat (s.rwcDue i.toEdgeNs) i.sources
      else s
    | none => s)

/-! ### Event rings (R209, R242, R243) -/

/-- An event as an entry of the ring at a position. -/
def State.eventAt (s : State) (q : Queue) (pos : Nat) (e : Event) : Posted :=
  .event q.fn (pos % q.entries) (s.entryAddr q pos) (q.phaseAt pos) e

/-- R185, R187, R209: how many entries the module may write to a ring now. -/
def State.writable (s : State) (q : Queue) : Nat :=
  if s.mayIssue q.fn && (s.fnSt q.fn).sealed && s.ringReached q then q.room else 0

/-- R184, R185: a write to a ring that its windows do not take faults. -/
def State.ringFault (s : State) (q : Queue) : State :=
  if s.mayIssue q.fn && (s.fnSt q.fn).sealed && !s.ringReached q then
    s.addressFault q.fn q.slot (q.base + 64 * (q.prod % q.entries)) true
  else s

/-- R243: the EVENTS_LOST event, written before the events still held. -/
def FnState.lostEvent (x : FnState) (s : State) : Event :=
  { code := 0x0001, severity := 1, slot := 0xFFFF, stream := 0xFFFF, tick := s.clk.tick, devTime := s.clk.devTime,
    tstate := s.clk.stateByte, node := 0xFF, seq := (x.eventSeq + 1) % 2 ^ 32, detail := detail28 (le 4 x.eventDropped) }

/-- EVENTS_LOST (R243): at the first commit at which the ring has room after events were dropped. -/
def State.writeLost (s : State) (f : Fn) : State :=
  let x := s.fnSt f
  match s.queue? f 2 with
  | some q =>
    if x.eventDropped = 0 || s.writable q = 0 then s
    else
      let e := x.lostEvent s
      let s := s.modFn f (fun x => { x with eventDropped := 0, eventSeq := e.seq })
      let s := s.modQueue f 2 (fun q => { q with prod := q.prod + 1 })
      s.withHost { s.host with issue := s.host.issue ++ [s.eventAt q q.prod e] }
  | none => s

/-- Writes the held events of a function as far as the ring has room; of those left it holds the 64 oldest and drops the
rest (R242). -/
def State.writeEvents (s : State) (f : Fn) : State :=
  let s := s.writeLost f
  let held := (s.fnSt f).eventHeld
  match s.queue? f 2 with
  | some q =>
    let n := min held.length (s.writable q)
    let s := s.modFn f (fun x => { x with
      eventHeld := (held.drop n).take 64, eventDropped := x.eventDropped + ((held.drop n).drop 64).length })
    let s := s.modQueue f 2 (fun q => { q with prod := q.prod + n })
    s.withHost { s.host with issue := s.host.issue ++
      (held.take n).zipIdx.map (fun (e, i) => s.eventAt q (q.prod + i) e) }
  | none => s.modFn f (fun x => { x with
      eventHeld := held.take 64, eventDropped := x.eventDropped + (held.drop 64).length })

/-- The audit counters of the latest commit change places with those of the coming one. -/
def Queue.swapAudit (q : Queue) : Queue := { q with audit := q.auditNext, auditNext := q.audit }

/-- A part of the coming commit's issue step as a step of its own: its writes stand first in that issue step. -/
def State.issueAhead (s : State) (f : State → State) : State :=
  let before := s.host.issue
  let r := (s.withHost { s.host with issue := s.host.ahead, queues := s.host.queues.map Queue.swapAudit }).atNext f
  r.withHost { r.host with ahead := r.host.issue, issue := before, queues := r.host.queues.map Queue.swapAudit }

/-- EVENTS_LOST as a step of its own (R243), of the coming commit. -/
def execEventsLost (i : FnIn) (s : State) : Out := .next (if s.isReady then s.issueAhead (fun s => s.writeLost i.fn) else s)

end Sys2Proof.Machine
end

