-- ==== Sys2Proof/Machine/Commands.lean ====
section
/-! DEFINITION. Running a ring command in the apply step (R223, R226, R227), and the commands that configure tenants,
partitions, queues, clasps and time (06_rings_commands.md, 01_module_tray_die.md). -/

namespace Sys2Proof.Machine

/-- What a command does: the state it leaves, and its answer; a Work command that has begun answers later (R225). -/
abbrev CmdEffect := State → State × Option Answer

/-- R227: what completes a command without effect whatever the state of its objects: of its fields and the reserved bytes, the lowest
faulty offset. -/
def State.wireFault (s : State) (h : CmdHead) (c : RingCmd) (reserved : Option Nat) : Option Answer :=
  lowerFault (cmdFault h.fn (s.quotaOf h.fn) c) reserved

/-- R226, R234, R236: a SIGNAL names a clasp of the function that host software may signal. -/
def State.headFault (s : State) (h : CmdHead) : Option Answer :=
  if headSignal h then
    match s.claspOf (h.doneClasp.toNat % 8192) with
    | some c => if c.fn != h.fn then some (failAt .notFound 4)
                else if c.retire then some (failAt .notPermitted 4) else none
    | none => some (failAt .notFound 4)
  else none

/-- R223, R226, R227: one command in the apply step of the current commit. `pos` is its place when it came through its command ring. -/
def State.runRing (s : State) (h : CmdHead) (c : RingCmd) (reserved : Option Nat) (pos : Option RingPos) (eff : CmdEffect) : State :=
  match s.wireFault h c reserved with
  | some a => s.complete h (opcodeOf c) pos a
  | none =>
    match s.headFault h with
    | some a => s.complete h (opcodeOf c) pos a
    | none =>
      match eff s with
      | (s, some a) => s.complete h (opcodeOf c) pos a
      | (s, none) => s

/-- A ring command reaches the module only from a sealed function of a READY module (R177, Table 17.6). -/
def State.takesCommands (s : State) (f : Fn) : Bool := s.isReady && (s.fnSt f).sealed

/-- A ring command as a step of its own, in the apply step of the coming commit, which writes its completion (log entry 1). -/
def State.ringRow (s : State) (h : CmdHead) (c : RingCmd) (eff : CmdEffect) : Out :=
  .next (if s.takesCommands h.fn then s.atNext (fun s => s.runRing h c (rowReserved h c) none eff) else s)

/-- R228: a tenant address of a command that no window takes completes it with ADDRESS_FAULT, in addition to R184. -/
def State.cmdAddress (s : State) (f : Fn) (slot a n : Nat) (writing : Bool) (offset : Nat) (rest : CmdEffect) :
    State × Option Answer :=
  if s.reaches f a n writing then rest s
  else (s.addressFault f slot a writing, some (failAt .addressFault offset))

/-- A command refused without effect. -/
def refuse (s : State) (st : Status) : State × Option Answer := (s, some (failWith st))

/-! ### TENANT_CONFIGURE (R39, R41, R72, R80, R202) -/

/-- R80, R234: a clasp ID that no clasp holds. -/
def State.freeClasp (s : State) : Option Nat := lowestFree (fun i => s.host.clasps.any (fun c => c.id == i)) 0 8192

/-- R80: the epoch-retirement clasp of a tenant mapped for the first time, with value 1. -/
def State.addRetireClasp (s : State) (t : Tenant) : State :=
  match s.freeClasp with
  | some id =>
    let s := s.withHost { s.host with clasps := s.host.clasps ++
      [{ id := id, fn := fnOf t, value := 1, latched := 1, mirror := 0, threshold := none, vector := none, retire := true,
         changed := false }] }
    s.modTenant t (fun x => { x with retireClasp := some id })
  | none => s

def State.tenantHasWork (s : State) (t : Tenant) : Bool :=
  s.work.streams.any (fun x => x.fn == fnOf t) || s.work.models.any (fun m => m.fn == fnOf t)

def applyTenantConfigure (p : TenantConfigureP) : CmdEffect := fun s =>
  if h : p.tenant.toNat < 16 then
    let t : Tenant := ⟨p.tenant.toNat, h⟩
    let quota := if p.queueQuota.toNat = 0 then 1024 else p.queueQuota.toNat
    if partCount s.work.startMask ≤ p.partition.toNat then refuse s .notFound
    else if s.tenantHasWork t then refuse s .partitionBusy
    else if s.host.queues.any (fun q => q.fn == fnOf t && quota ≤ q.slot) then refuse s .quotaExceeded
    else
      let first := !(s.tenantSt t).configured
      let s := s.modTenant t (fun x => { x with configured := true, partition := p.partition.toNat, quota := quota })
      let s := if first then (s.modTenant t (fun x => { x with tableEpoch := 1 })).addRetireClasp t else s
      (s, some (okWith (le 2 ((s.tenantSt t).retireClasp.getD 0xFFFF))))
  else (s, some (failAt .invalidField 8))

/-- TENANT_CONFIGURE. -/
def execTenantConfigure (h : CmdHead) (p : TenantConfigureP) (s : State) : Out :=
  s.ringRow h (.tenantConfigure p) (applyTenantConfigure p)

/-! ### PARTITION_PLAN (R32, R40, R42, R43, R48, R415, R478) -/

/-- Rows whose partition a plan changes. -/
def changedRows (old new : BitVec 8) : List Nat :=
  (List.range 8).filter (fun r => partRows old (partOfRow old r) != partRows new (partOfRow new r))

/-- R43: the partition that holds the lowest row of a partition under another plan. -/
def remap (old new : BitVec 8) (p : Nat) : Nat := partOfRow new (partFirstRow old p)

/-- R40: a partition one of whose rows a plan gives to another set of rows. -/
def State.partChanges (s : State) (new : BitVec 8) (p : Nat) : Bool :=
  (s.rowsOf p).any (fun r => (changedRows s.work.startMask new).contains r)

/-- R40: an open stream is served by such rows: one of this module, or one of another module whose share (14:R510) the partition of its
tenant serves here. -/
def State.planBusy (s : State) (new : BitVec 8) : Bool :=
  s.work.streams.any (fun x => s.partChanges new (s.partOf x.fn)) ||
    s.chain.grants.any (fun g => s.partChanges new (s.partOf (fnOfHandle g.handle)))

def State.planLacksCluster (s : State) (new : BitVec 8) : Bool :=
  (List.range (partCount new)).any (fun p => !(partRows new p).any (fun r => s.available .controlCluster r))

def State.planDropsTenant (s : State) (new : BitVec 8) : Bool :=
  allTenants.any (fun t => (s.tenantSt t).configured &&
    !new.getLsbD (partFirstRow s.work.startMask (s.tenantSt t).partition))

/-- R42, R43, R478: a plan takes effect. -/
def State.installPlan (s : State) (new : BitVec 8) : State :=
  let old := s.work.startMask
  let same (l : Nat × Nat × Level) : Bool := partRows old l.1 == partRows new (remap old new l.1)
  let ts := s.work.tenants.map (fun x => { x with partition := remap old new x.partition })
  { s with
    work := { s.work with startMask := new, routeEpoch := s.work.routeEpoch + 1, tenants := ts,
                          overcommitted := s.work.overcommitted.map (fun x => (remap old new x.1, x.2)) },
    pools := { s.pools with
      levels := (s.pools.levels.filter same).map (fun l => (remap old new l.1, l.2)),
      closed := s.pools.closed.map (fun c => { c with partition := remap old new c.partition }) },
    safety := { s.safety with halts := s.safety.halts.map (fun h => { h with partition := remap old new h.partition }) },
    fab := { s.fab with draining := changedRows old new, planCommit := some s.clk.tick } }

def applyPartitionPlan (p : PartitionPlanP) : CmdEffect := fun s =>
  if s.planBusy p.startMask then refuse s .partitionBusy
  else if s.planLacksCluster p.startMask then refuse s .unitUnavailable
  else if s.planDropsTenant p.startMask then refuse s .invalidState
  else
    let s := s.installPlan p.startMask
    (s, some (okWith (le 4 s.work.routeEpoch)))

/-- PARTITION_PLAN. -/
def execPartitionPlan (h : CmdHead) (p : PartitionPlanP) (s : State) : Out :=
  s.ringRow h (.partitionPlan p) (applyPartitionPlan p)

/-! ### QUEUE_CREATE, QUEUE_DESTROY (R199-R203) -/

def queueTypeOf (c : Nat) : QueueType :=
  if c = 1 then .ingest else if c = 2 then .command else if c = 3 then .completion else if c = 4 then .metadata
  else if c = 5 then .event else .sample

/-- R201, R203: an ID that no queue holds, that is not reserved for an admin queue and that was not freed within 600
ticks. -/
def State.idTaken (s : State) (id : Nat) : Bool :=
  s.host.queues.any (fun q => q.id == id) || (0x30 ≤ id && id < 0x63) ||
    s.host.freedIds.any (fun x => x.1 == id && s.clk.tick ≤ x.2 + 600)

def State.freeId (s : State) : Option Nat := lowestFree s.idTaken 0 16384

/-- The queues of a function count its three admin queues whether or not they stand (R202, R203). -/
def State.queueCount (s : State) (f : Fn) : Nat :=
  3 + (s.host.queues.filter (fun q => q.fn == f && 3 ≤ q.slot)).length

def State.isCompletionRing (s : State) (f : Fn) (slot : Nat) : Bool :=
  match s.queue? f slot with
  | some q => q.qtype == .completion
  | none => false

def newQueue (f : Fn) (p : QueueCreateP) (id : Nat) : Queue :=
  { fn := f, slot := p.slot.toNat, qtype := queueTypeOf p.queueType.toNat, id := id, log2 := p.log2Entries.toNat,
    base := p.base.toNat, indexAddr := p.indexAddr.toNat,
    vector := if p.msixVector == 0xFFFF then none else some p.msixVector.toNat,
    paired := if p.queueType == 2 then some p.pairedSlot.toNat else none, prod := 0, cons := 0, shown := 0, fetchPos := 0,
    stopped := false, wakes := [], bells := [], fetched := [], donePos := [], reserved := 0, recordSeq := 0, gaps := [],
    missedRetractions := [], audit := RingAudit.zero, auditNext := RingAudit.zero }

def applyQueueCreate (h : CmdHead) (p : QueueCreateP) : CmdEffect := fun s =>
  let slot := p.slot.toNat
  let writing := p.queueType != 1 && p.queueType != 2
  if (s.queue? h.fn slot).isSome then refuse s .queueBusy
  else if s.quotaOf h.fn ≤ s.queueCount h.fn then refuse s .quotaExceeded
  else match s.freeId with
    | none => refuse s .noResources
    | some id =>
      if p.queueType == 2 && !s.isCompletionRing h.fn p.pairedSlot.toNat then refuse s .notFound
      else s.cmdAddress h.fn slot p.base.toNat (64 * 2 ^ p.log2Entries.toNat) writing 0x10 (fun s =>
        let make : CmdEffect := fun s =>
          (s.withHost { s.host with queues := s.host.queues ++ [newQueue h.fn p id] }, some (okWith (le 2 id)))
        if p.indexAddr == 0 then make s else s.cmdAddress h.fn slot p.indexAddr.toNat 8 true 0x18 make)

/-- QUEUE_CREATE. -/
def execQueueCreate (h : CmdHead) (p : QueueCreateP) (s : State) : Out :=
  s.ringRow h (.queueCreate p) (applyQueueCreate h p)

/-- A stream of tenant `owner` names tenant `t` as a subscriber. -/
def State.subscribes (s : State) (owner t : Tenant) : Bool :=
  s.work.streams.any (fun x => x.fn == fnOf owner && x.subscribers.contains t.val)

/-- Table 6.10: what binds a queue: a stream, a subscription, a sample session, or a command ring paired with it. -/
def State.queueBound (s : State) (f : Fn) (slot : Nat) : Bool :=
  s.work.streams.any (fun x => x.fn == f && (x.ingestSlot == slot || x.metadataSlot == slot)) ||
    s.work.sessions.any (fun x => x.fn == f && x.slot == slot) ||
    s.host.queues.any (fun q => q.fn == f && q.paired == some slot) ||
    match tenantOf f with
    | some t => allTenants.any (fun o => o != t && (nth 0xFFFF (s.tenantSt t).format.inbound o.val) == slot && s.subscribes o t)
    | none => false

/-- R201: removes a queue; its unconsumed entries are dropped, accepted commands that have not taken effect among them, and the completion
slots they had reserved are free again. Work that one of its commands has begun goes on and completes (log entry 168). -/
def State.dropQueue (s : State) (q : Queue) : State :=
  let mine := s.host.accepted.filter (fun a => a.at_.queue == q.id)
  let s := mine.foldl (fun s a => s.modQueueId a.at_.done (fun x => { x with reserved := x.reserved - 1 })) s
  s.withHost { s.host with
    queues := s.host.queues.filter (fun x => !(x.fn == q.fn && x.slot == q.slot)),
    accepted := s.host.accepted.filter (fun a => a.at_.queue != q.id),
    freedIds := (q.id, s.clk.tick) :: s.host.freedIds.filter (fun x => s.clk.tick ≤ x.2 + 600) }

def applyQueueDestroy (h : CmdHead) (p : SlotP) : CmdEffect := fun s =>
  match s.queue? h.fn p.slot.toNat with
  | none => refuse s .notFound
  | some q =>
    if s.queueBound h.fn p.slot.toNat || p.slot == h.slot then refuse s .queueBusy
    else (s.dropQueue q, some ok)

/-- QUEUE_DESTROY. -/
def execQueueDestroy (h : CmdHead) (p : SlotP) (s : State) : Out :=
  s.ringRow h (.queueDestroy p) (applyQueueDestroy h p)

/-! ### Clasps (R234-R238) -/

def vectorField (v : U16) : Option Nat := if v == 0xFFFF then none else some v.toNat

/-- R80, R234: a clasp fits beside one kept for every tenant not configured yet. -/
def State.claspFits (s : State) : Bool :=
  decide (s.host.clasps.length + (allTenants.filter (fun t => !(s.tenantSt t).configured)).length < 8192)

def applyClaspCreate (h : CmdHead) (p : ClaspCreateP) : CmdEffect := fun s =>
  match if s.claspFits then s.freeClasp else none with
  | none => refuse s .noResources
  | some id =>
    let make : CmdEffect := fun s =>
      (s.withHost { s.host with clasps := s.host.clasps ++
        [{ id := id, fn := h.fn, value := p.initial.toNat, latched := p.initial.toNat, mirror := p.mirrorAddr.toNat,
           threshold := if p.threshold == 0 then none else some p.threshold.toNat, vector := vectorField p.msixVector,
           retire := false, changed := false }] }, some (okWith (le 2 id)))
    if p.mirrorAddr == 0 then make s else s.cmdAddress h.fn 0xFFFF p.mirrorAddr.toNat 8 true 0x10 make

/-- CLASP_CREATE. -/
def execClaspCreate (h : CmdHead) (p : ClaspCreateP) (s : State) : Out :=
  s.ringRow h (.claspCreate p) (applyClaspCreate h p)

/-- R235: one signal; none when ADD would pass 2^64 - 1. -/
def Clasp.signal (c : Clasp) (p : ClaspSignalP) : Option Clasp :=
  if p.op == 0 then
    if 2 ^ 64 ≤ c.value + p.value.toNat then none else some (c.raiseTo (c.value + p.value.toNat))
  else if p.op == 1 then some (c.raiseTo p.value.toNat)
  else some { c with threshold := some p.value.toNat,
                     vector := if p.msixVector == 0xFFFF then c.vector else some p.msixVector.toNat,
                     mirror := if p.mirrorAddr == 0 then c.mirror else p.mirrorAddr.toNat }

/-- The clasp a command names, if its function owns it (R234). -/
def State.ownClasp? (s : State) (f : Fn) (id : Nat) : Option Clasp :=
  s.host.clasps.find? (fun c => c.id == id && c.fn == f)

def applyClaspSignal (h : CmdHead) (p : ClaspSignalP) : CmdEffect := fun s =>
  match s.ownClasp? h.fn p.clasp.toNat with
  | none => refuse s .notFound
  | some c =>
    if c.retire && p.op != 2 then refuse s .notPermitted
    else match c.signal p with
      | none => refuse s .claspOverflow
      | some c' =>
        let make : CmdEffect := fun s =>
          (s.modClasp c.id (fun _ => c'), some { okWith (le 8 c'.value) with clasp := some c.id })
        if p.op == 2 && p.mirrorAddr != 0 then s.cmdAddress h.fn 0xFFFF p.mirrorAddr.toNat 8 true 0x18 make else make s

/-- CLASP_SIGNAL. -/
def execClaspSignal (h : CmdHead) (p : ClaspSignalP) (s : State) : Out :=
  s.ringRow h (.claspSignal p) (applyClaspSignal h p)

/-- A command accepted and not yet completed names the clasp as its DONE_CLASP. -/
def State.claspAwaited (s : State) (f : Fn) (id : Nat) : Bool :=
  let names (h : CmdHead) : Bool := h.fn == f && headSignal h && h.doneClasp.toNat % 8192 == id
  s.host.accepted.any (fun a => names a.head) || s.host.works.any (fun w => names w.head) || s.host.ending.any (fun e => names e.1.head)

def applyClaspDestroy (h : CmdHead) (p : ClaspP) : CmdEffect := fun s =>
  match s.ownClasp? h.fn p.clasp.toNat with
  | none => refuse s .notFound
  | some c =>
    if c.retire then refuse s .notPermitted
    else if s.claspAwaited h.fn c.id || (headSignal h && h.doneClasp.toNat % 8192 == c.id) then refuse s .invalidState
    else (s.withHost { s.host with clasps := s.host.clasps.filter (fun x => x.id != c.id) }, some ok)

/-- CLASP_DESTROY. -/
def execClaspDestroy (h : CmdHead) (p : ClaspP) (s : State) : Out :=
  s.ringRow h (.claspDestroy p) (applyClaspDestroy h p)

/-! ### TIME_SET (R100-R104), NOP -/

/-- A Work command begins (R225). -/
def State.beginWork (s : State) (h : CmdHead) (op : Byte) (pos : Option RingPos) (k : WorkKind) : State :=
  s.withHost { s.host with works := s.host.works ++
    [{ head := h, opcode := op, pos := pos, kind := k, start := s.clk.tick }] }

/-- R102, R104: TIME_SET arms its value. -/
def applyTimeSet (h : CmdHead) (pos : Option RingPos) (p : TimeSetP) : CmdEffect := fun s =>
  let s := s.arm p.nextPpsTime.toNat (some h)
  (s.beginWork h 0x80 pos .timeSet, none)

/-- TIME_SET. -/
def execTimeSet (h : CmdHead) (p : TimeSetP) (s : State) : Out :=
  s.ringRow h (.timeSet p) (applyTimeSet h none p)

/-- R71: NOP changes nothing and completes. -/
def applyNop : CmdEffect := fun s => (s, some ok)

/-- NOP. -/
def execNop (h : CmdHead) (s : State) : Out := s.ringRow h .nop applyNop

end Sys2Proof.Machine
end

