-- ==== Sys2Proof/Machine/Firmware.lean ====
section
/-! DEFINITION. Firmware update (19_firmware_update.md): slots and images, the FW_* commands and the ends of their work, the boot-pointer
record, and what a loader boots. The PLDM path uses the same stages (R646). -/

namespace Sys2Proof.Machine

/-! ### Components and slots (R630, R633) -/

/-- Component 2 is the module firmware, 3 the MMC's. -/
def State.fw (s : State) (c : Nat) : FwComponent := if c = 3 then s.nor.mmc else s.nor.die

def State.modFw (s : State) (c : Nat) (g : FwComponent → FwComponent) : State :=
  if c = 3 then { s with nor := { s.nor with mmc := g s.nor.mmc } } else { s with nor := { s.nor with die := g s.nor.die } }

def FwComponent.slot (x : FwComponent) (n : Nat) : FwSlot := if n = 2 then x.slotB else x.slotA

def FwComponent.setSlot (x : FwComponent) (n : Nat) (g : FwSlot → FwSlot) : FwComponent :=
  if n = 2 then { x with slotB := g x.slotB } else { x with slotA := g x.slotA }

/-- The slot that is not running. -/
def FwComponent.idle (x : FwComponent) : Nat := 3 - x.running

def FwComponent.idleSlot (x : FwComponent) : FwSlot := x.slot x.idle

/-- Bytes of a slot. -/
def slotSize (c : Nat) : Nat := if c = 3 then 2 * 2 ^ 20 else 64 * 2 ^ 20

/-! ### Images (R632, Table 19.1) -/

def imageBytes (image : List Byte) : Nat := rd image 0x14 4

/-- MAGIC and HEADER_CRC are correct. -/
def headerOk (image : List Byte) : Bool :=
  let h := image.take 4096
  rd h 0 4 == 0x4D495746 && h.length == 4096 && rd h 0x1C 4 == crc32c (putAt h 0x1C (le 4 0))

/-- The signature over the image, with AUTO_CONFIRM taken as 0. -/
def signatureOk (image : List Byte) : Bool :=
  let n := imageBytes image
  decide (96 ≤ n) && decide (n ≤ image.length) &&
    Config.ecdsaVerify Config.bootRomKey ((putAt image 0x18 (le 4 0)).take (n - 96)) ((image.drop (n - 96)).take 96)

/-- An image that a loader may run: that of manufacture, or one whose header names the component and whose signature verifies. -/
def FwSlot.sound (x : FwSlot) (c : Nat) : Bool :=
  if x.image.isEmpty then x.state != .empty else headerOk x.image && rd x.image 4 1 == c && signatureOk x.image

/-! ### The boot-pointer record (R638, Table 19.3) -/

/-- The record in use: the copy that is correct and has the higher SEQUENCE. -/
def FwComponent.record (x : FwComponent) : Option BootPtr :=
  match x.ptr0, x.ptr1 with
  | some a, some b => if serialAfter b.sequence a.sequence then some b else some a
  | some a, none => some a
  | none, b => b

/-- Table 19.3: the 32 bytes of a component's record. -/
def BootPtr.bytes (r : BootPtr) (component : Nat) : List Byte :=
  withCrc (le 4 0x52545042 ++ le 4 r.sequence ++ le 1 component ++ le 1 r.active ++ le 1 r.previous ++
    le 1 (boolNat r.confirmed + 2 * boolNat r.reverted) ++ le 1 r.trials ++ le 3 0 ++ le 4 r.autoConfirm ++ le 8 0)

/-- Writes a record to both copies. -/
def FwComponent.write (x : FwComponent) (r : BootPtr) : FwComponent := { x with ptr0 := some r, ptr1 := some r }

def FwComponent.nextSequence (x : FwComponent) : Nat := ((x.record.map (·.sequence)).getD 0 + 1) % 2 ^ 32

/-! ### Download (R634-R636) -/

/-- The cases in which a path may not download to a component (R634, R647). -/
def FwComponent.downloadBarred (x : FwComponent) (path : UpdatePath) : Bool :=
  x.idleSlot.state == .pending || (x.idleSlot.state == .standby && (x.slot x.running).state == .trial) ||
    (x.holder.isSome && x.holder != some path)

/-- The offset the next chunk must have; 0 always starts a download. -/
def FwSlot.expects (x : FwSlot) (offset : Nat) : Bool := offset = 0 || (x.state == .downloading && offset == x.nextOffset)

/-- R635: bytes written to the idle slot; OFFSET 0 starts a download. -/
def FwSlot.put (x : FwSlot) (offset : Nat) (data : List Byte) : FwSlot :=
  if offset = 0 then { state := .downloading, image := data, nextOffset := data.length, trials := 0 }
  else { x with image := x.image ++ data, nextOffset := x.nextOffset + data.length }

/-- The chunk that brings the byte at IMAGE_BYTES - 1. -/
def FwSlot.whole (x : FwSlot) : Bool := decide (0 < imageBytes x.image) && decide (imageBytes x.image ≤ x.image.length)

/-- R634: a chunk that is not the last is a multiple of 4 KiB from 4 KiB to 1 MiB. -/
def chunkSizeOk (bytes : Nat) : Bool := bytes % 4096 == 0 && decide (4096 ≤ bytes) && decide (bytes ≤ 2 ^ 20)

def applyFwDownloadChunk (h : CmdHead) (pos : Option RingPos) (p : FwChunkP) : CmdEffect := fun s =>
  let c := p.component.toNat
  let x := s.fw c
  let y := x.idleSlot.put p.offset.toNat (fit p.bytes.toNat p.data)
  if slotSize c < p.offset.toNat + p.bytes.toNat then (s, some (failAt .invalidField 0x0C))
  else if x.downloadBarred .ring || !x.idleSlot.expects p.offset.toNat || !(y.whole || chunkSizeOk p.bytes.toNat) then
    refuse s .invalidState
  else
    let s := s.modFw c (fun x => { x.setSlot x.idle (fun _ => y) with holder := some .ring })
    (s.beginWork h 0x90 pos (.fwChunk c), none)

/-- FW_DOWNLOAD_CHUNK (R634, R635). -/
def execFwDownloadChunk (h : CmdHead) (p : FwChunkP) (s : State) : Out :=
  s.ringRow h (.fwDownloadChunk p) (applyFwDownloadChunk h none p)

/-- R635: the header is written last, and the slot becomes DOWNLOADED; without a correct header it is EMPTY (Table 19.2). -/
def FwSlot.close (x : FwSlot) : FwSlot :=
  if headerOk x.image then { x with state := .downloaded, nextOffset := 0 } else { x with state := .empty, image := [], nextOffset := 0 }

/-- The download of a component that has all its bytes ends. -/
def State.closeDownload (s : State) (c : Nat) : State :=
  let x := s.fw c
  if x.idleSlot.state == .downloading && x.idleSlot.whole then s.modFw c (fun x => x.setSlot x.idle FwSlot.close) else s

/-- Flash and NOR of a component can be written: the supply stands (18:R611), and for the MMC's own flash the MMC runs. -/
def State.fwWritable (s : State) (c : Nat) : Bool := !s.nor.writesStopped && (c != 3 || s.mmc.state != .absent)

/-- The path PLDM holds an update of a component and its own stage is under way (R646). -/
def State.pldmAt (s : State) (c : Nat) : Bool := s.mmc.update.any (fun u => u.component == some c)

/-- FW_CHUNK_WRITTEN (R635, R636): programming ends; behind the last chunk the slot is DOWNLOADED. -/
def execFwChunkWritten (i : ComponentP) (s : State) : Out :=
  .next (
    let c := i.component.toNat
    if !s.fwWritable c then s
    else match s.workOf? (.fwChunk c) with
      | some w =>
        if s.dead then s
        else
          let s := s.finishWork w ok
          if (s.workOf? (.fwChunk c)).isSome then s else s.closeDownload c
      | none => if s.pldmAt c && (s.fw c).holder == some .pldm then s.closeDownload c else s)

/-! ### Verify (R637) -/

def applyFwVerify (h : CmdHead) (pos : Option RingPos) (p : ComponentP) : CmdEffect := fun s =>
  let c := p.component.toNat
  let x := s.fw c
  if x.holder == some .pldm || x.idleSlot.state != .downloaded || rd x.idleSlot.image 4 1 != c then refuse s .invalidState
  else (s.beginWork h 0x91 pos (.fwVerify c), none)

/-- FW_VERIFY. -/
def execFwVerify (h : CmdHead) (p : ComponentP) (s : State) : Out :=
  s.ringRow h (.fwVerify p) (applyFwVerify h none p)

/-- The outcome of a verification; a REJECTED image ends the update. -/
def FwComponent.judge (x : FwComponent) : FwComponent :=
  if signatureOk x.idleSlot.image then x.setSlot x.idle (fun y => { y with state := .verified })
  else { x.setSlot x.idle (fun y => { y with state := .rejected }) with holder := none }

/-- FW_VERIFY_DONE (R637). -/
def execFwVerifyDone (i : ComponentP) (s : State) : Out :=
  .next (
    let c := i.component.toNat
    let x := s.fw c
    match s.workOf? (.fwVerify c) with
      | some w =>
        if s.dead then s
        else if x.idleSlot.state != .downloaded then s.finishWork w (failWith .invalidState)
        else
          (s.modFw c FwComponent.judge).finishWork w (if signatureOk x.idleSlot.image then ok else failWith .signatureInvalid)
      | none =>
        if s.pldmAt c && x.holder == some .pldm && x.idleSlot.state == .downloaded && rd x.idleSlot.image 4 1 == c then
          s.modFw c (fun x => { x.judge with holder := some .pldm })
        else s)

/-- A download or other work of one path is abandoned; a download begins again from OFFSET 0 (chapter 19, PF reset). -/
def FwComponent.abandon (x : FwComponent) (path : UpdatePath) : FwComponent :=
  let drop (y : FwSlot) : FwSlot := if y.state == .downloading then { y with nextOffset := 0 } else y
  if x.holder == some path then { x with holder := none, slotA := drop x.slotA, slotB := drop x.slotB } else x

/-! ### Activate (R639, R640) -/

def applyFwActivate (h : CmdHead) (pos : Option RingPos) (p : ComponentP) : CmdEffect := fun s =>
  let c := p.component.toNat
  let x := s.fw c
  if x.holder == some .pldm || x.idleSlot.state != .verified then refuse s .invalidState
  else (s.beginWork h 0x92 pos (.fwActivate c), none)

/-- FW_ACTIVATE. -/
def execFwActivate (h : CmdHead) (p : ComponentP) (s : State) : Out :=
  s.ringRow h (.fwActivate p) (applyFwActivate h none p)

/-- R639: the record that names the verified slot. -/
def FwComponent.activate (x : FwComponent) : FwComponent :=
  let r : BootPtr := { sequence := x.nextSequence, active := x.idle, previous := x.running, confirmed := false, reverted := false,
                       trials := 0, autoConfirm := rd x.idleSlot.image 0x18 4 }
  let y := (x.write r).setSlot x.idle (fun y => { y with state := .pending, trials := 0 })
  { y.setSlot x.running (fun y => { y with state := .standby }) with holder := none }

/-- R640: activation of COMPONENT 3 restarts the MMC. -/
def State.activateFw (s : State) (c : Nat) : State :=
  let s := s.modFw c FwComponent.activate
  if c = 3 then { s with mmc := { s.mmc with restartDue := true } } else s

/-- FW_ACTIVATE_DONE (R639). -/
def execFwActivateDone (i : ComponentP) (s : State) : Out :=
  .next (
    let c := i.component.toNat
    let verified := (s.fw c).idleSlot.state == .verified
    if !s.fwWritable c then s
    else match s.workOf? (.fwActivate c) with
      | some w => if s.dead then s else if verified then (s.activateFw c).finishWork w ok else s.finishWork w (failWith .invalidState)
      | none =>
        if s.mmc.update.any (fun u => u.component == some c && u.activating) && verified then
          let s := s.activateFw c
          { s with mmc := { s.mmc with update := none } }
        else s)

/-! ### Confirm (R644, R645) -/

def applyFwConfirm (h : CmdHead) (pos : Option RingPos) (p : ComponentP) : CmdEffect := fun s =>
  let c := p.component.toNat
  let x := s.fw c
  if x.holder == some .pldm || (x.slot x.running).state != .trial then refuse s .invalidState
  else (s.beginWork h 0x93 pos (.fwConfirm c), none)

/-- FW_CONFIRM. -/
def execFwConfirm (h : CmdHead) (p : ComponentP) (s : State) : Out :=
  s.ringRow h (.fwConfirm p) (applyFwConfirm h none p)

/-- R644: the record with CONFIRMED set. -/
def FwComponent.confirm (x : FwComponent) : FwComponent :=
  let y := match x.record with
    | some r => x.write { r with sequence := x.nextSequence, confirmed := true }
    | none => x
  { y.setSlot x.running (fun z => { z with state := .confirmed, trials := 0 }) with trialReady := none }

/-- FW_CONFIRM_DONE (R644). -/
def execFwConfirmDone (i : ComponentP) (s : State) : Out :=
  .next (
    let c := i.component.toNat
    if s.dead || !s.fwWritable c then s
    else match s.workOf? (.fwConfirm c) with
      | some w =>
        let s := if ((s.fw c).slot (s.fw c).running).state == .trial then s.modFw c FwComponent.confirm else s
        s.finishWork w ok
      | none => s)

/-- AUTO_CONFIRM of the record in use has run out for the running trial. -/
def FwComponent.autoDue (x : FwComponent) (tick : Nat) : Bool :=
  match x.record, x.trialReady with
  | some r, some t => (x.slot x.running).state == .trial && r.autoConfirm != 0 && decide (t + 600 * r.autoConfirm ≤ (tick : Int))
  | _, _ => false

/-- FW_AUTO_CONFIRMED (R645), at the coming commit, the first one AUTO_CONFIRM seconds after the trial was ready. -/
def execFwAutoConfirmed (i : ComponentP) (s : State) : Out :=
  .next (
    let c := i.component.toNat
    if !s.isReady || !(c == 2 || c == 3) || !s.fwWritable c || !(s.fw c).autoDue (s.clk.tick + 1) then s
    else s.atNext (fun s => (s.modFw c FwComponent.confirm).raise pfFn 0x0702 (le 1 c ++ le 1 (s.fw c).running)))

/-! ### What a loader boots (R641-R643) -/

/-- What a start of a component gives: its slots and record, whether an image runs at all, and the event owed (code, failed slot,
running slot). -/
structure Booted where
  comp : FwComponent
  runs : Bool
  event : Option (Nat × Nat × Nat)
  deriving DecidableEq, Repr

def FwComponent.runSlot (x : FwComponent) (n : Nat) (st : SlotState) (trials : Nat) : FwComponent :=
  { x.setSlot n (fun y => { y with state := st, trials := trials }) with running := n, trialReady := none }

/-- R641, R642: the revert to PREVIOUS. -/
def FwComponent.revert (x : FwComponent) (r : BootPtr) (good : Nat → Bool) : Booted :=
  let x := x.setSlot r.active (fun y => { y with state := .downloaded, trials := 0 })
  if r.previous = 0 then { comp := x, runs := false, event := none }
  else
    let x := x.write { r with sequence := x.nextSequence, active := r.previous, previous := r.active, confirmed := true, reverted := true }
    if good r.previous then
      { comp := x.runSlot r.previous .confirmed 0, runs := true, event := some (0x0700, r.active, r.previous) }
    else { comp := x, runs := false, event := none }

/-- R643: a confirmed image that fails verification gives way to a STANDBY one. -/
def FwComponent.fallback (x : FwComponent) (r : BootPtr) (good : Nat → Bool) : Booted :=
  let n := 3 - r.active
  if (x.slot n).state == .standby && good n then
    { comp := (x.setSlot r.active (fun y => { y with state := .downloaded, trials := 0 })).runSlot n .confirmed 0, runs := true,
      event := some (0x0701, r.active, n) }
  else { comp := x, runs := false, event := none }

/-- R641-R643: a start of a component; `good` says which slot's image verifies. -/
def FwComponent.boot (x : FwComponent) (good : Nat → Bool) : Booted :=
  match x.record with
  | some r =>
    if r.confirmed then
      if good r.active then { comp := x.runSlot r.active .confirmed 0, runs := true, event := none } else x.fallback r good
    else if 3 ≤ r.trials then x.revert r good
    else
      let r := { r with sequence := x.nextSequence, trials := r.trials + 1 }
      let x := x.write r
      if good r.active then { comp := x.runSlot r.active .trial r.trials, runs := true, event := none } else x.revert r good
  | none => { comp := x, runs := false, event := none }

/-- R633: what a die start leaves of a slot's state. -/
def FwSlot.afterStart (x : FwSlot) : FwSlot :=
  match x.state with
  | .downloading => { x with state := .empty, image := [], nextOffset := 0 }
  | .verified => { x with state := .downloaded }
  | .rejected => { x with state := .downloaded }
  | .empty => x
  | .downloaded => x
  | .pending => x
  | .trial => x
  | .confirmed => x
  | .standby => x

/-- A component at a die start: volatile states are lost, and an update of the ring path; the MMC goes on (17:R569). -/
def FwComponent.afterStart (x : FwComponent) (tick : Nat) : FwComponent :=
  { x with slotA := x.slotA.afterStart, slotB := x.slotB.afterStart, holder := x.holder.filter (· == .pldm),
           trialReady := x.trialReady.map (fun t => t - tick) }

end Sys2Proof.Machine
end

