-- ==== Sys2Proof/Machine/Boot.lean ====
section
/-! DEFINITION. From power-on to READY (17_power_on_ready.md): the die start, bring-up with training, repair and self-test, the defect
ledger at a start, and the READY commit. -/

namespace Sys2Proof.Machine

/-! ### Die start (R569, R571) -/

/-- The MMC counts the start when it runs; a download to a component goes with the volatile slot states (19:R633). -/
def Mmc.atDieStart (x : Mmc) : Mmc :=
  { x with keysDue := [], starts := if x.state == .absent then x.starts else x.starts + 1,
           update := x.update.map (fun u => { u with component := none, activating := false }) }

def Nor.atDieStart (x : Nor) (tick : Nat) : Nor := { x with die := x.die.afterStart tick, mmc := x.mmc.afterStart tick }

/-- What the time unit counts since power-on and not since the die start (03:R108, Table 3.3). -/
def Clock.atDieStart (c : Clock) (powered : Bool) : Clock :=
  if powered then { Clock.reset with lockedTicks := c.lockedTicks, todValid := c.todValid } else Clock.reset

/-- R569: everything in the die returns to its reset value. `powered`: the die had power before, so that the start is no power-on and
does not leave FAILED (16:R543). -/
def State.dieStart (s : State) (powered : Bool) : State :=
  let stays := powered && s.safety.state == .failed
  { State.reset with
    clk := s.clk.atDieStart powered,
    safety := { Safety.reset with
      state := if stays then .failed else .starting, failCause := if stays then s.safety.failCause else none,
      fanFull := s.safety.fanFull, draws := s.safety.draws },
    nor := s.nor.atDieStart s.clk.tick, power := s.power, mmc := s.mmc.atDieStart, jtag := s.jtag, pending := s.pending }

/-- DIE_START (R569): at power-on, once the rails are good, or at an assertion of PERST_N while the die runs. -/
def execDieStart (i : DieStartCause) (s : State) : Out :=
  .next (match i with
    | .powerOn => if s.power.pwrgd && !s.boot.running then s.dieStart false else s
    | .perstAssert => if s.boot.running then s.dieStart true else s)

/-- BOOT_ROM_WATCHDOG (R576): READY has not been reached. -/
def execBootRomWatchdog (s : State) : Out :=
  .next (if s.boot.running && s.safety.state == .starting then s.dieStart true else s)

/-! ### The ledger at a start (R585-R589) -/

/-- R587, Table 17.4: the 32 bytes of an entry, closed by their CRC. -/
def LedgerEntry.bytes (e : LedgerEntry) : List Byte :=
  withCrc (le 1 e.type ++ le 1 e.unitKind ++ le 1 e.unit ++ le 1 e.source ++ le 4 e.startCount ++ le 8 e.tick ++ fit 12 e.detail)

/-- The entries of a copy whose CRC is correct; those at the places in `torn` are not. -/
def readable (copy : List LedgerEntry) (torn : List (Fin 4096)) : List (Option LedgerEntry) :=
  copy.mapIdx (fun i e => if torn.any (fun k => k.val == i) then none else some e)

/-- R586: the union of both copies, in ledger order; the copies hold the same entries but for those that were torn. -/
def ledgerUnion : List (Option LedgerEntry) → List (Option LedgerEntry) → List LedgerEntry
  | [], bs => bs.filterMap id
  | as, [] => as.filterMap id
  | a :: as, b :: bs => (if a == b then a.toList else a.toList ++ b.toList) ++ ledgerUnion as bs

/-- R586: what the boot ROM reads of the ledger. -/
def Nor.union (x : Nor) (i : BringUpIn) : List LedgerEntry :=
  (ledgerUnion (readable x.ledger0 i.torn0) (readable x.ledger1 i.torn1)).take 4096

/-- A finding of the start enters the ledger; when both copies are full LEDGER_FULL is due at READY (R589). -/
def State.bootLedger (s : State) (type kind unit source : Nat) (detail : List Byte) : State :=
  let e : LedgerEntry := { type := type, unitKind := kind, unit := unit, source := source, startCount := s.mmc.starts,
                           tick := s.clk.tick, detail := fit 12 detail }
  if 4096 ≤ s.nor.ledger0.length then
    if s.boot.readyEvents.any (fun r => r.2.1 == 0x0703) then s
    else { s with boot := { s.boot with
      readyEvents := s.boot.readyEvents ++ [(pfFn.val, 0x0703, le 2 s.nor.ledger0.length)] } }
  else { s with nor := { s.nor with ledger0 := s.nor.ledger0 ++ [e], ledger1 := s.nor.ledger1 ++ [e] } }

/-- The unit kind of a KIND code. -/
def kindOfCode (code : Nat) : Option UnitKind := hmKinds.find? (fun k => kindCode k == code)

/-- R588: the units that the ledger retires. -/
def retiredBy (ledger : List LedgerEntry) : List UnitRef :=
  (ledger.filterMap (fun e => if e.type = 1 then (kindOfCode e.unitKind).map (fun k => { kind := k, num := e.unit }) else none)).eraseDups

/-- Units that this start may not use: those the ledger retires, and what self-test has found. -/
def State.barred (s : State) : List UnitRef := (retiredBy s.nor.ledger0 ++ s.boot.found).eraseDups

/-! ### Phases 1 and 2: boot ROM and firmware (R573-R575) -/

/-- R574: the lowest row that the ledger does not retire and whose cluster passes its lockstep self-test. -/
def leadOf (retired : List UnitRef) (findings : List SelfTestFinding) : Nat :=
  ((List.range 8).find? (fun (r : Nat) =>
    !rowRetiredIn retired r && !findings.contains (.unitFails ⟨.controlCluster, r⟩))).getD 0

/-- Phase 1: the module number, the ledger and the first Hallmark views. -/
def State.bootRom (s : State) (i : BringUpIn) : State :=
  let l := s.nor.union i
  let n := 4 * i.tray.val + i.slot.val
  let s := { s with
    nor := { s.nor with ledger0 := l, ledger1 := l },
    boot := { s.boot with broughtUp := true, moduleNo := n, slot := i.slot.val, tray := i.tray.val,
                          leadRow := leadOf (retiredBy l) i.findings } }
  s.hallmarkStart

/-- The module enters FAILED during bring-up: the views keep the entries of R154, and show FAILED from the next commit (04:R148). -/
def State.bootFail (s : State) (c : FailCause) : State :=
  (s.withSafety { s.safety with state := .failed, failCause := some c }).logError pfFn aerInternal

/-- Whether the image of a slot verifies: what the boot ROM found, of an image that can be sound at all. -/
def bootGood (i : BringUpIn) (x : FwComponent) (n : Nat) : Bool :=
  (if n = 2 then i.verifiesB else i.verifiesA) && (x.slot n).sound 2

/-- Phase 2: the boot ROM selects and verifies the image (19:R641-R643). -/
def State.bootFirmware (s : State) (i : BringUpIn) : State :=
  let b := s.nor.die.boot (bootGood i s.nor.die)
  let s := { s with nor := { s.nor with die := b.comp } }
  match b.event with
  | some e => { s with boot := { s.boot with
      readyEvents := s.boot.readyEvents ++ [(pfFn.val, e.1, le 1 2 ++ le 1 e.2.1 ++ le 1 e.2.2)] } }
  | none => s

/-! ### Phase 3: DRAM training (R577-R584) -/

/-- Entries about DRAM rows. -/
def LedgerEntry.isDram (e : LedgerEntry) : Bool := e.type == 4 || e.type == 5 || e.type == 6

/-- DRAM_ROW_REPEAT entries without a matching repair or exhaustion. -/
def unmatchedRepeats (ledger : List LedgerEntry) : List LedgerEntry :=
  ledger.filter (fun e => e.type == 4 &&
    !ledger.any (fun f => (f.type == 5 || f.type == 6) && f.unit == e.unit && f.detail == e.detail))

/-- The major version of the running image. -/
def Nor.major (x : Nor) : Nat := ((x.die.slot x.die.running).version 2 x.die.running).1

/-- R577, R578: the copy of the training record that a start uses: the one written first, if its CRC is correct, else the other. -/
def Nor.record (x : Nor) (i : BringUpIn) : Option TrainingRecord :=
  (if i.record0Ok then x.training0 else none) <|> (if i.record1Ok then x.training1 else none)

/-- Table 17.2: the die temperature is within 20 degrees of the record's, and every rail within 1.5 % of the record's voltage. -/
def trainedNear (r now : TrainingData) : Bool :=
  decide ((now.dieTemp - r.dieTemp).natAbs ≤ 20) && now.rails.length == r.rails.length &&
    (r.rails.zip now.rails).all (fun v => decide (1000 * ((v.2 : Int) - v.1).natAbs ≤ 15 * v.1))

/-- Table 17.2 and R579. -/
def State.fastStart (s : State) (i : BringUpIn) : Bool :=
  match s.nor.record i with
  | some r =>
    r.major == s.nor.major && !(s.nor.ledger0.drop r.ledgerCount).any LedgerEntry.isDram &&
      (unmatchedRepeats s.nor.ledger0).isEmpty && trainedNear r.data i.training && i.eyeOk
  | none => false

/-- A bank without a repair resource. -/
def bankExhausted (i : BringUpIn) (e : LedgerEntry) : Bool :=
  i.noRepair.any (fun b => b.1.val == e.unit && b.2.toNat == rd e.detail 0 1)

/-- R583: one row awaiting repair; the count of repairs of this start goes along. -/
def repairOne (i : BringUpIn) (a : Nat × State) (e : LedgerEntry) : Nat × State :=
  if 4 ≤ a.1 || !(unmatchedRepeats a.2.nor.ledger0).contains e then a
  else if bankExhausted i e then (a.1, a.2.bootLedger 6 6 e.unit 2 e.detail)
  else (a.1 + 1, a.2.bootLedger 5 6 e.unit 2 e.detail)

/-- R577: the record of a full training, written in two copies. -/
def Nor.writeRecord (x : Nor) (d : TrainingData) : Nor :=
  let r : TrainingRecord := { data := d, major := x.major, ledgerCount := x.ledger0.length }
  { x with training0 := some r, training1 := some r }

/-- Phase 3: from the record, or in full with repairs and a new record. -/
def State.bootTraining (s : State) (i : BringUpIn) : State :=
  let fast := s.fastStart i
  let s := { s with boot := { s.boot with fast := fast } }
  if fast then s
  else
    let s := ((unmatchedRepeats s.nor.ledger0).foldl (repairOne i) (0, s)).2
    { s with nor := s.nor.writeRecord i.training }

/-! ### Phase 4: self-test (R582, Table 17.3) -/

/-- Units that the self-test covers, and whose failure retires them. -/
def tested (u : UnitRef) : Bool :=
  decide (u.num < builtOf u.kind) && match u.kind with
    | .facetTile => true
    | .decodeEngine => true
    | .visionEngine => true
    | .motionEngine => true
    | .postEngine => true
    | .dramChannel => true
    | .controlCluster => true
    | .poolNode => true
    | .chainLink => false
    | .row => false
    | .hostPortA => false
    | .hostPortB => false
    | .assayNode => false
    | .mgmtBridge => false

/-- Parts whose failure fails the module. -/
def vital (k : UnitKind) : Bool := k == .hostPortA || k == .hostPortB || k == .assayNode || k == .mgmtBridge

/-- A unit that self-test retires: UNIT_RETIRED with code 0, once. -/
def State.foundFaulty (s : State) (u : UnitRef) : State :=
  if !tested u || s.barred.contains u then s
  else
    let s := { s with boot := { s.boot with found := s.boot.found ++ [u] } }
    s.bootLedger 1 (kindCode u.kind) u.num 0 (le 2 0)

/-- The facet columns of a tile that a ledger maps onto spares: the faulty physical column, and the spare column used. -/
def sparedColumns (ledger : List LedgerEntry) (tile : Nat) : List (Nat × Nat) :=
  (ledger.filter (fun e => e.type == 2 && e.unit == tile)).map (fun e => ((nth 0 e.detail 0).toNat, (nth 0 e.detail 1).toNat))

/-- One finding. -/
def State.finding (s : State) (f : SelfTestFinding) : State :=
  match f with
  | .unitFails u => if vital u.kind then s.bootFail (.part u.kind) else s.foundFaulty u
  | .facetColumn tile column spare =>
    let u : UnitRef := ⟨.facetTile, tile.val⟩
    if s.barred.contains u || 132 ≤ column.toNat then s
    else match spareFor (sparedColumns s.nor.ledger0 tile.val) column.toNat spare.toNat with
      | some k => s.bootLedger 2 1 tile.val 0 (le 1 column.toNat ++ le 1 k)
      | none => s.foundFaulty u
  | .sramRow node m row => s.bootLedger 3 0 0xFF 0 (le 1 node.toNat ++ le 1 m.toNat ++ le 2 row.toNat)
  | .sramNoSpare u => s.foundFaulty u
  | .dramRepeat c bank row =>
    if s.barred.contains ⟨.dramChannel, c.val⟩ then s
    else s.bootLedger 4 6 c.val 0 (le 1 bank.toNat ++ le 1 0 ++ le 4 row.toNat)
  | .channelFails c => s.foundFaulty ⟨.dramChannel, c.val⟩
  | .partFails k => if vital k then s.bootFail (.part k) else s

/-- BRING_UP (R572), phases 1 to 4, after the release of PERST_N with the rails good. A module that stays FAILED ends with phase 1. -/
def execBringUp (i : BringUpIn) (s : State) : Out :=
  .next (if !s.boot.running || s.boot.broughtUp || !s.power.pwrgd then s
    else
      let s := s.bootRom i
      if s.safety.state == .failed then s
      else
        let runs := (s.nor.die.boot (bootGood i s.nor.die)).runs
        let s := s.bootFirmware i
        if !runs then s.bootFail .noImage
        else i.findings.foldl State.finding (s.bootTraining i))

/-! ### Phase 5: READY (R589, R590) -/

/-- The events that bring-up owes the PF. -/
def State.raiseReady (s : State) : State :=
  let es := s.boot.readyEvents
  es.foldl (fun s e => s.raise pfFn e.2.1 e.2.2) { s with boot := { s.boot with readyEvents := [] } }

/-- R353, R588: the columns mapped onto spares, by tile. -/
def sparesBy (ledger : List LedgerEntry) : List (Nat × Nat × Nat) :=
  (List.range 16).flatMap (fun t => (sparedColumns ledger t).map (fun c => (t, c)))

/-- 19:R645: a trial that has reached READY. -/
def FwComponent.readyAt (x : FwComponent) (tick : Nat) : FwComponent :=
  if (x.slot x.running).state == .trial then { x with trialReady := some tick } else x

/-- 18:R617: the MMC passes every stored key to the die at READY. -/
def Mmc.passKeys (x : Mmc) : Mmc :=
  { x with keysDue := if x.state == .serving then x.keys.map (fun (k : Nat × List Byte) => (k.1, some k.2)) else [] }

/-- READY (R590), at the coming commit, which shows it in the views (04:R155) and starts the heartbeats. -/
def execReady (s : State) : Out :=
  .next (if !s.boot.running || !s.boot.broughtUp || s.safety.state != .starting then s
    else s.atNext (fun s =>
      let s := { s with
        safety := { s.safety with state := .ready, retired := s.barred, spares := sparesBy s.nor.ledger0 },
        nor := { s.nor with die := s.nor.die.readyAt s.clk.tick },
        mmc := s.mmc.passKeys }
      s.raiseReady))

end Sys2Proof.Machine
end

