-- ==== Sys2Proof/Machine/Pools.lean ====
section
/-! DEFINITION. The buffer pools (12_buffer_pools.md): allocation, release, levels, the leak audit and reclaim. -/

namespace Sys2Proof.Machine

/-! ### Classes and capacities (R411-R415) -/

/-- Table 12.1: buffers of a class in one pool node. -/
def poolBuffers (cls : Nat) : Nat := nth 0 [262144, 65536, 8192, 1024, 256, 32] cls

/-- Table 12.1: bytes of a buffer of a class. -/
def bufferBytes (cls : Nat) : Nat := nth 0 [256, 4096, 65536, 524288, 4194304, 33554432] cls

/-- R412: the smallest class whose buffers hold `n` bytes. -/
def classFor (n : Nat) : Option Nat := (List.range 6).find? (fun c => n ≤ bufferBytes c)

/-- Where a class's pool begins in its row: the pools lie in class order in the lowest 3,392 MiB (13_memory_qos.md, R443;
notes/assumptions/16.md). -/
def poolBase (cls : Nat) : Nat := sumOf ((List.range cls).map (fun c => poolBuffers c * bufferBytes c))

/-- R413: capacity of a partition in a class. -/
def State.poolCapacity (s : State) (p cls : Nat) : Nat := (s.usableRows p).length * poolBuffers cls

/-- The outstanding buffers of a class in the usable rows of a partition. -/
def State.outstanding (s : State) (p cls : Nat) : List Buffer :=
  s.pools.bufs.filter (fun b => b.cls == cls && (s.usableRows p).contains b.row.val)

/-- F of R425. -/
def State.poolFree (s : State) (p cls : Nat) : Nat := s.poolCapacity p cls - (s.outstanding p cls).length

/-! ### Handles (R414, R415) -/

def Pools.genOf (x : Pools) (row : Row) (cls index : Nat) : Nat :=
  match x.gens.find? (fun g => g.row == row && g.cls == cls && g.index == index) with
  | some g => g.gen
  | none => 0

/-- R414: GENERATION advances by 1 modulo 256 at an accepted release. -/
def Pools.bumpGen (x : Pools) (row : Row) (cls index : Nat) : Pools :=
  let g := (x.genOf row cls index + 1) % 256
  let rest := x.gens.filter (fun y => !(y.row == row && y.cls == cls && y.index == index))
  { x with gens := if g = 0 then rest else { row := row, cls := cls, index := index, gen := g } :: rest }

/-- R415: the index of a buffer in its partition's pool. -/
def State.poolIndex (s : State) (row : Row) (cls index : Nat) : Nat :=
  let rows := s.rowsOf (partOfRow s.work.startMask row.val)
  (rows.filter (· < row.val)).length * poolBuffers cls + index

/-- Table 12.2. -/
def State.bufHandle (s : State) (b : Buffer) : Nat :=
  2 ^ 29 * b.cls + 2 ^ 8 * s.poolIndex b.row b.cls b.index + s.pools.genOf b.row b.cls b.index

def State.bufByHandle (s : State) (p handle : Nat) : Option Buffer :=
  s.pools.bufs.find? (fun b => partOfRow s.work.startMask b.row.val == p && s.bufHandle b == handle)

/-- Table 12.4. -/
def ownerCode : Owner → Nat
  | .stream h => h.toNat
  | .unit n k => 2 ^ 28 + 2 ^ 8 * n.toNat + k.toNat
  | .scrub => 2 ^ 29
  | .touchstone => 2 ^ 29 + 1
  | .firmware => 2 ^ 29 + 2
  | .sample => 2 ^ 29 + 3

/-! ### Levels (R425, R429) -/

def levelCode : Level → Nat
  | .green => 0
  | .amber => 1
  | .red => 2
  | .reserve => 3

def levelOfCode (n : Nat) : Level :=
  if n = 0 then .green else if n = 1 then .amber else if n = 2 then .red else .reserve

/-- T of Table 12.5. -/
def levelT (n : Nat) : Nat := nth 100 [100, 25, 10, 3] n

/-- Rises from a level while the free count allows it. -/
def riseLevel : Nat → Nat → Nat → Nat → Nat
  | 0, old, _, _ => old
  | fuel + 1, old, f, c => if 0 < old && (levelT old + 2) * c ≤ f * 100 then riseLevel fuel (old - 1) f c else old

/-- R425: the level from the free count and capacity, with its hysteresis. -/
def nextLevel (old f c : Nat) : Nat :=
  let down := ([1, 2, 3].filter (fun k => f * 100 < levelT k * c)).length
  if old ≤ down then down else max down (riseLevel 3 old f c)

def State.level (s : State) (p cls : Nat) : Level :=
  match s.pools.levels.find? (fun l => l.1 == p && l.2.1 == cls) with
  | some l => l.2.2
  | none => .green

/-- R425: one setting of every partition pool's level. -/
def State.setLevels (s : State) : State :=
  let all := (List.range (partCount s.work.startMask)).flatMap (fun p => (List.range 6).map (fun c =>
    (p, c, levelOfCode (nextLevel (levelCode (s.level p c)) (s.poolFree p c) (s.poolCapacity p c)))))
  { s with pools := { s.pools with levels := all.filter (fun l => l.2.2 != .green) } }

/-- R429: the POOL_LEVEL events of a commit: `before` and `mid` are the states before it and after the first setting, the deepest level
is the lower of the two that the commit set. -/
def State.raiseLevels (s before mid : State) : State :=
  (List.range (partCount s.work.startMask)).foldl (fun s p => (List.range 6).foldl (fun s c =>
    let o := levelCode (before.level p c)
    let m := levelCode (mid.level p c)
    let n := levelCode (s.level p c)
    if o == m && o == n then s
    else s.raiseAll (s.fnsOfPart p) 0x0300
      (le 1 c ++ le 1 p ++ le 1 o ++ le 1 n ++ le 4 (s.poolFree p c) ++ le 4 (s.poolCapacity p c) ++
        le 4 (max m n))) s) s

/-! ### Allocation (R412, R416-R419, Table 12.5) -/

/-- Table 12.5: what a level lets an allocation for a stream of a class do; without a class it is for a module service. -/
def levelAllows (l : Level) (cls : Option ServiceClass) : Bool :=
  match cls with
  | none => true
  | some .urgent => true
  | some .guaranteed => l != .reserve
  | some .bestEffort => l == .green || l == .amber

/-- R417, R425: what a level lets an allocation do. A stage of a planned frame allocates within the plan and is not refused; a working
buffer of a unit is neither for an urgent-class stream nor for a module service. -/
def poolAllows (l : Level) (owner : Owner) (cls : Option ServiceClass) (job : Option FrameRef) : Bool :=
  job.isSome || match owner, cls with
    | .unit _ _, none => l != .reserve
    | _, c => levelAllows l c

/-- The lowest free index of a class in a row. -/
def State.freeInRow (s : State) (row : Row) (cls : Nat) : Option Nat :=
  if s.rowUsable row.val then
    lowestFree (fun i => s.pools.bufs.any (fun b => b.row == row && b.cls == cls && b.index == i)) 0 (poolBuffers cls)
  else none

/-- R416: the rows an allocation tries: its own, then by ascending distance, the lower row first. -/
def State.allocRows (s : State) (row : Row) : List Row :=
  let p := partOfRow s.work.startMask row.val
  let dist (r : Row) : Nat := max r.val row.val - min r.val row.val
  sortBy (fun a b => dist a < dist b) ((List.finRange 8).filter (fun r => partOfRow s.work.startMask r.val == p))

/-- R412, R416, R418: allocates one buffer; the buffer taken. -/
def State.alloc (s : State) (row : Row) (bytes : Nat) (owner : Owner) (cls : Option ServiceClass)
    (job : Option FrameRef) (session : Option (Fn × Nat)) : Option Buffer × State :=
  match classFor bytes with
  | none => (none, s)
  | some c =>
    let p := partOfRow s.work.startMask row.val
    if poolAllows (s.level p c) owner cls job then
      match (s.allocRows row).findSome? (fun r => (s.freeInRow r c).map (fun i => (r, i))) with
      | some (r, i) =>
        let b : Buffer := { row := r, cls := c, index := i, owner := owner, since := none, releasing := false, releaser := none,
                            suspect := false, unreferenced := 0, job := job, session := session }
        (some b, { s with pools := { s.pools with bufs := b :: s.pools.bufs } })
      | none => (none, s)
    else (none, s)

/-- BUFFER_ALLOCATE (R416). -/
def execBufferAllocate (i : AllocIn) (s : State) : Out :=
  .next (if s.dead then s
    else (s.alloc i.row i.bytes.toNat i.owner i.cls i.job (i.session.map (fun k => (k.1, k.2.toNat)))).2)

/-! ### Release (R420-R422) -/

/-- The row of a partition and the index within it that an INDEX field names. -/
def State.indexRow (s : State) (p cls index : Nat) : Option (Nat × Nat) :=
  (nth none ((s.rowsOf p).map some) (index / max 1 (poolBuffers cls))).map (fun r => (r, index % max 1 (poolBuffers cls)))

/-- The device address of a buffer's first byte (13_memory_qos.md, Table 13.1). -/
def State.bufAddress (s : State) (row cls index : Nat) : Nat :=
  2 ^ 45 * s.boot.moduleNo + 2 ^ 33 * row + poolBase cls + index * bufferBytes cls

/-- The row of a node, none for the edge column. -/
def rowOfNode (n : Nat) : Option Nat := if n < 72 && n % 9 < 8 then some (n / 9) else none

/-- The outstanding buffer a handle names, whatever its generation. -/
def State.namedBuffer (s : State) (p handle : Nat) : Option Buffer :=
  match s.indexRow p (bitsOf handle 31 29) (bitsOf handle 28 8) with
  | some (r, i) => s.pools.bufs.find? (fun b => b.row.val == r && b.cls == bitsOf handle 31 29 && b.index == i)
  | none => none

/-- Table 12.3: the code of the first check that fails, 0 when the release passes. -/
def State.releaseCheck (s : State) (i : ReleaseIn) : Nat :=
  let h := i.handle.toNat
  let c := bitsOf h 31 29
  let p := partOfRow s.work.startMask i.row.val
  if 6 ≤ c then 1
  else match s.indexRow p c (bitsOf h 28 8) with
    | none => 2
    | some (r, k) =>
      if !s.rowUsable r then 2
      else match s.namedBuffer p h with
        | none => 3
        | some b =>
          if b.releasing || s.pools.genOf b.row b.cls b.index != bitsOf h 7 0 then 3
          else if i.address.toNat != s.bufAddress r c k then 4
          else if (rowOfNode i.node.toNat).map (partOfRow s.work.startMask) != some p || b.owner != i.owner then 5
          else 0

/-- A fault of a job: reported to the assay monitor (R85). -/
def State.jobFault (s : State) (job : Option FrameRef) (cls : Option FaultClass) (unit : UnitRef) : State :=
  let n : FaultNote := match job with
    | some j => { cls := cls, handle := j.handle.toNat, seq := j.seq.toNat, unit := unit, stateLost := false, column := none }
    | none => { cls := cls, handle := 0xFFFF, seq := 0, unit := unit, stateLost := false, column := none }
  { s with safety := { s.safety with faults := s.safety.faults ++ [n] } }

/-- BUFFER_RELEASE (R420, R421). -/
def execBufferRelease (i : ReleaseIn) (s : State) : Out :=
  .next (
    if s.dead then s
    else
      let p := partOfRow s.work.startMask i.row.val
      let code := s.releaseCheck i
      match s.namedBuffer p i.handle.toNat with
      | some b =>
        if code = 0 then
          { s with pools := { s.pools with
              bufs := updWhere (fun x => x.row == b.row && x.cls == b.cls && x.index == b.index)
                (fun x => { x with releasing := true, releaser := i.job }) s.pools.bufs } }
        else
          (s.atNext (fun s => s.raiseNode pfFn 0x0303 (9 * i.row.val + 7) (le 1 code ++ le 1 p ++ le 2 0 ++
            le 4 (ownerCode b.owner) ++ le 4 i.handle.toNat ++ le 4 i.node.toNat))).jobFault i.job none ⟨.poolNode, i.row.val⟩
      | none =>
        (s.atNext (fun s => s.raiseNode pfFn 0x0303 (9 * i.row.val + 7) (le 1 code ++ le 1 p ++ le 2 0 ++ le 4 0 ++
          le 4 i.handle.toNat ++ le 4 i.node.toNat))).jobFault i.job none ⟨.poolNode, i.row.val⟩)

/-- R281, R422: releases a stream's own buffer by its handle: it is freed at the commit that closes the stage. -/
def Pools.release (x : Pools) (b : Buffer) : Pools :=
  { x with bufs := x.bufs.filter (fun y => !(y.row == b.row && y.cls == b.cls && y.index == b.index)) }.bumpGen
    b.row b.cls b.index

/-! ### At a commit (R418, R422, R430, R431) -/

/-- R418, R422, R85: allocations of the closing tick commit and accepted releases free their buffers; the allocations and releases of a
discarded frame are undone. -/
def Pools.commit (x : Pools) (tick : Nat) (discarded : Buffer → Bool) (withdrawn : FrameRef → Bool) : Pools :=
  let frees (b : Buffer) : Bool := b.releasing && !b.releaser.any withdrawn
  let kept := x.bufs.filter (fun b => !frees b && !(b.since.isNone && discarded b))
  (x.bufs.filter (fun b => frees b && b.owner != .scrub)).foldl (fun x b => x.bumpGen b.row b.cls b.index)
    { x with bufs := kept.map (fun b => { b with since := some (b.since.getD tick), releasing := false, releaser := none }) }

/-- R431: counts the ticks for which nothing refers to a stream's buffer. -/
def Pools.age (x : Pools) (referenced : Buffer → Bool) : Pools :=
  { x with bufs := x.bufs.map (fun b => { b with unreferenced := if referenced b then 0 else b.unreferenced + 1 }) }

def isStreamOwner : Owner → Bool
  | .stream _ => true
  | .unit _ _ => false
  | .scrub => false
  | .touchstone => false
  | .firmware => false
  | .sample => false

/-- POOL_LEAK_SUSPECT (R431). -/
def execPoolLeakSuspect (i : PoolBufIn) (s : State) : Out :=
  .next (match s.bufByHandle i.partition i.handle.toNat with
    | some b =>
      if s.isReady && isStreamOwner b.owner && 5 ≤ b.unreferenced && !b.suspect then
        let s := { s with pools := { s.pools with
          bufs := updWhere (fun x => x.row == b.row && x.cls == b.cls && x.index == b.index)
            (fun x => { x with suspect := true }) s.pools.bufs } }
        s.atNext (fun s => s.raiseNode pfFn 0x0301 (9 * b.row.val + 7) (le 1 b.cls ++ le 1 i.partition ++ le 2 0 ++
          le 4 (ownerCode b.owner) ++ le 4 i.handle.toNat ++ le 4 (s.clk.tick - b.since.getD s.clk.tick)))
      else s
    | none => s)

/-- A buffer is charged to an owner in a partition; for the sample service, through a session. -/
def Buffer.heldBy (b : Buffer) (mask : BitVec 8) (p : Nat) (o : Owner) (session : Option (Fn × Nat)) : Bool :=
  b.owner == o && partOfRow mask b.row.val == p && (session.isNone || b.session == session)

/-- R424, R432: an owner closes: what it still holds is due for reclaim 5 commits later. -/
def State.closeOwner (s : State) (p : Nat) (o : Owner) (session : Option (Fn × Nat)) : State :=
  if s.pools.bufs.any (fun b => b.heldBy s.work.startMask p o session) then
    { s with pools := { s.pools with
      closed := s.pools.closed ++ [{ partition := p, owner := o, session := session, commit := s.clk.tick }] } }
  else s

/-- R432: what a closed owner still holds at commit c + 5 or later goes to the scrub owner; a buffer whose release frees it at that commit
is not reclaimed. -/
def State.reclaim (s : State) (c : ClosedOwner) : State :=
  let mine (b : Buffer) : Bool := b.heldBy s.work.startMask c.partition c.owner c.session && !b.releasing
  let taken := s.pools.bufs.filter mine
  let s := { s with pools := { s.pools with
    bufs := updWhere mine (fun b => { b with owner := .scrub, session := none }) s.pools.bufs, closed := s.pools.closed.erase c } }
  if taken.isEmpty then s
  else s.raise pfFn 0x0302
    (le 1 (sumOf ((List.range 6).map (fun k => if taken.any (fun b => b.cls == k) then 2 ^ k else 0))) ++
      le 1 c.partition ++ le 2 0 ++ le 4 (ownerCode c.owner) ++ le 4 taken.length ++ le 4 c.commit)

/-- POOL_FORCED_RECLAIM (R432), as of the coming commit. -/
def execPoolForcedReclaim (i : ReclaimIn) (s : State) : Out :=
  .next (match s.pools.closed.find? (fun (c : ClosedOwner) => c.partition == i.partition && c.owner == i.owner) with
    | some c => if s.dead || s.clk.tick + 1 < c.commit + 5 then s else s.atNext (fun s => s.reclaim c)
    | none => s)

end Sys2Proof.Machine
end

