-- ==== Sys2Proof/Machine/Memory.lean ====
section
/-! DEFINITION. The memory nodes (13_memory_qos.md): address decoding, the write queue, regulators, arbitration, ECC,
refresh and background work, and accesses to tile SRAM (14:R480). -/

namespace Sys2Proof.Machine

/-! ### Parts of the memory state -/

def State.channel (s : State) (c : Channel) : ChannelSt := s.dram.channels.get c

def State.modChannel (s : State) (c : Channel) (g : ChannelSt → ChannelSt) : State :=
  { s with dram := { s.dram with channels := s.dram.channels.set c.val (g (s.dram.channels.get c)) } }

/-- Port `p` of the memory node of a row (R457). -/
def portIndex (row : Row) (p : Fin 9) : Fin 72 := ⟨9 * row.val + p.val, by omega⟩

def State.modPort (s : State) (i : Fin 72) (g : PortSt → PortSt) : State :=
  { s with dram := { s.dram with ports := s.dram.ports.set i.val (g (s.dram.ports.get i)) } }

/-- The channels of a row that serve it (R437, R443). -/
def State.rowChannels (s : State) (row : Row) : List Channel :=
  (List.finRange 16).filter (fun c => c.val / 2 == row.val && s.available .dramChannel c.val)

/-! ### Addresses (R438-R443, R480) -/

/-- Usable bytes of a row (R440, R443). -/
def State.rowSize (s : State) (row : Row) : Nat := (s.rowChannels row).length * 0xE0000000

/-- R441, R443: the channel and channel address of a row offset. -/
def State.mapOffset (s : State) (row : Row) (off : Nat) : Option (Channel × Nat) :=
  match s.rowChannels row with
  | [] => none
  | [c] => some (c, off)
  | c0 :: c1 :: _ =>
    some (if bitOf off 8 then c1 else c0, off / 512 * 256 + off % 256)

/-- The key of a channel address in `Dram.mem`. -/
def dramKey (c : Channel) (a : Nat) : Nat := c.val * 2 ^ 32 + a

/-- R442: page, block and bank of a channel address. -/
def pageOf (a : Nat) : Nat := a / 1792
def bankOfPage (p : Nat) : Nat := (p ^^^ (p >>> 4) ^^^ (p >>> 8)) % 16
def bankOf (a : Nat) : Nat := bankOfPage (pageOf a)
/-- R442: DRAM row of a page. -/
def dramRowOf (p : Nat) : Nat := p / 16
/-- R442: the 256 B block within its page, and the byte within the block. -/
def blockOf (a : Nat) : Nat := a % 1792 / 256
def byteOf (a : Nat) : Nat := a % 256
/-- R442: where in its 2 KiB page a channel address stands, and where its block's ECC does. -/
def pageOffset (a : Nat) : Nat := 256 * blockOf a + byteOf a
def checkSlot (a : Nat) : Nat := 1792 + 32 * blockOf a

/-! ### The inline code (R444) -/

/-- What the code finds in a granule. -/
inductive EccFind where
  | clean | correctable | uncorrectable
  deriving DecidableEq, Repr

/-- The page offsets of a granule's 32 data bytes and 4 check bytes; check bytes stand in granule order in their block's slot
(notes/assumptions/171.md). -/
def codeword (g : Nat) : List Nat :=
  let a := 32 * g
  (List.range 32).map (pageOffset a + ·) ++ (List.range 4).map (checkSlot a + 4 * (byteOf a / 32) + ·)

/-- Places of a granule's codeword that are damaged. -/
def damagedIn (d : PageDamage) (g : Nat) : List Nat :=
  ((codeword g).zipIdx.filter (fun x => d.bytes.any (fun b => b.val == x.1))).map (·.2)

/-- R444: one damaged byte is corrected, two are detected, and so is a wrong location; for more the spec states nothing. -/
def eccFind (d : PageDamage) (c : Channel) (g : Nat) : EccFind :=
  if d.misplaced then .uncorrectable
  else match damagedIn d g with
    | [] => .clean
    | [_] => .correctable
    | [_, _] => .uncorrectable
    | hs => match Config.eccBeyond (dramKey c (32 * g)) hs % 3 with
      | 0 => .clean
      | 1 => .correctable
      | _ => .uncorrectable

/-- The code passes a granule with other bytes than those written. -/
def eccWrong (d : PageDamage) (c : Channel) (g : Nat) : Bool := decide (2 < (damagedIn d g).length) && eccFind d c g != .uncorrectable

/-- What DRAM holds once the code has passed granules, as far as it gives other bytes than those written. -/
def eccLeaves (mem : Memory) (d : PageDamage) (c : Channel) (gs : List Nat) : Memory :=
  (gs.filter (eccWrong d c)).foldl (fun mem g =>
    Memory.write mem (dramKey c (32 * g)) ((List.range 32).map (Config.eccData (dramKey c (32 * g)) (damagedIn d g)))) mem

/-- R445: raw bytes of a request of `n` bytes at channel address `a`. -/
def rawCost (a n : Nat) : Nat :=
  if n = 0 then 0
  else ((a + n - 1) / 32 - a / 32 + 1) * 32 + ((a + n - 1) / 256 - a / 256 + 1) * 32

/-- R439, R480: what a device address names. -/
inductive DevTarget where
  | dram (row : Nat) (off : Nat)
  | sram (tile : Nat) (addr : Nat)
  | nothing
  deriving DecidableEq, Repr

/-- Table 13.1, R480. -/
def State.devTarget (s : State) (a : DevAddr) : DevTarget :=
  let v := a.toNat
  if bitsOf v 47 45 != s.boot.moduleNo then .nothing
  else if bitsOf v 44 36 == 0 then .dram (bitsOf v 35 33) (bitsOf v 32 0)
  else if bitsOf v 44 36 == 1 then
    let n := bitsOf v 35 29
    if n < 72 && n % 9 < 2 && bitsOf v 28 23 == 0 then .sram (2 * (n / 9) + n % 9) (bitsOf v 22 0) else .nothing
  else .nothing

/-- R507: port 7 takes requests of other modules within a granted region only. -/
def State.portOpen (s : State) (i : DramReqIn) : Bool :=
  i.port.val != 7 ||
    (s.chain.grants.any (fun g => Config.grantedRegion g.home g.handle i.address.toNat) ||
      s.chain.mirrors.any (fun m => Config.grantedRegion m.home m.handle i.address.toNat))

def reqSize (i : DramReqIn) : Nat := if i.write then i.data.length else i.bytes

/-! ### Charging (R459, R461, R463) -/

/-- R459: a request of this raw cost is below minimum. -/
def PortSt.below (p : PortSt) (raw : Nat) : Bool := raw ≤ p.tokens

/-- A grant charges its port. -/
def PortSt.charge (p : PortSt) (raw : Nat) : PortSt :=
  if p.below raw then { p with tokens := p.tokens - raw, granted := p.granted + raw }
  else { p with above := p.above + raw, granted := p.granted + raw }

/-- R463: a grant after its deadline is counted. -/
def PortSt.lateness (p : PortSt) (slot64 deadline : Nat) : PortSt :=
  if deadline != 0xFFFF && deadline < slot64 then { p with late := p.late + 1, lateDue := p.lateDue + 1 } else p

/-! ### The write queue (R451-R456) -/

def wqFind (wq : List WqEntry) (granule : Nat) : Option WqEntry := wq.find? (fun e => e.granule == granule)

/-- The bytes of one granule under byte enables laid over others. -/
def mergeBytes : List Byte → List Byte → List Bool → List Byte
  | o :: os, n :: ns, e :: es => (if e then n else o) :: mergeBytes os ns es
  | os, _, _ => os

/-- R451: a granule's write merges into its entry or takes a new one at the end. -/
def wqMerge (wq : List WqEntry) (granule : Nat) (data : List Byte) (en : List Bool) : List WqEntry :=
  if wq.any (fun e => e.granule == granule) then
    updWhere (fun e => e.granule == granule)
      (fun e => { e with data := mergeBytes e.data data en, enables := List.zipWith (· || ·) e.enables en }) wq
  else wq ++ [{ granule := granule, data := data, enables := en }]

/-- A write of bytes at a channel address, granule by granule: `fuel` bounds the granules. -/
def wqWrite : Nat → List WqEntry → Nat → List Byte → List Bool → List WqEntry
  | 0, wq, _, _, _ => wq
  | fuel + 1, wq, a, data, en =>
    if data.isEmpty then wq
    else
      let lead := a % 32
      let n := min (32 - lead) data.length
      let pad (k : Nat) : List Byte := List.replicate k 0
      let d := pad lead ++ data.take n ++ pad (32 - lead - n)
      let e := List.replicate lead false ++ en.take n ++ List.replicate (32 - lead - n) false
      wqWrite fuel (wqMerge wq (a / 32) d e) (a + n) (data.drop n) (en.drop n)

/-- R452: what a read of one byte sees. -/
def readByte (mem : Memory) (wq : List WqEntry) (c : Channel) (a : Nat) : Byte :=
  match wqFind wq (a / 32) with
  | some e => if (nth false e.enables (a % 32)) then nth 0 e.data (a % 32) else mem.get (dramKey c a)
  | none => mem.get (dramKey c a)

/-- R452: what a read sees. -/
def readBytes (mem : Memory) (wq : List WqEntry) (c : Channel) (a n : Nat) : List Byte :=
  (List.range n).map (fun i => readByte mem wq c (a + i))

/-- The granules of `n` bytes at a channel address. -/
def granulesOf (a n : Nat) : List Nat :=
  if n = 0 then [] else (List.range ((a + n - 1) / 32 - a / 32 + 1)).map (· + a / 32)

/-- R453: every granule of the read is wholly enabled in the queue. -/
def wqCovers (wq : List WqEntry) (a n : Nat) : Bool :=
  (granulesOf a n).all (fun g => match wqFind wq g with
    | some e => e.enables.all (· == true)
    | none => false)

/-! ### DRAM_REQUEST (R440, R445, R451-R457, R480) -/

/-- The pieces of a request, at most `fuel` of them: it is cut at every 256 B block, since blocks alternate between the
channels (R441). -/
def pieces : Nat → Nat → Nat → List (Nat × Nat)
  | 0, _, _ => []
  | fuel + 1, off, n =>
    if n = 0 then []
    else
      let k := min n (256 - off % 256)
      (off, k) :: pieces fuel (off + k) (n - k)

/-- R440: a refused request: returned as an error, and the requesting unit reports a fault of its job. -/
def State.refuseRequest (s : State) (i : DramReqIn) : State :=
  ({ s with dram := { s.dram with refused := s.dram.refused + 1 } }).jobFault i.job none ⟨.row, i.row.val⟩

/-- A piece of a read: answered from the queue (R453) or waiting at its channel. -/
def State.requestRead (s : State) (i : DramReqIn) (c : Channel) (a n : Nat) : State :=
  let wq := (s.channel c).wq
  let seq := s.dram.nextSeq
  let s := { s with dram := { s.dram with nextSeq := seq + 1 } }
  if wqCovers wq a n then
    let s := s.modPort (portIndex i.row i.port) (fun p => p.charge n)
    { s with dram := { s.dram with
        replies := { seq := seq, port := i.port.val, data := readBytes s.dram.mem wq c a n, poisoned := false } ::
          s.dram.replies } }
  else s.modChannel c (fun x => { x with reqs := x.reqs ++
    [{ seq := seq, port := i.port.val, write := false, addr := a, bytes := n, raw := rawCost a n,
       deadline := i.deadline.toNat, job := i.job }] })

/-- A piece of a write, accepted into the write queue and charged to its port. -/
def State.requestWrite (s : State) (i : DramReqIn) (c : Channel) (a : Nat) (data : List Byte) (en : List Bool) : State :=
  (s.modChannel c (fun x => { x with wq := wqWrite (data.length + 1) x.wq a data en })).modPort (portIndex i.row i.port)
    (fun p => p.charge (rawCost a data.length))

/-- One piece of a request at row offset `off`; `start` is where the request begins. -/
def State.requestPiece (s : State) (i : DramReqIn) (start : Nat) (p : Nat × Nat) : State :=
  match s.mapOffset i.row p.1 with
  | some (c, a) =>
    if i.write then s.requestWrite i c a ((i.data.drop (p.1 - start)).take p.2)
      (fitBool p.2 ((i.enables.drop (p.1 - start)).take p.2))
    else s.requestRead i c a p.2
  | none => s
where
  /-- Byte enables beyond those given are set. -/
  fitBool (n : Nat) (es : List Bool) : List Bool := es ++ List.replicate (n - es.length) true

/-- R455: the write queues have room for every new granule of a write. -/
def State.writeFits (s : State) (i : DramReqIn) (ps : List (Nat × Nat)) : Bool :=
  let gs := ps.filterMap (fun p => (s.mapOffset i.row p.1).map (fun x => (x.1, granulesOf x.2 p.2)))
  (s.rowChannels i.row).all (fun c =>
    let wq := (s.channel c).wq
    let new := (gs.flatMap (fun x => if x.1 == c then x.2 else [])).eraseDups.filter (fun g => (wqFind wq g).isNone)
    decide (wq.length + new.length ≤ 64))

/-- An access to tile SRAM (R480): it is served at once. -/
def State.requestSram (s : State) (i : DramReqIn) (tile addr : Nat) : State :=
  let key := tile * 2 ^ 23 + addr
  if i.write then
    { s with dram := { s.dram with
        sram := Memory.writeEn s.dram.sram key i.data
          (i.enables ++ List.replicate (i.data.length - i.enables.length) true) } }
  else
    { s with dram := { s.dram with
        nextSeq := s.dram.nextSeq + 1,
        replies := { seq := s.dram.nextSeq, port := i.port.val, data := Memory.read s.dram.sram key i.bytes,
                     poisoned := false } :: s.dram.replies } }

/-- A memory request (R440, R451-R457, R480, R507). -/
def State.memRequest (s : State) (i : DramReqIn) : State :=
  let part (row : Nat) : Bool := i.port.val == 7 || partOfRow s.work.startMask row == i.partition
  if !s.portOpen i then s.refuseRequest i
  else match s.devTarget i.address with
    | .dram row off =>
      if row != i.row.val || !part row || s.rowSize i.row < off + reqSize i || s.rowSize i.row ≤ off then s.refuseRequest i
      else
        let ps := pieces (reqSize i) off (reqSize i)
        if i.write && !s.writeFits i ps then s else ps.foldl (fun s p => s.requestPiece i off p) s
    | .sram tile addr =>
      if part (tile / 2) && s.available .facetTile tile && addr + reqSize i ≤ 2 ^ 23 then s.requestSram i tile addr
      else s.refuseRequest i
    | .nothing => s.refuseRequest i

/-- DRAM_REQUEST (R457). -/
def execDramRequest (i : DramReqIn) (s : State) : Out := .next (if s.dead then s else s.memRequest i)

/-! ### SCHEDULING_DECISION (R447, R454, R459-R463) -/

/-- R461: the key of a request above minimum. -/
def aboveKey (p : PortSt) (deadline : Nat) : Nat := deadline + p.above / (16 * max 1 p.weight)

/-- The first of two lists of numbers in lexicographic order. -/
def lexBefore : List Nat → List Nat → Bool
  | a :: as, b :: bs => decide (a < b) || (a == b && lexBefore as bs)
  | _, _ => false

def State.portOf (s : State) (c : Channel) (p : Nat) : PortSt :=
  nth PortSt.reset s.dram.ports.toList (9 * (c.val / 2) + p)

/-- What orders a waiting request: below minimum first, background above its minimum last (R467), requests with no deadline behind those that have
one (R460), then deadline or key, port and arrival (R461). -/
def State.dramKeys (s : State) (c : Channel) (r : DramReq) : List Nat :=
  let p := s.portOf c r.port
  let below := p.below r.raw
  [if below then 0 else if r.port = 8 then 2 else 1, boolNat (r.deadline == 0xFFFF),
   if below then r.deadline else aboveKey p r.deadline, r.port, r.seq]

/-- R461: `a` stands before `b`. -/
def State.dramBefore (s : State) (c : Channel) (a b : DramReq) : Bool := lexBefore (s.dramKeys c a) (s.dramKeys c b)

/-- The waiting requests in the order of R461. -/
def State.dramOrder (s : State) (c : Channel) : List DramReq := sortBy (s.dramBefore c) (s.channel c).reqs

/-- R462: a request whose bank waits on a timing constraint is passed over only by requests of other banks. -/
def State.dramChoice (s : State) (c : Channel) (blocked : List (Fin 16)) : Option DramReq :=
  (s.dramOrder c).find? (fun r => !(blocked.any (fun b => b.val == bankOf r.addr)))

/-- R454: whether the channel drains. -/
def ChannelSt.drains (x : ChannelSt) : Bool := 48 ≤ x.wq.length || (x.draining && 16 < x.wq.length)

/-- R447, R85: an uncorrectable granule is reported with its channel and channel address. -/
def State.eccReport (s : State) (c : Channel) (addr : Nat) (job : Option FrameRef) : State :=
  let n : FaultNote :=
    { cls := some .eccUncorrectable, handle := (job.map (·.handle.toNat)).getD 0xFFFF, seq := (job.map (·.seq.toNat)).getD 0,
      unit := ⟨.dramChannel, c.val⟩, stateLost := false, column := none, address := some addr }
  { s with safety := { s.safety with faults := s.safety.faults ++ [n] } }

/-- Background traffic of a channel is charged to port 8 of its node (Table 13.2, R446, R465, R466). -/
def State.chargeBackground (s : State) (c : Channel) (raw : Nat) : State :=
  s.modPort (portIndex ⟨c.val / 2, by omega⟩ 8) (fun p => p.charge raw)

/-- The raw bytes a channel could move while it stalls (R437, R466; notes/assumptions/173.md). -/
def stallBytes (ns : Nat) : Nat := ns * 17066 / 1000

def addPoison (old : List Nat) (ks : List Nat) : List Nat := (ks.filter (fun k => !old.contains k)) ++ old

/-- R444, R446, R447, R452: a granted read of one page; `d` is the page's state. -/
def State.grantRead (s : State) (c : Channel) (r : DramReq) (d : PageDamage) (slot64 : Nat) : State :=
  let wq := (s.channel c).wq
  let fromDram := (granulesOf r.addr r.bytes).filter (fun g => match wqFind wq g with
    | some e => !(e.enables.all (· == true))
    | none => true)
  let keyOf (g : Nat) : Nat := dramKey c (32 * g)
  let lost := fromDram.filter (fun g => eccFind d c g == .uncorrectable)
  let fixed := (fromDram.filter (fun g => eccFind d c g == .correctable)).length
  let hit := fromDram.find? (fun g => lost.contains g || s.dram.poison.contains (keyOf g))
  let mem := eccLeaves s.dram.mem d c fromDram
  let s := match portFin c r.port with
    | some i => s.modPort i (fun p => (p.charge r.raw).lateness slot64 r.deadline)
    | none => s
  let s := s.modChannel c (fun x => { x with
    reqs := x.reqs.filter (fun y => y.seq != r.seq), corrected := x.corrected + fixed })
  let s := s.chargeBackground c (64 * (fixed + lost.length))
  let s := { s with dram := { s.dram with
    mem := mem, poison := addPoison s.dram.poison (lost.map keyOf),
    replies := { seq := r.seq, port := r.port, data := readBytes mem wq c r.addr r.bytes, poisoned := hit.isSome } ::
      s.dram.replies } }
  match hit with
  | some g => s.eccReport c (32 * g) r.job
  | none => s
where
  portFin (c : Channel) (p : Nat) : Option (Fin 72) :=
    if h : 9 * (c.val / 2) + p < 72 then some ⟨9 * (c.val / 2) + p, h⟩ else none

/-- R447, R454: one queued entry goes to DRAM; a whole granule clears its poison. -/
def State.drainEntry (s : State) (c : Channel) (e : WqEntry) : State :=
  let k := dramKey c (32 * e.granule)
  let s := s.modChannel c (fun x => { x with wq := x.wq.filter (fun y => y.granule != e.granule) })
  { s with dram := { s.dram with
    mem := Memory.writeEn s.dram.mem k e.data e.enables,
    poison := if e.enables.all (· == true) then s.dram.poison.filter (· != k) else s.dram.poison } }

/-- The oldest queued entry whose bank is not blocked. -/
def drainChoice (wq : List WqEntry) (blocked : List (Fin 16)) : Option WqEntry :=
  wq.find? (fun e => !(blocked.any (fun b => b.val == bankOf (32 * e.granule))))

/-- R454, R461: one decision of a channel. -/
def State.schedule (s : State) (i : SchedIn) : State :=
  let x := s.channel i.channel
  let drains := x.drains
  let s := s.modChannel i.channel (fun x => { x with draining := drains })
  let read := s.dramChoice i.channel i.blocked
  let below := match read with
    | some r => (s.portOf i.channel r.port).below r.raw
    | none => false
  let entry := drainChoice x.wq i.blocked
  match read, entry with
  | some r, some e =>
    if drains && !(x.wq.length < 56 && below) then s.drainEntry i.channel e
    else s.grantRead i.channel r i.ecc i.slot64.toNat
  | some r, none => s.grantRead i.channel r i.ecc i.slot64.toNat
  | none, some e => s.drainEntry i.channel e
  | none, none => s

/-- SCHEDULING_DECISION (R461). -/
def execSchedulingDecision (i : SchedIn) (s : State) : Out :=
  .next (if s.dead || !s.available .dramChannel i.channel.val then s else s.schedule i)

/-- R459: one gain of tokens. -/
def PortSt.refill (p : PortSt) : PortSt := { p with tokens := min p.burst (p.tokens + p.minRate) }

/-- REGULATOR_REFILL (R459): every port of the memory node of a row. -/
def execRegulatorRefill (i : ClusterIn) (s : State) : Out :=
  .next (if s.dead then s
    else (List.finRange 9).foldl (fun s p => s.modPort (portIndex i.row p) PortSt.refill) s)

/-! ### Refresh and temperature (R448-R450, R466) -/

/-- R448: half the interval in force for the odd channel of a node, in half nanoseconds; the even channel leads. -/
def staggerOf (c : Channel) (interval : Nat) : Nat := if c.val % 2 == 1 then interval else 0

/-- REFRESH (R448): an all-bank refresh at the interval in force; a new rate's stagger holds from its first refresh. -/
def execRefresh (i : ChannelIn) (s : State) : Out :=
  .next (if s.dead || !s.available .dramChannel i.channel.val then s
    else s.modChannel i.channel (fun x =>
      { x with refreshes := x.refreshes + 1, stagger := staggerOf i.channel x.interval }))

/-- R449, R450: the interval a channel's own reads ask for. -/
def ChannelSt.readTemp (x : ChannelSt) (t : Int) : ChannelSt :=
  let cool := if t ≤ 80 then x.coolReads + 1 else 0
  { x with celsius := t, coolReads := cool,
           wanted := if 105 < t then 975 else if 85 < t then 1950
             else if 96 ≤ cool then 3900 else if x.wanted == 975 then 1950 else x.wanted }

/-- The other channel of the memory node. -/
def otherChannel (c : Channel) : Channel :=
  if c.val % 2 == 0 then ⟨(c.val + 1) % 16, Nat.mod_lt _ (by decide)⟩ else ⟨c.val - 1, by omega⟩

/-- R448: both channels of a node take the faster interval that either asks for. -/
def State.setRefresh (s : State) (c : Channel) : State :=
  let o := otherChannel c
  let f := if s.available .dramChannel o.val then min (s.channel c).wanted (s.channel o).wanted else (s.channel c).wanted
  (s.modChannel c (fun x => { x with interval := f })).modChannel o (fun x => { x with interval := f })

/-- TEMPERATURE_READ (R449, R450). -/
def execTemperatureRead (i : TempIn) (s : State) : Out :=
  .next (if s.dead || !s.available .dramChannel i.channel.val then s
    else
      let was := (s.channel i.channel).wanted
      let s := ((s.modChannel i.channel (fun x => x.readTemp i.celsius)).setRefresh i.channel).chargeBackground i.channel (stallBytes 20)
      if 105 < i.celsius && was != 975 then
        s.atNext (fun s => s.raiseNode pfFn 0x0305 (nodeOfUnit ⟨.dramChannel, i.channel.val⟩) (le 1 i.channel.val ++ leS 1 i.celsius))
      else s)

/-- ZQ_CALIBRATION (R466): once every 18 ticks. -/
def execZqCalibration (i : ChannelIn) (s : State) : Out :=
  .next (if s.dead || !s.available .dramChannel i.channel.val then s
    else match (s.channel i.channel).zqTick with
      | some t => if s.clk.tick < t + 18 then s else zq i.channel s
      | none => zq i.channel s)
where
  zq (c : Channel) (s : State) : State :=
    (s.modChannel c (fun x => { x with zqs := x.zqs + 1, zqTick := some s.clk.tick })).chargeBackground c (stallBytes 32)

/-! ### Ledger entries added at run time (17:R585-R587) and patrol scrub (R446, R465) -/

/-- Adds a ledger entry to both copies unless both are full (17:R589, 18:R611). -/
def State.addLedger (s : State) (type kind unit source : Nat) (detail : List Byte) : State :=
  let e : LedgerEntry := { type := type, unitKind := kind, unit := unit, source := source, startCount := s.mmc.starts,
                           tick := s.clk.tick, detail := fit 12 detail }
  if s.nor.writesStopped then s
  else if 4096 ≤ s.nor.ledger0.length && 4096 ≤ s.nor.ledger1.length then s.raise pfFn 0x0703 (le 2 s.nor.ledger0.length)
  else
    let put (l : List LedgerEntry) : List LedgerEntry := if l.length < 4096 then l ++ [e] else l
    { s with nor := { s.nor with ledger0 := put s.nor.ledger0, ledger1 := put s.nor.ledger1 } }

/-- R446: a page with a correctable error: reported when the previous pass showed one too. -/
def State.scrubCorrected (s : State) (c : Channel) (granule : Nat) : State :=
  let p := pageOf (32 * granule)
  let x := s.channel c
  let twice := x.suspectPages.contains (p, x.scrubPass - 1) && 0 < x.scrubPass && !x.suspectPages.contains (p, x.scrubPass)
  let s := s.modChannel c (fun x => { x with
    corrected := x.corrected + 1,
    suspectPages := (p, x.scrubPass) :: x.suspectPages.filter (fun y => y.2 + 1 == x.scrubPass || (y.2 == x.scrubPass && y.1 != p)) })
  if twice then
    let d := le 1 (bankOfPage p) ++ le 1 0 ++ le 4 (dramRowOf p)
    s.atNext (fun s => (s.raiseNode pfFn 0x0304 (nodeOfUnit ⟨.dramChannel, c.val⟩) (le 1 c.val ++ le 1 (bankOfPage p) ++ le 2 0 ++
      le 4 (dramRowOf p))).addLedger 4 6 c.val 1 d)
  else s

/-- PATROL_SCRUB (R465): one granule, within 121,089 raw bytes a tick; a pass ends when the position falls back. -/
def execPatrolScrub (i : ScrubIn) (s : State) : Out :=
  .next (
    let x := s.channel i.channel
    let g := i.granule.toNat
    if s.dead || !s.available .dramChannel i.channel.val || 121089 < x.scrubBytes + 64 || 0xE0000000 ≤ 32 * g then s
    else
      let s := s.modChannel i.channel (fun x => { x with
        scrubBytes := x.scrubBytes + 64, scrubPos := g,
        scrubPass := if g < x.scrubPos then x.scrubPass + 1 else x.scrubPass })
      let k := dramKey i.channel (32 * g)
      let found := if s.dram.poison.contains k then .uncorrectable else eccFind i.ecc i.channel g
      let s := { s with dram := { s.dram with mem := eccLeaves s.dram.mem i.ecc i.channel [g] } }
      let s := s.chargeBackground i.channel (if found == .clean then 64 else 128)
      match found with
      | .clean => s
      | .correctable => s.scrubCorrected i.channel g
      | .uncorrectable =>
        ({ s with dram := { s.dram with poison := addPoison s.dram.poison [k] } }).eccReport i.channel (32 * g) none)

/-! ### At a commit (R450, R458, R459, R463, R467) -/

/-- Raw bytes a channel gives in one tick after refresh (Table 2.2, R450). -/
def channelCapacity (hot : Bool) : Nat := if hot then 20157396 else 24217872

/-- The regulators' sum of MIN_RATE per 64 ns over one node (R458). -/
def State.nodeRate (s : State) (row : Row) : Nat :=
  sumOf ((s.rowChannels row).map (fun _ => channelCapacity false)) * 64 / 1666667

/-- Port 8's minimum share per 64 ns (R458, R465, R466): 1 % of the node. -/
def State.backgroundRate (s : State) (row : Row) : Nat := min (s.nodeRate row) (ceilDiv (s.nodeRate row) 100)

/-- R467: what port 8's minimum rises by in the next tick. -/
def State.shortfall (s : State) (row : Row) : Nat :=
  let share := s.backgroundRate row
  ceilDiv (share * 26041 - (s.dram.ports.get (portIndex row 8)).granted) 26041

/-- R458: the parameters of one port under the plan. The spec does not say how the plan becomes numbers: they are free
within the bounds it gives (notes/assumptions/17.md). -/
def planPort (tick row p left : Nat) : PortSt :=
  { PortSt.reset with
    minRate := min left (Config.portRate tick row p % 2185), burst := 256 + Config.portBurst tick row p % 65281,
    weight := 1 + Config.portWeight tick row p % 255 }

/-- Sets the ports of a node from 0 up within the rate left. -/
def State.planPorts (s : State) (row : Row) : State :=
  let r8 := min (s.nodeRate row) (s.backgroundRate row + s.shortfall row)
  let set (i : Fin 72) (q : PortSt) (s : State) : State :=
    s.modPort i (fun old => { q with tokens := q.burst, late := old.late, lateDue := 0 })
  let r := (List.finRange 8).foldl (fun (acc : Nat × State) p =>
    let q := planPort s.clk.tick row.val p.val acc.1
    (acc.1 - q.minRate, set (portIndex row ⟨p.val, by omega⟩) q acc.2)) (s.nodeRate row - r8, s)
  set (portIndex row 8) { planPort s.clk.tick row.val 8 0 with minRate := r8 } r.2

/-- R463: the deadline misses of the tick that ends, at most one event per port. -/
def State.reportLate (s : State) : State :=
  (List.finRange 72).foldl (fun s i =>
    let p := s.dram.ports.get i
    if p.lateDue = 0 then s
    else s.raiseNode pfFn 0x0306 (9 * (i.val / 9) + 5) (le 1 (9 * (i.val / 9) + 5) ++ le 1 (i.val % 9) ++ le 2 0 ++ le 4 p.lateDue)) s

/-- The memory nodes' part of a commit: events, the plan's capacity (R450) and the coming tick's regulators. -/
def State.memoryCommit (s : State) : State :=
  let s := s.reportLate
  let s := (List.finRange 16).foldl (fun s c =>
    s.modChannel c (fun x => { x with scrubBytes := 0, hot := x.interval == 975 })) s
  (List.finRange 8).foldl (fun s r => s.planPorts r) s

/-! ### Zeroing (05:R192, 12:R432) -/

/-- Whether a channel address of a row lies within `n` bytes from a row offset (R441, R443). -/
def State.withinRow (s : State) (row : Row) (lo n : Nat) (c : Channel) (a : Nat) : Bool :=
  match s.rowChannels row with
  | [] => false
  | [c0] => c == c0 && decide (lo ≤ a) && decide (a < lo + n)
  | c0 :: c1 :: _ =>
    let off := a / 256 * 512 + a % 256 + (if c == c1 then 256 else 0)
    (c == c0 || c == c1) && decide (lo ≤ off) && decide (off < lo + n)

/-- The channel and channel address of a key of `Dram.mem`. -/
def keyChannel (k : Nat) : Channel := ⟨k / 2 ^ 32 % 16, by omega⟩
def keyAddr (k : Nat) : Nat := k % 2 ^ 32

/-- Zeroes `n` bytes of a row from an offset: its bytes read 0, nothing queued for it is left, and its granules are written whole. -/
def State.zeroRow (s : State) (row : Row) (lo n : Nat) : State :=
  let hit (k : Nat) : Bool := s.withinRow row lo n (keyChannel k) (keyAddr k)
  let s := { s with dram := { s.dram with mem := s.dram.mem.filter (fun b => !hit b.1),
                                          poison := s.dram.poison.filter (fun k => !hit k) } }
  (s.rowChannels row).foldl (fun s c => s.modChannel c (fun x =>
    { x with wq := x.wq.filter (fun e => !s.withinRow row lo n c (32 * e.granule)) })) s

/-- Zeroes the bytes of a pool buffer. -/
def State.zeroBuffer (s : State) (b : Buffer) : State :=
  s.zeroRow b.row (poolBase b.cls + b.index * bufferBytes b.cls) (bufferBytes b.cls)

/-- ZEROING_COMPLETE (R192, R432): a buffer of the scrub owner holds zeroes and returns to free at the next commit. -/
def execZeroingComplete (i : PoolBufIn) (s : State) : Out :=
  .next (match s.bufByHandle i.partition i.handle.toNat with
    | some b =>
      if !s.dead && b.owner == .scrub then
        let s := s.zeroBuffer b
        { s with pools := { s.pools with
          bufs := updWhere (fun x => x.row == b.row && x.cls == b.cls && x.index == b.index)
            (fun x => { x with releasing := true }) s.pools.bufs } }
      else s
    | none => s)

end Sys2Proof.Machine
end

