-- ==== Sys2Proof/Machine/Float.lean ====
section
/-! DEFINITION. IEEE 754 binary32 and binary16 on exact dyadic numbers with round-to-nearest-even, as R337, R360, R371 and
R378 use them. A NaN result is the quiet NaN without payload. -/

namespace Sys2Proof.Machine

/-- A decoded floating-point number: the finite value is (-1)^neg * m * 2^e. -/
inductive Fl where
  | nan
  | inf (neg : Bool)
  | fin (neg : Bool) (m : Nat) (e : Int)
  deriving DecidableEq, Repr

/-- A binary format: mantissa bits with the hidden one, exponent of the least subnormal bit, exponent field width. -/
structure FlFormat where
  p : Nat
  emin : Int
  w : Nat
  deriving DecidableEq, Repr

def binary32 : FlFormat := { p := 24, emin := -149, w := 8 }
def binary16 : FlFormat := { p := 11, emin := -24, w := 5 }

/-- Reads a bit pattern. -/
def flDecode (f : FlFormat) (bits : Nat) : Fl :=
  let frac := bits % 2 ^ (f.p - 1)
  let ex := bits / 2 ^ (f.p - 1) % 2 ^ f.w
  let neg := bits.testBit (f.p - 1 + f.w)
  if ex = 2 ^ f.w - 1 then (if frac = 0 then .inf neg else .nan)
  else if ex = 0 then .fin neg frac f.emin
  else .fin neg (frac + 2 ^ (f.p - 1)) (f.emin + (ex - 1 : Nat))

/-- `m` shifted right by `s` bits, rounded to nearest even. -/
def shiftRne (m s : Nat) : Nat :=
  let q := m >>> s
  let r := m % 2 ^ s
  let half := if s = 0 then 0 else 2 ^ (s - 1)
  if s != 0 && (half < r || (r == half && q % 2 == 1)) then q + 1 else q

/-- The bit pattern of a decoded number, rounded to nearest even. -/
def flEncode (f : FlFormat) (x : Fl) : Nat :=
  let sign (n : Bool) : Nat := boolNat n * 2 ^ (f.p - 1 + f.w)
  let infBits := (2 ^ f.w - 1) * 2 ^ (f.p - 1)
  match x with
  | .nan => infBits + 2 ^ (f.p - 2)
  | .inf n => sign n + infBits
  | .fin n m e =>
    if m = 0 then sign n
    else
      let s : Int := max ((bitlen m : Int) - f.p) (f.emin - e)
      let q := if s ≤ 0 then m <<< (-s).toNat else shiftRne m s.toNat
      if q < 2 ^ (f.p - 1) then sign n + q
      else
        let field := (e + s - f.emin).toNat + 1
        let bits := field * 2 ^ (f.p - 1) + (q - 2 ^ (f.p - 1))
        sign n + min infBits bits

/-- The signed mantissas of two finite numbers at a common exponent. -/
def flAlign (n1 : Bool) (m1 : Nat) (e1 : Int) (n2 : Bool) (m2 : Nat) (e2 : Int) : Int × Int × Int :=
  let e := min e1 e2
  let a : Int := (m1 <<< (e1 - e).toNat : Nat)
  let b : Int := (m2 <<< (e2 - e).toNat : Nat)
  (if n1 then -a else a, if n2 then -b else b, e)

/-- Exact sum; the format rounds it. A zero sum is positive unless both are negative. -/
def flAdd (x y : Fl) : Fl :=
  match x, y with
  | .nan, _ => .nan
  | _, .nan => .nan
  | .inf a, .inf b => if a == b then .inf a else .nan
  | .inf a, _ => .inf a
  | _, .inf b => .inf b
  | .fin n1 m1 e1, .fin n2 m2 e2 =>
    let r := flAlign n1 m1 e1 n2 m2 e2
    let s := r.1 + r.2.1
    if s = 0 then .fin (n1 && n2) 0 r.2.2 else .fin (decide (s < 0)) s.natAbs r.2.2

def flNeg : Fl → Fl
  | .nan => .nan
  | .inf n => .inf (!n)
  | .fin n m e => .fin (!n) m e

def flSub (x y : Fl) : Fl := flAdd x (flNeg y)

/-- Exact product. -/
def flMul (x y : Fl) : Fl :=
  match x, y with
  | .nan, _ => .nan
  | _, .nan => .nan
  | .inf a, .inf b => .inf (a != b)
  | .inf a, .fin n m _ => if m = 0 then .nan else .inf (a != n)
  | .fin n m _, .inf b => if m = 0 then .nan else .inf (n != b)
  | .fin n1 m1 e1, .fin n2 m2 e2 => .fin (n1 != n2) (m1 * m2) (e1 + e2)

/-- Quotient with enough bits and a sticky bit for one rounding. -/
def flDiv (x y : Fl) : Fl :=
  match x, y with
  | .nan, _ => .nan
  | _, .nan => .nan
  | .inf _, .inf _ => .nan
  | .inf a, .fin n _ _ => .inf (a != n)
  | .fin n _ _, .inf b => .fin (n != b) 0 0
  | .fin n1 m1 e1, .fin n2 m2 e2 =>
    if m2 = 0 then (if m1 = 0 then .nan else .inf (n1 != n2))
    else
      let k := 64 + bitlen m2
      let num := m1 <<< k
      .fin (n1 != n2) (2 * (num / m2) + boolNat (num % m2 != 0)) (e1 - e2 - k - 1)

/-- Strictly less, false on a NaN. -/
def flLt (x y : Fl) : Bool :=
  match x, y with
  | .nan, _ => false
  | _, .nan => false
  | .inf a, .inf b => a && !b
  | .inf a, .fin _ _ _ => a
  | .fin _ _ _, .inf b => !b
  | .fin n1 m1 e1, .fin n2 m2 e2 =>
    let r := flAlign n1 m1 e1 n2 m2 e2
    decide (r.1 < r.2.1)

def flLe (x y : Fl) : Bool :=
  match x, y with
  | .nan, _ => false
  | _, .nan => false
  | x, y => !flLt y x

def flOfInt (i : Int) : Fl := .fin (decide (i < 0)) i.natAbs 0

def flMax (x y : Fl) : Fl := if flLt x y then y else x
def flMin (x y : Fl) : Fl := if flLt y x then y else x

/-- A finite number times 2^k, to the nearest integer with halves to even; 0 for a NaN, a large bound for infinities. -/
def flToIntRne (x : Fl) (k : Int) : Int :=
  match x with
  | .nan => 0
  | .inf n => if n then -(2 ^ 64) else 2 ^ 64
  | .fin n m e =>
    let e := e + k
    let v : Nat := if 0 ≤ e then m <<< e.toNat else shiftRne m (-e).toNat
    if n then -(v : Int) else v

/-- A finite number times 2^k, to the nearest integer with halves upward. -/
def flToIntUp (x : Fl) (k : Int) : Int :=
  match x with
  | .nan => 0
  | .inf n => if n then -(2 ^ 64) else 2 ^ 64
  | .fin n m e =>
    let e := e + k + 1
    let v : Int := if n then -(m : Int) else m
    let twice : Int := if 0 ≤ e then v * 2 ^ e.toNat else v / 2 ^ (-e).toNat
    (twice + 1) / 2

/-! ### binary32 on bit patterns -/

def f32 (b : Nat) : Fl := flDecode binary32 b
def f32bits (x : Fl) : Nat := flEncode binary32 x
/-- A value rounded to binary32. -/
def round32 (x : Fl) : Fl := f32 (f32bits x)
def f16 (b : Nat) : Fl := flDecode binary16 b
def f16bits (x : Fl) : Nat := flEncode binary16 x

def addF (x y : Fl) : Fl := round32 (flAdd x y)
def subF (x y : Fl) : Fl := round32 (flSub x y)
def mulF (x y : Fl) : Fl := round32 (flMul x y)
def divF (x y : Fl) : Fl := round32 (flDiv x y)

def flOne : Fl := .fin false 1 0
def flHalf : Fl := .fin false 1 (-1)

/-! ### binary64, for the corner mapping of R377 -/

def binary64 : FlFormat := { p := 53, emin := -1074, w := 11 }

def round64 (x : Fl) : Fl := flDecode binary64 (flEncode binary64 x)

/-! ### exp and the logistic function (R378): a fixed-point series of 200 bits, then one rounding -/

/-- Adds terms of the series of exp, in units of 2^-200: `t` is the latest term and `n` the number of the next. -/
def expSeries : Nat → Nat → Int → Int → Int → Int
  | 0, _, _, _, acc => acc
  | fuel + 1, n, y, t, acc =>
    let t' := t * y / (2 ^ 200 * n)
    expSeries fuel (n + 1) y t' (acc + t')

/-- Squares `k` times, in units of 2^-200. -/
def squareTimes : Nat → Int → Int
  | 0, v => v
  | k + 1, v => squareTimes k (v * v / 2 ^ 200)

/-- exp of a number given in units of 2^-200 between -104 and 104, in the same units. -/
def expFixed (x : Int) : Int := squareTimes 10 (expSeries 40 1 (x / 2 ^ 10) (2 ^ 200) (2 ^ 200))

/-- A finite number in units of 2^-200. -/
def fixedOf (n : Bool) (m : Nat) (e : Int) : Int :=
  let v : Int := if 0 ≤ e + 200 then ((m <<< (e + 200).toNat : Nat) : Int) else ((m >>> (-(e + 200)).toNat : Nat) : Int)
  if n then -v else v

/-- Correctly rounded binary32 of exp, as a bit pattern. -/
def expBits (x : Fl) : Nat :=
  match x with
  | .nan => f32bits .nan
  | .inf n => if n then 0 else f32bits (.inf false)
  | .fin n m e =>
    if 104 < (bitlen m : Int) + e + 97 then (if n then 0 else f32bits (.inf false))
    else
      let v := fixedOf n m e
      if 104 * 2 ^ 200 < v then f32bits (.inf false)
      else if v < -(104 * 2 ^ 200) then 0
      else f32bits (.fin false (expFixed v).toNat (-200))

/-- Correctly rounded binary32 of the logistic function, as a bit pattern. -/
def logisticBits (x : Fl) : Nat :=
  match x with
  | .nan => f32bits .nan
  | .inf n => if n then 0 else f32bits flOne
  | .fin n m e =>
    if 104 < (bitlen m : Int) + e + 97 then (if n then 0 else f32bits flOne)
    else
      let v := fixedOf false m e
      if 104 * 2 ^ 200 < v then (if n then 0 else f32bits flOne)
      else
        let ex := expFixed (-v)
        let num := if n then ex else 2 ^ 200
        f32bits (.fin false ((num * 2 ^ 200) / (2 ^ 200 + ex)).toNat (-200))

/-- A non-negative bit pattern moved by the free distance of at most 2 ulp (R378); infinities and NaN stay. -/
def ulpMove (bits free : Nat) : Nat :=
  if 0x7F800000 ≤ bits then bits else min 0x7F800000 (bits + free % 5 - 2)

/-- The post engine's exp. -/
def expF (x : Fl) : Fl := f32 (ulpMove (expBits x) (Config.expUlp (BitVec.ofNat 32 (f32bits x))))

/-- The post engine's logistic function. -/
def logisticF (x : Fl) : Fl := f32 (ulpMove (logisticBits x) (Config.logisticUlp (BitVec.ofNat 32 (f32bits x))))

end Sys2Proof.Machine
end

