-- ==== Sys2Proof/Machine/Facet.lean ====
section
/-! DEFINITION. Facet commands and model packages (09_facet_tiles.md): command fields, cycle counts, the checks of Table 9.8,
the QUANT and HEADS sections, and the resident image. -/

namespace Sys2Proof.Machine

/-! ### Facet commands (R338-R342) -/

abbrev fcOp (c : FacetCmd) : Nat := rd c 0x00 1
abbrev fcMode (c : FacetCmd) : Nat := rd c 0x01 1
abbrev fcLayer (c : FacetCmd) : Nat := rd c 0x02 2
abbrev fcWait (c : FacetCmd) : Nat := rd c 0x04 1
abbrev fcSignal (c : FacetCmd) : Nat := rd c 0x05 1
abbrev fcWaitCount (c : FacetCmd) : Nat := rd c 0x06 2
abbrev fcM (c : FacetCmd) : Nat := rd c 0x08 2
abbrev fcK (c : FacetCmd) : Nat := rd c 0x0A 2
abbrev fcN (c : FacetCmd) : Nat := rd c 0x0C 2
abbrev fcPad (c : FacetCmd) : Int := rdS c 0x0E 1
abbrev fcA (c : FacetCmd) : Nat := rd c 0x10 4
abbrev fcAPix (c : FacetCmd) : Nat := rd c 0x14 2
abbrev fcOutPix (c : FacetCmd) : Nat := rd c 0x16 2
abbrev fcALine (c : FacetCmd) : Nat := rd c 0x18 4
abbrev fcW (c : FacetCmd) : Nat := rd c 0x1C 4
abbrev fcAcc (c : FacetCmd) : Nat := rd c 0x20 4
abbrev fcOut (c : FacetCmd) : Nat := rd c 0x24 4
abbrev fcQparam (c : FacetCmd) : Nat := rd c 0x28 4
abbrev fcCurve (c : FacetCmd) : Nat := rd c 0x2C 4
abbrev fcInH (c : FacetCmd) : Nat := rd c 0x30 2
abbrev fcInW (c : FacetCmd) : Nat := rd c 0x32 2
abbrev fcOutW (c : FacetCmd) : Nat := rd c 0x34 2
abbrev fcKH (c : FacetCmd) : Nat := rd c 0x36 1 % 16
abbrev fcKW (c : FacetCmd) : Nat := rd c 0x36 1 / 16
abbrev fcStrideY (c : FacetCmd) : Nat := rd c 0x37 1
abbrev fcStrideX (c : FacetCmd) : Nat := rd c 0x38 1
abbrev fcDilY (c : FacetCmd) : Nat := rd c 0x39 1
abbrev fcDilX (c : FacetCmd) : Nat := rd c 0x3A 1
abbrev fcPadT (c : FacetCmd) : Nat := rd c 0x3B 1
abbrev fcPadB (c : FacetCmd) : Nat := rd c 0x3C 1
abbrev fcPadL (c : FacetCmd) : Nat := rd c 0x3D 1
abbrev fcPadR (c : FacetCmd) : Nat := rd c 0x3E 1
/-- VECTOR fields (R341). -/
abbrev fcC (c : FacetCmd) : Nat := rd c 0x0A 2
abbrev fcInFmt (c : FacetCmd) : Nat := rd c 0x0C 1
abbrev fcOutFmt (c : FacetCmd) : Nat := rd c 0x0D 1
abbrev fcSrcB (c : FacetCmd) : Nat := rd c 0x1C 4
abbrev fcBPix (c : FacetCmd) : Nat := rd c 0x20 2
abbrev fcDst (c : FacetCmd) : Nat := rd c 0x24 4
/-- DMA fields (R342). -/
abbrev fcRegion (c : FacetCmd) : Nat := rd c 0x08 1
abbrev fcLines (c : FacetCmd) : Nat := rd c 0x0A 2
abbrev fcBytes (c : FacetCmd) : Nat := rd c 0x0C 4
abbrev fcSram (c : FacetCmd) : Nat := rd c 0x10 4
abbrev fcSramStride (c : FacetCmd) : Nat := rd c 0x14 4
abbrev fcDram (c : FacetCmd) : Nat := rd c 0x18 8
abbrev fcDramStride (c : FacetCmd) : Nat := rd c 0x20 4

def isMatmul (c : FacetCmd) : Bool := fcOp c == 0x10
def isConv (c : FacetCmd) : Bool := fcOp c == 0x11
def isArray (c : FacetCmd) : Bool := isMatmul c || isConv c
def isVector (c : FacetCmd) : Bool := fcOp c == 0x20
def isDma (c : FacetCmd) : Bool := fcOp c == 0x30
def isEnd (c : FacetCmd) : Bool := fcOp c == 0x7F

/-- MODE bits of MATMUL and CONV (R340). -/
def fcFolded (c : FacetCmd) : Bool := bitOf (fcMode c) 0
def fcInt4 (c : FacetCmd) : Bool := bitOf (fcMode c) 1
def fcAccumulate (c : FacetCmd) : Bool := bitOf (fcMode c) 2
def fcRequant (c : FacetCmd) : Bool := bitOf (fcMode c) 3

/-- Filter taps of an array instruction (R324, R326). -/
def fcTaps (c : FacetCmd) : Nat := if isConv c then fcKH c * fcKW c else 1

/-- Outputs of one N-fold (R321, R323). -/
def foldN (c : FacetCmd) : Nat := if fcInt4 c then 256 else 128

def elemSize (fmt : Nat) : Nat := if fmt = 0 then 1 else if fmt = 1 then 4 else 2

/-- VECTOR operations with a window under R326-R329 (Table 9.2). -/
def isWindowOp (op : Nat) : Bool := op == 0x10 || op == 0x11 || op == 0x12
def isUpsample (op : Nat) : Bool := op == 0x18 || op == 0x19
def knownOp (op : Nat) : Bool :=
  [0x01, 0x02, 0x03, 0x04, 0x08, 0x09, 0x0A, 0x10, 0x11, 0x12, 0x13, 0x18, 0x19, 0x20].contains op

/-- Output pixels of a VECTOR command. -/
def vecPixels (c : FacetCmd) : Nat :=
  if isUpsample (fcMode c) then fcInH c * fcStrideY c * (fcInW c * fcStrideX c)
  else if fcMode c == 0x13 then 1 else fcM c

/-! ### Cycles (R324, R335) -/

/-- Table 9.1, without the first instruction's 128. -/
def arrayCycles (c : FacetCmd) : Nat :=
  let f := ceilDiv (fcK c) 128 * ceilDiv (fcN c) (foldN c)
  if fcFolded c then fcTaps c * f * (fcM c + 128) else fcTaps c * (max (fcM c) 128 + 1)

/-- Table 9.2. -/
def vectorCycles (c : FacetCmd) : Nat :=
  let unit := ceilDiv (vecPixels c * fcC c) 4096
  if isWindowOp (fcMode c) then fcKH c * fcKW c * unit + 32
  else if fcMode c == 0x13 then ceilDiv (fcInH c * fcInW c * fcC c) 4096 + 32
  else unit + 32

/-- Array cycles of a program (R324): the first array instruction adds 128. -/
def programArray (p : List FacetCmd) : Nat :=
  let xs := p.filter isArray
  if xs.isEmpty then 0 else sumOf (xs.map arrayCycles) + 128

def programVector (p : List FacetCmd) : Nat := sumOf ((p.filter isVector).map vectorCycles)

/-- Table 9.5's DRAM_BYTES of a program: all its DMA bytes. -/
def programDram (p : List FacetCmd) : Nat := sumOf ((p.filter isDma).map (fun c => fcLines c * fcBytes c))

/-! ### The package (Tables 9.5, 9.6) -/

structure PkgSection where
  type : Nat
  reserved : Nat
  off : Nat
  bytes : Nat
  deriving DecidableEq, Repr

def pkgCount (pkg : List Byte) : Nat := rd pkg 0x0C 2
def pkgFlags (pkg : List Byte) : Nat := rd pkg 0x0E 2
def pkgTiles (pkg : List Byte) : Nat := rd pkg 0x18 1
def pkgHeads (pkg : List Byte) : Nat := rd pkg 0x19 1
def pkgSram (pkg : List Byte) : Nat := rd pkg 0x1C 4
def pkgConst (pkg : List Byte) : Nat := rd pkg 0x20 4
def pkgScratch (pkg : List Byte) : Nat := rd pkg 0x24 4

def pkgSections (pkg : List Byte) : List PkgSection :=
  (List.range (pkgCount pkg)).map (fun i =>
    let o := 128 + 16 * i
    { type := rd pkg o 2, reserved := rd pkg (o + 2) 2 + rd pkg (o + 12) 4, off := rd pkg (o + 4) 4,
      bytes := rd pkg (o + 8) 4 })

/-- The contents of the sections of a type, in order. -/
def pkgContents (pkg : List Byte) (type : Nat) : List (List Byte) :=
  ((pkgSections pkg).filter (fun s => s.type == type)).map (fun s => sliceAt pkg s.off s.bytes)

def pkgPart (pkg : List Byte) (type : Nat) : List Byte := (pkgContents pkg type).headD []

/-- Splits a program into its 64-byte commands. -/
def splitCmds : Nat → List Byte → List FacetCmd
  | 0, _ => []
  | fuel + 1, bs => if bs.isEmpty then [] else fit 64 bs :: splitCmds fuel (bs.drop 64)

def parseProgram (bs : List Byte) : List FacetCmd := splitCmds (bs.length / 64 + 1) bs

def pkgPrograms (pkg : List Byte) : List (List FacetCmd) := (pkgContents pkg 2).map parseProgram

/-- Table 9.7. -/
def parseInput (bs : List Byte) : InputDesc :=
  { width := rd bs 0 2, height := rd bs 2 2, channels := rd bs 4 1, fit := rd bs 5 1, pixelStride := rd bs 6 2,
    gain := [rdS bs 8 2, rdS bs 10 2, rdS bs 12 2], offset := [rdS bs 0x10 2, rdS bs 0x12 2, rdS bs 0x14 2],
    fill := [rdS bs 0x16 1, rdS bs 0x17 1, rdS bs 0x18 1] }

/-! ### Checks of Table 9.8, in its order -/

def within (lo hi x : Nat) : Bool := decide (lo ≤ x) && decide (x ≤ hi)

/-- BAD_MAGIC. -/
def ckMagic (pkg : List Byte) : Bool := rd pkg 0 4 == 0x50544346 && rd pkg 6 2 == 128

/-- VERSION. -/
def ckVersion (pkg : List Byte) : Bool :=
  rd pkg 4 1 == 1 && rd pkg 5 1 == 0 && zeroAt pkg 0x3C 68 && decide (pkgFlags pkg < 4)

/-- No two sections of non-zero length share a byte. -/
def disjoint (ss : List PkgSection) : Bool :=
  (ss.zipIdx).all (fun (a, i) => (ss.drop (i + 1)).all (fun b =>
    a.bytes == 0 || b.bytes == 0 || decide (a.off + a.bytes ≤ b.off) || decide (b.off + b.bytes ≤ a.off)))

/-- LENGTH. -/
def ckLength (pkg : List Byte) (bytes : Nat) : Bool :=
  let total := rd pkg 8 4
  let tbl := 128 + 16 * pkgCount pkg
  let ss := pkgSections pkg
  total == bytes && decide (total ≤ 268435456) && within 3 64 (pkgCount pkg) && decide (tbl ≤ total) &&
    ss.all (fun s => decide (tbl ≤ s.off) && decide (s.off + s.bytes ≤ total)) && disjoint ss &&
    ss.all (fun s => s.type != 3 || decide (s.bytes ≤ pkgConst pkg))

/-- CRC. -/
def ckCrc (pkg : List Byte) : Bool := crc32c (putAt pkg 0x38 [0, 0, 0, 0]) == rd pkg 0x38 4

/-- SECTION. -/
def ckSection (pkg : List Byte) : Bool :=
  let ss := pkgSections pkg
  let n (t : Nat) : Nat := (ss.filter (fun s => s.type == t)).length
  ss.all (fun s => within 1 6 s.type && s.reserved == 0) && n 1 == 1 && n 2 == pkgTiles pkg && n 3 == 1 && n 4 == 1 &&
    n 5 == 1 && decide (n 6 ≤ 1)

/-- INPUT. -/
def ckInput (pkg : List Byte) : Bool :=
  let bs := pkgPart pkg 1
  let d := parseInput bs
  bs.length == 64 && within 16 4096 d.width && within 16 4096 d.height && decide (d.channels ≤ 2) && decide (d.fit ≤ 2) &&
    within (if d.channels = 2 then 1 else 3) 64 d.pixelStride && zeroAt bs 0x0E 2 && zeroAt bs 0x19 39

/-- Reserved fields of a command's body. -/
def reservedZero (c : FacetCmd) : Bool :=
  if isMatmul c then zeroAt c 0x0F 1 && zeroAt c 0x30 16
  else if isConv c then zeroAt c 0x0F 1 && zeroAt c 0x3F 1
  else if isVector c then zeroAt c 0x0F 1 && zeroAt c 0x22 2 && zeroAt c 0x3F 1
  else if isDma c then zeroAt c 0x09 1 && zeroAt c 0x24 28
  else zeroAt c 0x08 56

def modeKnown (c : FacetCmd) : Bool :=
  if isArray c then decide (fcMode c < 16)
  else if isVector c then knownOp (fcMode c)
  else if isDma c then decide (fcMode c ≤ 2) && decide (fcRegion c ≤ 3) && !(fcMode c == 1 && fcRegion c == 0)
  else isEnd c && fcMode c == 0

/-- COMMAND. -/
def ckCommand (pkg : List Byte) : Bool :=
  (pkgContents pkg 2).all (fun bs =>
    let p := parseProgram bs
    !bs.isEmpty && bs.length % 64 == 0 && p.all (fun c => modeKnown c && reservedZero c) &&
      (p.getLast?.map isEnd).getD false && (p.filter isEnd).length == 1)

/-- R661: the end offset of a DMA. -/
def dmaEnd (c : FacetCmd) : Nat := fcDram c + (fcLines c - 1) * fcDramStride c + fcBytes c

/-- R661: bytes of each region. -/
def regionSize (pkg : List Byte) (r : Nat) : Nat :=
  let d := parseInput (pkgPart pkg 1)
  if r = 0 then pkgConst pkg
  else if r = 1 then d.width * d.height * d.pixelStride
  else if r = 2 then
    roundUp (maxOf ((pkgPrograms pkg).flatMap (fun p =>
      (p.filter (fun c => isDma c && fcMode c == 1 && fcRegion c == 2)).map dmaEnd))) 4096
  else pkgScratch pkg

/-- The last byte offset past `rows` rows of `width` bytes at a stride. -/
def spanOf (rows stride width : Nat) : Nat := if rows = 0 || width = 0 then 0 else (rows - 1) * stride + width

/-- Bytes of a whole input tensor of C channels from A_ADDR. -/
def inputSpan (c : FacetCmd) (width : Nat) : Nat :=
  if fcInH c = 0 || fcInW c = 0 then 0 else (fcInH c - 1) * fcALine c + (fcInW c - 1) * fcAPix c + width

def accRow (c : FacetCmd) : Nat := ceilDiv (fcN c) (foldN c) * foldN c * 4

/-- SRAM ranges (start, bytes) an array command touches. -/
def arrayRanges (c : FacetCmd) : List (Nat × Nat) :=
  [(fcA c, if isConv c then inputSpan c (fcK c) else spanOf (fcM c) (fcAPix c) (fcK c)),
   (fcW c, fcTaps c * ceilDiv (fcN c) (foldN c) * fcK c * 128), (fcAcc c, fcM c * accRow c),
   (fcQparam c, 16 + 16 * fcN c)] ++
    (if fcRequant c then [(fcOut c, spanOf (fcM c) (fcOutPix c) (fcN c))] else []) ++
    (if fcCurve c = 0xFFFFFFFF then [] else [(fcCurve c, 1024)])

/-- The format in which a VECTOR command reads A: REQUANT reads INT32 whatever IN_FORMAT says (Table 9.2). -/
def vecIn (c : FacetCmd) : Nat := if fcMode c == 0x08 then 1 else fcInFmt c

/-- The format in which a VECTOR command writes: REQUANT writes INT8, CONVERT FP16 from INT8 and INT8 from FP16 (Table 9.2). -/
def vecOut (c : FacetCmd) : Nat :=
  if fcMode c == 0x08 then 0 else if fcMode c == 0x0A then (if fcInFmt c = 0 then 2 else 0) else fcOutFmt c

/-- The operations that read A through the address generator: the windows, UPSAMPLE and GLOBAL_AVG, and COPY with an output width. -/
def readsMap (c : FacetCmd) : Bool :=
  isWindowOp (fcMode c) || isUpsample (fcMode c) || fcMode c == 0x13 || (fcMode c == 0x20 && fcOutW c != 0)

/-- SRAM ranges a VECTOR command touches. -/
def vectorRanges (c : FacetCmd) : List (Nat × Nat) :=
  let op := fcMode c
  let si := elemSize (vecIn c)
  let a := if readsMap c then inputSpan c (fcC c * si) else spanOf (fcM c) (fcAPix c) (fcC c * si)
  [(fcA c, a)] ++
    (if op ≤ 4 then [(fcSrcB c, spanOf (fcM c) (fcBPix c) (fcC c * si))] else []) ++
    (if op == 0x12 then [(fcSrcB c, fcKH c * fcKW c * fcC c * si)] else []) ++
    (if op == 0x09 then [] else [(fcDst c, spanOf (vecPixels c) (fcOutPix c) (fcC c * elemSize (vecOut c)))]) ++
    (if op == 0x08 || op == 0x12 then [(fcQparam c, 16 + 16 * fcC c)] else if op == 0x0A then [(fcQparam c, 16)] else []) ++
    (if fcCurve c = 0xFFFFFFFF then [] else [(fcCurve c, 1024)])

def dmaRanges (c : FacetCmd) : List (Nat × Nat) :=
  (fcSram c, spanOf (fcLines c) (fcSramStride c) (fcBytes c)) ::
    (if fcMode c == 2 then [(fcDram c, spanOf (fcLines c) (fcDramStride c) (fcBytes c))] else [])

/-- R334: multiples of 16 B, A_ADDR and SRC addresses of 4 B. -/
def aligned (c : FacetCmd) : Bool :=
  let m (k : Nat) (xs : List Nat) : Bool := xs.all (fun x => x % k == 0)
  let curve := if fcCurve c = 0xFFFFFFFF then 0 else fcCurve c
  if isArray c then
    m 4 [fcA c] && m 16 [fcAPix c, fcOutPix c, fcALine c, fcW c, fcAcc c, fcOut c, fcQparam c, curve]
  else if isVector c then
    m 4 [fcA c, fcSrcB c] && m 16 [fcAPix c, fcOutPix c, fcALine c, fcBPix c, fcDst c, fcQparam c, curve]
  else if isDma c then
    m 16 ([fcSram c, fcSramStride c] ++ if fcMode c == 2 then [fcDram c, fcDramStride c] else [])
  else true

def cmdRanges (c : FacetCmd) : List (Nat × Nat) :=
  if isArray c then arrayRanges c else if isVector c then vectorRanges c else if isDma c then dmaRanges c else []

/-- ADDRESS_RANGE (R334, R342, R661). -/
def ckAddress (pkg : List Byte) : Bool :=
  (pkgPrograms pkg).all (fun p => p.all (fun c =>
    aligned c && (cmdRanges c).all (fun r => decide (r.1 + r.2 ≤ pkgSram pkg)) &&
      (!isDma c || (within 1 4096 (fcLines c) && (fcMode c == 2 || decide (dmaEnd c ≤ regionSize pkg (fcRegion c)))))))

/-- SIZE_FIELD (R322, R323, R341). -/
def ckSize (pkg : List Byte) : Bool :=
  (pkgPrograms pkg).all (fun p => p.all (fun c =>
    if isArray c then
      within 1 4096 (fcM c) && within 1 (if fcFolded c then 4096 else 128) (fcK c) &&
        within 1 (if fcFolded c then 4096 else foldN c) (fcN c)
    else if isVector c then
      within 1 4096 (fcC c) && (isUpsample (fcMode c) || fcMode c == 0x13 || within 1 4096 (fcM c))
    else true))

def hasWindow (c : FacetCmd) : Bool := isConv c || (isVector c && isWindowOp (fcMode c))

/-- FILTER_TOO_LARGE (R330). -/
def ckFilter (pkg : List Byte) : Bool :=
  (pkgPrograms pkg).all (fun p => p.all (fun c => !hasWindow c || (decide (fcKH c ≤ 9) && decide (fcKW c ≤ 9))))

/-- R329 on one axis. -/
def outExtent (n padA padB dil k stride : Nat) : Int :=
  (((n : Int) + padA + padB - dil * ((k : Int) - 1) - 1) / stride) + 1

/-- R328, R329. -/
def geometryOk (c : FacetCmd) : Bool :=
  within 1 64 (fcStrideY c) && within 1 64 (fcStrideX c) && within 1 64 (fcDilY c) && within 1 64 (fcDilX c) &&
    within 1 9 (fcKH c) && within 1 9 (fcKW c) && within 1 4096 (fcInH c) && within 1 4096 (fcInW c) &&
    within 1 4096 (fcOutW c) && fcM c % fcOutW c == 0 &&
    outExtent (fcInH c) (fcPadT c) (fcPadB c) (fcDilY c) (fcKH c) (fcStrideY c) == ((fcM c / fcOutW c : Nat) : Int) &&
    outExtent (fcInW c) (fcPadL c) (fcPadR c) (fcDilX c) (fcKW c) (fcStrideX c) == (fcOutW c : Int)

/-- R328 for the operations without a filter that take sizes or strides of the address generator: UPSAMPLE its factors and its
input, GLOBAL_AVG its input, COPY with an output width its strides, input and output width. -/
def mapOk (c : FacetCmd) : Bool :=
  within 1 4096 (fcInH c) && within 1 4096 (fcInW c) &&
    (fcMode c == 0x13 || (within 1 64 (fcStrideY c) && within 1 64 (fcStrideX c))) &&
    (fcMode c != 0x20 || within 1 4096 (fcOutW c))

/-- CONV_GEOMETRY. -/
def ckGeometry (pkg : List Byte) : Bool :=
  (pkgPrograms pkg).all (fun p => p.all (fun c =>
    if hasWindow c then geometryOk c else !(isVector c && readsMap c) || mapOk c))

/-- The line of a strided block that covers an address, the last one where lines overlap: its index and the place in it. -/
def lineOf (start stride lines bytes addr : Nat) : Option (Nat × Nat) :=
  if addr < start || lines = 0 then none
  else
    let i := if stride = 0 then lines - 1 else min (lines - 1) ((addr - start) / stride)
    if addr < start + i * stride + bytes then some (i, addr - (start + i * stride)) else none

/-- What a tile's own commands (newest first) last brought to an SRAM address from DRAM: the offset in region 0, or `some none` where
another region supplies it. -/
def ownByte (before : List FacetCmd) (addr : Nat) : Option (Option Nat) :=
  before.findSome? (fun c =>
    if isDma c && fcMode c == 0 then
      (lineOf (fcSram c) (fcSramStride c) (fcLines c) (fcBytes c) addr).map (fun (i, k) =>
        if fcRegion c = 0 then some (fcDram c + i * fcDramStride c + k) else none)
    else none)

/-- The other tile's last DIR 2 command (its commands newest first) that writes an SRAM address: the commands before it and the address
it reads. -/
def sentByte (addr : Nat) : List FacetCmd → Option (List FacetCmd × Nat)
  | [] => none
  | c :: before =>
    match if isDma c && fcMode c == 2 then lineOf (fcDram c) (fcDramStride c) (fcLines c) (fcBytes c) addr else none with
    | some (i, k) => some (before, fcSram c + i * fcSramStride c + k)
    | none => sentByte addr before

/-- Where in region 0 the byte at an SRAM address of tile `t` comes from, through at most `fuel` tile-to-tile copies: its own commands
`before` first (newest first), else what the other tile sends (notes/assumptions/95.md). -/
def region0Of (ps : List (List FacetCmd)) : Nat → Nat → List FacetCmd → Nat → Option Nat
  | 0, _, _, _ => none
  | fuel + 1, t, before, addr =>
    match ownByte before addr with
    | some r => r
    | none => match sentByte addr (nth [] ps (1 - t)).reverse with
      | some (earlier, a) => region0Of ps fuel (1 - t) earlier a
      | none => none

/-- The 1,024 bytes of a curve, each from where the programs bring it; none where one of them does not come from region 0. -/
def curveSource (pkg : List Byte) (t : Nat) (before : List FacetCmd) (addr : Nat) : Option (List Byte) :=
  (List.range 1024).mapM (fun i =>
    (region0Of (pkgPrograms pkg) 4 t before (addr + i)).map (fun o => nth 0 (pkgPart pkg 3) o))

/-- R336: BREAK values strictly ascend from segment 1, as s32 or as binary32. -/
def curveOk (bs : List Byte) (float : Bool) : Bool :=
  (List.range 62).all (fun i =>
    let a := 16 * (i + 1)
    let b := 16 * (i + 2)
    if float then flLt (f32 (rd bs a 4)) (f32 (rd bs b 4)) else decide (rdS bs a 4 < rdS bs b 4)) &&
    (List.range 64).all (fun i => zeroAt bs (16 * i + 12) 4)

/-- CURVE_INVALID. -/
def ckCurve (pkg : List Byte) : Bool :=
  (pkgPrograms pkg).zipIdx.all (fun (p, t) => p.zipIdx.all (fun (c, i) =>
    if isArray c || isVector c then
      if fcCurve c = 0xFFFFFFFF then !(isVector c && fcMode c == 0x09)
      else fcCurve c % 1024 == 0 && match curveSource pkg t (p.take i).reverse (fcCurve c) with
        | some bs => curveOk bs (isVector c && vecIn c == 2)
        | none => false
    else true))

/-- FORMAT. -/
def ckFormat (pkg : List Byte) : Bool :=
  (pkgPrograms pkg).all (fun p => p.all (fun c =>
    (!isArray c || !fcInt4 c || bitOf (pkgFlags pkg) 1) && (!isVector c || (decide (fcInFmt c ≤ 2) && decide (fcOutFmt c ≤ 2)))))

/-! ### Tokens (R338, R339) -/

/-- The three queues of a program: array, vector, DMA. -/
def queuesOf (p : List FacetCmd) : List (List FacetCmd) := [p.filter isArray, p.filter isVector, p.filter isDma]

def signal (tokens : List Nat) (c : FacetCmd) : List Nat :=
  if fcSignal c < 16 then tokens.set (fcSignal c) (nth 0 tokens (fcSignal c) + 1) else tokens

def waitMet (tokens : List Nat) (c : FacetCmd) : Bool :=
  fcWait c == 0xFF || (decide (fcWait c < 16) && decide (fcWaitCount c ≤ nth 0 tokens (fcWait c)))

/-- Runs queues of commands by their tokens alone; what is left when nothing can start. -/
def runTokens : Nat → List (List FacetCmd) → List Nat → List (List FacetCmd)
  | 0, qs, _ => qs
  | fuel + 1, qs, tokens =>
    match qs.findIdx? (fun q => match q with
      | c :: _ => waitMet tokens c
      | [] => false) with
    | some k => match nth [] qs k with
      | c :: rest => runTokens fuel (qs.set k rest) (signal tokens c)
      | [] => qs
    | none => qs

/-- DEADLOCK. -/
def ckDeadlock (pkg : List Byte) : Bool :=
  (pkgPrograms pkg).all (fun p =>
    p.all (fun c => (fcWait c == 0xFF || decide (fcWait c < 16)) && (fcSignal c == 0xFF || decide (fcSignal c < 16))) &&
      (runTokens p.length (queuesOf p) (List.replicate 16 0)).all (·.isEmpty) &&
      p.all (fun c => !isEnd c || waitMet ((p.filter (fun d => !isEnd d)).foldl signal (List.replicate 16 0)) c))

/-- EXACT_FLAG. -/
def ckExact (pkg : List Byte) : Bool :=
  !bitOf (pkgFlags pkg) 0 || (pkgPrograms pkg).all (fun p => p.all (fun c => !isArray c || !fcFolded c))

/-- TOO_LARGE. -/
def ckLarge (pkg : List Byte) : Bool :=
  within 1 2 (pkgTiles pkg) && decide (pkgSram pkg ≤ 7340032) && decide (rd pkg 0x28 4 ≤ 2009112) &&
    decide (rd pkg 0x2C 4 ≤ 2009112)

/-- TIMING_MISMATCH. -/
def ckTiming (pkg : List Byte) : Bool :=
  let ps := pkgPrograms pkg
  rd pkg 0x28 4 == maxOf (ps.map programArray) && rd pkg 0x2C 4 == maxOf (ps.map programVector) &&
    rd pkg 0x30 4 == sumOf (ps.map programDram)

/-! ### The QUANT section (10_quantization.md, R363, R364) -/

def parseRef (bs : List Byte) (o : Nat) : GroupRef := { kind := rd bs o 1, tile := rd bs (o + 1) 1, target := rd bs (o + 4) 4 }

/-- Reads `n` group records from an offset; none where one runs past the section. -/
def parseGroups : Nat → List Byte → Nat → Option (List ScaleGroup × Nat)
  | 0, _, o => some ([], o)
  | n + 1, bs, o =>
    let np := rd bs (o + 2) 1
    let nc := rd bs (o + 3) 1
    let next := o + 8 + 8 * (np + nc)
    if bs.length < next then none
    else
      let refAt (k : Nat) : GroupRef := parseRef bs (o + 8 + 8 * k)
      let g : ScaleGroup :=
        { layer := rd bs o 2, producers := (List.range np).map refAt, consumers := (List.range nc).map (fun k => refAt (np + k)),
          d := 0, total := 0, clip := 0, peakHi := 0, peakLo := 0, accSat := 0 }
      if within 1 16 np && decide (nc ≤ 16) && zeroAt bs (o + 4) 4 &&
          (List.range (np + nc)).all (fun k => zeroAt bs (o + 8 + 8 * k + 2) 2) then
        (parseGroups n bs next).map (fun r => (g :: r.1, r.2))
      else none

def quantGroups (pkg : List Byte) : Option (List ScaleGroup) :=
  let bs := pkgPart pkg 5
  if bs.length < 8 || !zeroAt bs 2 6 || 255 < rd bs 0 2 then none
  else match parseGroups (rd bs 0 2) bs 8 with
    | some (gs, o) => if o == bs.length then some gs else none
    | none => none

/-- R357, R364: a requantization block of region 0. -/
def blockOk (consts : List Byte) (size o : Nat) : Bool :=
  let n := rd consts (o + 4) 2
  o % 16 == 0 && decide (o + 16 + 16 * n ≤ size) && zeroAt consts (o + 3) 1 && zeroAt consts (o + 6) 2 &&
    zeroAt consts (o + 12) 4 &&
    (List.range n).all (fun k =>
      let e := o + 16 + 16 * k
      let m := rd consts (e + 4) 4
      let sh := rdS consts (e + 8) 1
      (m == 0 || within (2 ^ 30) (2 ^ 31 - 1) m) && decide (-15 ≤ sh) && decide (sh ≤ 32) && zeroAt consts (e + 10) 6)

def refOk (pkg : List Byte) (consumer : Bool) (r : GroupRef) : Bool :=
  decide (r.tile < pkgTiles pkg) &&
    (if r.kind = 0 then blockOk (pkgPart pkg 3) (pkgConst pkg) r.target
     else if r.kind = 1 then
       consumer && r.target % 1024 == 0 && decide (r.target + 1024 ≤ pkgConst pkg) &&
         (List.range 64).all (fun i => zeroAt (pkgPart pkg 3) (r.target + 16 * i + 12) 4)
     else r.kind == 2 && consumer && decide (r.target < pkgHeads pkg))

/-- QUANT. -/
def ckQuant (pkg : List Byte) : Bool :=
  match quantGroups pkg with
  | some gs => gs.all (fun g => g.producers.all (refOk pkg false) && g.consumers.all (refOk pkg true))
  | none => false

/-! ### The HEADS section (11_detections_records.md, R375, R376) -/

/-- Table 11.1. -/
def parseHeadDesc (bs : List Byte) (o : Nat) : HeadDesc :=
  { kind := rd bs o 1, flags := rd bs (o + 1) 1, classes := rd bs (o + 2) 2, gridW := rd bs (o + 4) 2,
    gridH := rd bs (o + 6) 2, anchors := rd bs (o + 8) 1, pixelStride := rd bs (o + 0x0A) 2,
    outputOffset := rd bs (o + 0x0C) 4, scale := BitVec.ofNat 32 (rd bs (o + 0x10) 4), zeroPoint := rdS bs (o + 0x14) 1,
    stride := BitVec.ofNat 32 (rd bs (o + 0x18) 4), anchorOffset := rd bs (o + 0x1C) 4,
    scoreThreshold := rd bs (o + 0x20) 2, nmsIou := rd bs (o + 0x22) 2, topK := rd bs (o + 0x24) 2,
    startScore := rd bs (o + 0x26) 2, iouKeep := rd bs (o + 0x28) 2, iouStart := rd bs (o + 0x2A) 2,
    confirmHits := rd bs (o + 0x2C) 1, deleteMisses := rd bs (o + 0x2E) 2 }

def HeadDesc.objectness (h : HeadDesc) : Bool := bitOf h.flags 0
def HeadDesc.sigmoid (h : HeadDesc) : Bool := bitOf h.flags 1
def HeadDesc.track (h : HeadDesc) : Bool := bitOf h.flags 2

def headReserved (bs : List Byte) (o : Nat) : Bool :=
  zeroAt bs (o + 9) 1 && zeroAt bs (o + 0x15) 3 && zeroAt bs (o + 0x2D) 1 && zeroAt bs (o + 0x30) 16

/-- Ranges of Table 11.1 and the further conditions of R376 for one head. -/
def headOk (h : HeadDesc) (constBytes region2 : Nat) : Bool :=
  let box := decide (h.kind ≤ 2)
  decide (h.kind ≤ 4) && decide (h.flags < 8) &&
    (if h.kind = 3 then within 2 12 h.classes else within 1 256 h.classes) &&
    within 1 4096 h.gridW && within 1 4096 h.gridH &&
    (if h.kind = 0 then within 1 16 h.anchors else h.anchors == 1) &&
    decide ((if box then h.anchors * (4 + boolNat h.objectness + h.classes) else h.classes) ≤ h.pixelStride) &&
    (if box then within 1 1024 h.topK else h.topK == 0) &&
    (if h.track then box && decide (h.iouKeep ≤ h.iouStart) && within 1 16 h.confirmHits && within 1 600 h.deleteMisses
     else h.startScore == 0 && h.iouKeep == 0 && h.iouStart == 0 && h.confirmHits == 0 && h.deleteMisses == 0) &&
    decide (h.gridW * h.gridH * h.anchors * h.classes ≤ 16777216) &&
    decide (h.outputOffset + h.gridW * h.gridH * h.pixelStride ≤ region2) &&
    (h.kind != 0 || decide (h.anchorOffset + 8 * h.anchors ≤ constBytes))

def pkgHeadDescs (pkg : List Byte) : List HeadDesc :=
  (List.range (pkgHeads pkg)).map (fun i => parseHeadDesc (pkgPart pkg 4) (8 + 64 * i))

/-- HEADS. -/
def ckHeads (pkg : List Byte) : Bool :=
  let bs := pkgPart pkg 4
  let n := pkgHeads pkg
  within 1 8 n && rd bs 0 1 == n && bs.length == 8 + 64 * n && zeroAt bs 1 7 &&
    (List.range n).all (fun i => headReserved bs (8 + 64 * i)) &&
    (pkgHeadDescs pkg).all (fun h => headOk h (pkgConst pkg) (regionSize pkg 2)) &&
    decide (sumOf ((pkgHeadDescs pkg).map (·.topK)) ≤ 1024)

/-- Table 9.8: the reason of the first check that fails, 0 when every one passes. -/
def packageReason (pkg : List Byte) (bytes : Nat) : Nat :=
  let checks : List (Nat × (Unit → Bool)) :=
    [(0x01, fun _ => ckMagic pkg), (0x02, fun _ => ckVersion pkg), (0x03, fun _ => ckLength pkg bytes),
     (0x04, fun _ => ckCrc pkg), (0x05, fun _ => ckSection pkg), (0x06, fun _ => ckInput pkg),
     (0x07, fun _ => ckCommand pkg), (0x08, fun _ => ckAddress pkg), (0x09, fun _ => ckSize pkg),
     (0x0A, fun _ => ckFilter pkg), (0x0B, fun _ => ckGeometry pkg), (0x0C, fun _ => ckCurve pkg),
     (0x0D, fun _ => ckFormat pkg), (0x0E, fun _ => ckDeadlock pkg), (0x0F, fun _ => ckExact pkg),
     (0x10, fun _ => ckLarge pkg), (0x11, fun _ => ckTiming pkg), (0x12, fun _ => ckQuant pkg),
     (0x13, fun _ => ckHeads pkg)]
  match checks.find? (fun c => !c.2 ()) with
  | some c => c.1
  | none => 0

/-! ### The resident image (R348, R366) -/

def parseImage (pkg : List Byte) : ModelImage :=
  { crc := BitVec.ofNat 32 (rd pkg 0x38 4), exactOnly := bitOf (pkgFlags pkg) 0, seed := rd pkg 0x10 8,
    tiles := pkgTiles pkg, sramBytes := pkgSram pkg, constBytes := pkgConst pkg, scratchBytes := pkgScratch pkg,
    arrayCycles := rd pkg 0x28 4, vectorCycles := rd pkg 0x2C 4, dramBytes := rd pkg 0x30 4,
    outputBytes := regionSize pkg 2, input := parseInput (pkgPart pkg 1), heads := pkgHeadDescs pkg,
    programs := pkgPrograms pkg, consts := pkgPart pkg 3 }

/-- R366: bytes of the second copies: every distinct block and curve that a group names. -/
def copyBytes (consts : List Byte) (gs : List ScaleGroup) : Nat :=
  let refs := gs.flatMap (fun g => g.producers ++ g.consumers)
  let targets (k : Nat) : List Nat := ((refs.filter (fun r => r.kind == k)).map (·.target)).eraseDups
  sumOf ((targets 0).map (fun o => 16 + 16 * rd consts (o + 4) 2)) + 1024 * (targets 1).length

/-- R348: bytes of a model's resident image. -/
def Model.residentBytes (m : Model) : Nat :=
  match m.image with
  | some i =>
    i.constBytes + 64 + sumOf (i.programs.map (fun p => 64 * p.length)) + (8 + 64 * i.heads.length) +
      (8 + sumOf (m.groups.map (fun g => 8 + 8 * (g.producers.length + g.consumers.length)))) + copyBytes i.consts m.groups
  | none => 0

/-- What a model holds of its partition's DRAM (R348): the package while it loads, the image afterwards. -/
def Model.heldBytes (m : Model) : Nat := if m.image.isSome then m.residentBytes else m.packageBytes

/-- R521: bytes of a partition's usable rows outside the pools. -/
def State.regionBytes (s : State) (p : Nat) : Nat :=
  sumOf ((s.usableRows p).map (fun r =>
    ((List.range 2).filter (fun k => s.available .dramChannel (2 * r + k))).length * 0xE0000000 - 3392 * 2 ^ 20))

/-- Bytes held by the models of a partition. -/
def State.modelBytes (s : State) (p : Nat) : Nat :=
  sumOf ((s.work.models.filter (fun m => s.partOf m.fn == p)).map Model.heldBytes)

/-- R520: B, the bytes of a picture of a size and codec: the coded dimensions are multiples of 16 for H.264 and 64 for H.265 (R277). -/
def codedPixels (codec w h : Nat) : Nat :=
  let a := if codec = 2 then 64 else 16
  roundUp w a * roundUp h a
def pictureBytes (codec w h : Nat) : Nat := 3 * codedPixels codec w h / 2 * (if codec = 2 then 2 else 1)

/-- R521: a stream's region. -/
def regionCharge (codec : Nat) (pool : Bool) (w h : Nat) : Nat :=
  (if pool then 0 else ceilDiv (18 * pictureBytes codec w h * 33) 32) + ceilDiv (21 * w * h) 16 +
    8 * (ceilDiv w 8 * ceilDiv h 8) + 131104

def State.streamRegions (s : State) (p : Nat) : Nat :=
  sumOf ((s.work.streams.filter (fun x => s.partOf x.fn == p)).map (fun x => regionCharge x.codec x.poolMode x.width x.height))

/-- R192: bytes of regions that resets in progress have not zeroed yet. -/
def State.scrubRegions (s : State) (p : Nat) : Nat :=
  sumOf ((allTenants.filter (fun t => (s.tenantSt t).partition == p)).map (fun t => (s.fnSt (fnOf t)).scrubBytes))

/-- Bytes of a partition's regions not held. -/
def State.freeRegion (s : State) (p : Nat) : Nat := s.regionBytes p - (s.modelBytes p + s.streamRegions p + s.scrubRegions p)

/-! ### MODEL_LOAD, MODEL_LOAD_COMPLETE, MODEL_UNLOAD -/

/-- Table 10.4's defaults. -/
def CalPolicy.default : CalPolicy :=
  { mode := 1, maxStep := 2, dMin := -16, dMax := 16, clipHigh := 66, clipLow := 7, headroom := 160, interval := 600,
    minSamples := 1048576 }

def applyModelLoad (h : CmdHead) (pos : Option RingPos) (p : ModelLoadP) : CmdEffect := fun s =>
  if (s.model? h.fn p.model.toNat).isSome then refuse s .modelBusy
  else if s.freeRegion (s.partOf h.fn) < p.bytes.toNat then refuse s .noResources
  else s.cmdAddress h.fn 0xFFFF p.package.toNat p.bytes.toNat false 0x10 (fun s =>
    let m : Model := { fn := h.fn, id := p.model.toNat, image := none, packageBytes := p.bytes.toNat, qepoch := 0,
                       groups := [], policy := CalPolicy.default, windowStart := s.clk.tick, fresh := [] }
    let s := s.withWork { s.work with models := s.work.models ++ [m] }
    (s.beginWork h 0x20 pos (.modelLoad p.model p.bytes.toNat), none))

/-- MODEL_LOAD (R346, R348, R662). -/
def execModelLoad (h : CmdHead) (p : ModelLoadP) (s : State) : Out :=
  s.ringRow h (.modelLoad p) (applyModelLoad h none p)

def modelRejected (reason : Nat) : Answer :=
  { status := .modelRejected, offset := 0xFFFF, result := le 2 reason ++ le 2 0 ++ le 4 0 }

/-- R347: the tenant has a key and the package is not signed under it. -/
def State.signatureBad (s : State) (f : Fn) (pkg : List Byte) : Bool :=
  match (tenantOf f).bind (fun t => (s.tenantSt t).key) with
  | some key =>
    match (pkgSections pkg).find? (fun x => x.type == 6) with
    | some sec => !(sec.bytes == 96 && Config.ecdsaVerify key (pkg.take sec.off) (sliceAt pkg sec.off 96))
    | none => true
  | none => false

def State.dropModel (s : State) (f : Fn) (id : Nat) : State :=
  s.withWork { s.work with models := s.work.models.filter (fun m => !(m.fn == f && m.id == id)) }

/-- R662, steps 3 to 5: the result of a load. -/
def State.loadResult (s : State) (f : Fn) (id bytes : Nat) (pkg : List Byte) : State × Answer :=
  let reason := packageReason pkg bytes
  if reason != 0 then (s.dropModel f id, modelRejected reason)
  else if s.signatureBad f pkg then (s.dropModel f id, failWith .signatureInvalid)
  else
    let m : Model := { fn := f, id := id, image := some (parseImage pkg), packageBytes := bytes, qepoch := 1,
                       groups := (quantGroups pkg).getD [], policy := CalPolicy.default, windowStart := s.clk.tick + 1, fresh := [] }
    let free := (s.dropModel f id).freeRegion (s.partOf f)
    if free < m.residentBytes then (s.dropModel f id, failWith .noResources)
    else (s.modModel f id (fun _ => m), okWith (le 2 0 ++ le 2 0 ++ le 4 1))

/-- MODEL_LOAD_COMPLETE (R346, R662): the package has been fetched, for which the module may issue requests (R187). -/
def execModelLoadComplete (i : ModelLoadedIn) (s : State) : Out :=
  .next (match s.host.works.find? (fun (w : Work) => w.head.fn == i.fn && match w.kind with
      | .modelLoad m _ => m == i.model
      | _ => false) with
    | some w =>
      match w.kind with
      | .modelLoad m bytes =>
        if s.isReady && s.mayIssue i.fn then
          let r := s.loadResult i.fn m.toNat bytes i.package
          r.1.finishWork w r.2
        else s
      | _ => s
    | none => s)

/-- R349: a stream or a frame inside binds the model. -/
def State.modelBound (s : State) (f : Fn) (id : Nat) : Bool :=
  s.work.streams.any (fun x => x.fn == f &&
    (x.binding.any (fun b => b.model == id) || x.frames.any (fun fr => fr.ev.binding.any (fun b => b.model == id)))) ||
    s.chain.grants.any (fun g => g.inferHere && g.handle / 0x1000 == f.val && g.binding.any (fun b => b.model == id))

def applyModelUnload (h : CmdHead) (p : ModelP) : CmdEffect := fun s =>
  match s.model? h.fn p.model.toNat with
  | none => refuse s .notFound
  | some m =>
    if m.image.isNone || s.modelBound h.fn m.id then refuse s .modelBusy
    else (s.dropModel h.fn m.id, some ok)

/-- MODEL_UNLOAD (R349). -/
def execModelUnload (h : CmdHead) (p : ModelP) (s : State) : Out :=
  s.ringRow h (.modelUnload p) (applyModelUnload h p)

end Sys2Proof.Machine
end

