-- ==== Sys2Proof/Machine/Vision.lean ====
section
/-! DEFINITION. The vision engine and the motion field engine (08_vision_motion.md): preparing the input tensor,
crop-and-resize, the motion field and what each costs. -/

namespace Sys2Proof.Machine

/-! ### Samples -/

/-- A filtered value `num / den` as a whole number: exact where it is one, else the one below or above it as the
implementation rounds. -/
def filtered (num : Int) (den : Nat) : Int :=
  if num % den = 0 then num / den else num / den + (if Config.pixelUp num den then 1 else 0)

def clip8 (v : Int) : Nat := (max 0 (min 255 v)).toNat

def planeAt (p : List (List Nat)) (x y : Nat) : Nat := nth 0 (nth [] p y) x

/-- A sample of a plane of `w` by `h`, positions outside taking the nearest sample. -/
def planeClamped (p : List (List Nat)) (w h : Nat) (x y : Int) : Nat :=
  planeAt p (min (w - 1) x.toNat) (min (h - 1) y.toNat)

def planeW (p : List (List Nat)) : Nat := (p.headD []).length

/-- Bilinear interpolation of a plane at position (nx / dx, ny / dy) in samples. -/
def bilinear (p : List (List Nat)) (nx : Int) (dx : Nat) (ny : Int) (dy : Nat) : Nat :=
  let w := planeW p
  let h := p.length
  let x := nx / dx
  let y := ny / dy
  let fx := nx % dx
  let fy := ny % dy
  let s (i j : Int) : Int := planeClamped p w h (x + i) (y + j)
  clip8 (filtered ((dx - fx) * ((dy - fy) * s 0 0 + fy * s 0 1) + fx * ((dy - fy) * s 1 0 + fy * s 1 1)) (dx * dy))

/-! ### Halving (R291, R301) -/

/-- Averages neighbouring pairs of a row; an odd last sample stands for its pair. -/
def halveRow : List Nat → List Nat
  | [] => []
  | [a] => [a]
  | a :: b :: r => (filtered ((a : Int) + b) 2).toNat :: halveRow r

/-- Averages neighbouring pairs of rows. -/
def halveRows : List (List Nat) → List (List Nat)
  | [] => []
  | [a] => [a]
  | a :: b :: r => List.zipWith (fun (x y : Nat) => (filtered ((x : Int) + y) 2).toNat) a b :: halveRows r

/-- R291: halves the horizontal axis while it would be reduced by more than 2:1 to the extent `e`. -/
def halveToW : Nat → Nat → List (List Nat) → List (List Nat)
  | 0, _, p => p
  | fuel + 1, e, p => if 2 * e < planeW p then halveToW fuel e (p.map halveRow) else p

def halveToH : Nat → Nat → List (List Nat) → List (List Nat)
  | 0, _, p => p
  | fuel + 1, e, p => if 2 * e < p.length then halveToH fuel e (halveRows p) else p

/-- One 2:1 reduction on both axes (R301). -/
def halve2 (p : List (List Nat)) : List (List Nat) := halveRows (p.map halveRow)

/-! ### Fit and mapping (R291, R294) -/

/-- ⌊S × T / Sr + 1/2⌋: the scaled extent of an axis under the ratio T / Sr. -/
def scaledExtent (s t sr : Nat) : Nat := max 1 ((2 * s * t + sr) / (2 * sr))

/-- R291: the scaled extents on both axes. -/
def fitExtents (fitMode sw sh tw th : Nat) : Nat × Nat :=
  let xSmaller := tw * sh ≤ th * sw
  if fitMode = 0 then (tw, th)
  else if (fitMode == 1) == decide xSmaller then
    (tw, if tw * sh = th * sw then th else scaledExtent sh tw sw)
  else (scaledExtent sw th sh, th)

/-- R291: the centred offset, rounded toward zero. -/
def centred (t e : Nat) : Int := ((t : Int) - e).tdiv 2

/-- S / E in Q16.16, to nearest with halves upward. -/
def scaleQ16 (s e : Nat) : Nat := (2 * s * 65536 + e) / (2 * e)

/-- R294. -/
def tensorMap (d : InputDesc) (pic : Picture) : TensorMap :=
  let e := fitExtents d.fit pic.width pic.height d.width d.height
  { sx := scaleQ16 pic.width e.1, sy := scaleQ16 pic.height e.2, ox := centred d.width e.1 * 65536,
    oy := centred d.height e.2 * 65536, width := pic.width, height := pic.height }

/-! ### Colour and quantization (R292, R293) -/

/-- R292: (Kr, Kb) in units of 1/10000. -/
def colourMatrix (pic : Picture) : Nat × Nat :=
  match pic.matrix with
  | some m => if m = 1 then (2126, 722) else if m = 5 || m = 6 then (2990, 1140)
              else if 720 ≤ pic.codedHeight then (2126, 722) else (2990, 1140)
  | none => if 720 ≤ pic.codedHeight then (2126, 722) else (2990, 1140)

/-- R292: YCbCr to RGB. -/
def toRgb (pic : Picture) (y cb cr : Nat) : Nat × Nat × Nat :=
  let k := colourMatrix pic
  let kr : Int := k.1
  let kb : Int := k.2
  let kg : Int := 10000 - kr - kb
  let dy : Int := if pic.fullRange then 1 else 219
  let dc : Int := if pic.fullRange then 1 else 224
  let yn : Int := if pic.fullRange then (y : Int) else ((y : Int) - 16) * 255
  let scale : Int := if pic.fullRange then 1 else 255
  let bn : Int := ((cb : Int) - 128) * scale
  let rn : Int := ((cr : Int) - 128) * scale
  let den := (dy * dc * 10000 * kg).toNat
  let base := yn * dc * 10000 * kg
  (clip8 (filtered (base + 2 * (10000 - kr) * rn * dy * kg) den),
   clip8 (filtered (base - 2 * kb * (10000 - kb) * bn * dy - 2 * kr * (10000 - kr) * rn * dy) den),
   clip8 (filtered (base + 2 * (10000 - kb) * bn * dy * kg) den))

/-- R293: one channel value as s8. -/
def quantizeChannel (p : Nat) (gain offset : Int) : Int := satS 8 (((p : Int) * gain + offset + 128) / 256)

def channelCount (channels : Nat) : Nat := if channels = 2 then 1 else 3

/-- The channel values of one tensor pixel, in tensor order (Table 9.7). -/
def channelValues (channels : Nat) (pic : Picture) (y cb cr : Nat) : List Nat :=
  if channels = 2 then [y]
  else
    let c := toRgb pic y cb cr
    if channels = 0 then [c.1, c.2.1, c.2.2] else [c.2.2, c.2.1, c.1]

/-- One pixel of region 1: quantized channels, then zeros up to PIXEL_STRIDE (R293, R345). -/
def tensorPixel (d : InputDesc) (vals : List Int) : List Byte :=
  fit d.pixelStride (vals.map (fun v => BitVec.ofInt 8 v))

def quantized (d : InputDesc) (vals : List Nat) : List Int :=
  vals.zipIdx.map (fun (p, c) => quantizeChannel p (nth 0 d.gain c) (nth 0 d.offset c))

/-- R290: the input tensor of a picture, as region 1 holds it. -/
def prepareTensor (d : InputDesc) (pic : Picture) : List Byte :=
  let e := fitExtents d.fit pic.width pic.height d.width d.height
  let ox := centred d.width e.1
  let oy := centred d.height e.2
  let shrink (p : List (List Nat)) := halveToH 13 e.2 (halveToW 13 e.1 p)
  let yp := shrink pic.luma
  let bp := shrink pic.cb
  let rp := shrink pic.cr
  let at_ (p : List (List Nat)) (i j : Int) : Nat :=
    bilinear p ((2 * i + 1) * planeW p - e.1) (2 * e.1) ((2 * j + 1) * p.length - e.2) (2 * e.2)
  (List.range d.height).flatMap (fun (ty : Nat) => (List.range d.width).flatMap (fun (tx : Nat) =>
    let i := (tx : Int) - ox
    let j := (ty : Int) - oy
    if 0 ≤ i && i < e.1 && 0 ≤ j && j < e.2 then
      tensorPixel d (quantized d (channelValues d.channels pic (at_ yp i j) (at_ bp i j) (at_ rp i j)))
    else tensorPixel d (d.fill.take (channelCount d.channels))))

/-- R295. -/
def prepareCycles (w h : Nat) (d : InputDesc) : Nat :=
  ceilDiv (w * h) 4 + ceilDiv (d.width * d.height * channelCount d.channels) 4 + 2000

/-! ### Crop-and-resize (R298, R299) -/

/-- A box clipped to the cropped picture, in 1/16 pixel. -/
def clipBox (b : Box) (w h : Nat) : Box :=
  { x0 := min b.x0 (16 * w), y0 := min b.y0 (16 * h), x1 := min b.x1 (16 * w), y1 := min b.y1 (16 * h) }

/-- R298: the clipped box is at least 2 pixels wide and high. -/
def cropUsable (b : Box) (w h : Nat) : Bool :=
  let c := clipBox b w h
  c.x0 + 32 ≤ c.x1 && c.y0 + 32 ≤ c.y1

/-- Luma, Cb and Cr of output pixel (i, j) of a box resampled to `tw` by `th`. -/
def cropSample (pic : Picture) (b : Box) (tw th i j : Nat) : Nat × Nat × Nat :=
  let nx : Int := 2 * b.x0 * tw + (2 * i + 1) * (b.x1 - b.x0 : Nat) - 16 * tw
  let ny : Int := 2 * b.y0 * th + (2 * j + 1) * (b.y1 - b.y0 : Nat) - 16 * th
  let dx := 32 * tw
  let dy := 32 * th
  let c (p : List (List Nat)) : Nat := bilinear p (2 * nx - dx) (4 * dx) (2 * ny - dy) (4 * dy)
  (bilinear pic.luma nx dx ny dy, c pic.cb, c pic.cr)

/-- R298: the input tensor of one box. -/
def cropTensor (d : InputDesc) (pic : Picture) (b : Box) : List Byte :=
  let b := clipBox b pic.width pic.height
  (List.range d.height).flatMap (fun j => (List.range d.width).flatMap (fun i =>
    let v := cropSample pic b d.width d.height i j
    tensorPixel d (quantized d (channelValues d.channels pic v.1 v.2.1 v.2.2))))

/-- R299, per box. -/
def cropCycles (d : InputDesc) : Nat := ceilDiv (d.width * d.height * channelCount d.channels) 2 + 256

/-! ### The motion field (R301-R309) -/

/-- Luma of the reference at whole position (x, y). -/
def refLuma (p : List (List Nat)) (x y : Int) : Int :=
  if 0 ≤ x && x < planeW p && 0 ≤ y && y < p.length then planeAt p x.toNat y.toNat else (Config.outsideLuma x y).toNat

/-- R304: the reference at quarter-pel position (qx, qy), bilinear. -/
def refQuarter (p : List (List Nat)) (qx qy : Int) : Int :=
  let x := qx / 4
  let y := qy / 4
  let fx := qx % 4
  let fy := qy % 4
  filtered ((4 - fx) * ((4 - fy) * refLuma p x y + fy * refLuma p x (y + 1)) +
    fx * ((4 - fy) * refLuma p (x + 1) y + fy * refLuma p (x + 1) (y + 1))) 16

/-- Luma SAD of the 8 x 8 block at (8 bx, 8 by) for a vector, on the pixels inside the picture (R302, R303). -/
def blockSad (cur ref : List (List Nat)) (bx bY : Nat) (v : Int × Int) : Nat :=
  sumOf ((List.range 8).flatMap (fun j => (List.range 8).map (fun i =>
    let x := 8 * bx + i
    let y := 8 * bY + j
    if x < planeW cur && y < cur.length then
      ((planeAt cur x y : Int) - refQuarter ref (4 * x - v.1) (4 * y - v.2)).natAbs
    else 0)))

def median3 (a b c : Int) : Int := max (min a b) (min (max a b) c)

/-- Chosen vectors of the left, above and above-right blocks; a missing one counts as (0, 0) (R303). -/
def neighbours (chosen : List (Int × Int)) (cols k : Nat) : List (Int × Int) :=
  let c := k % cols
  [if 0 < c then nth (0, 0) chosen (k - 1) else (0, 0),
   if cols ≤ k then nth (0, 0) chosen (k - cols) else (0, 0),
   if cols ≤ k && c + 1 < cols then nth (0, 0) chosen (k - cols + 1) else (0, 0)]

/-- Component-wise median of the three neighbours. -/
def medianOf (ns : List (Int × Int)) : Int × Int :=
  let n (i : Nat) : Int × Int := nth (0, 0) ns i
  (median3 (n 0).1 (n 1).1 (n 2).1, median3 (n 0).2 (n 1).2 (n 2).2)

/-- R305: ±128 pixels. -/
def clipVec (v : Int × Int) : Int × Int := (max (-512) (min 512 v.1), max (-512) (min 512 v.2))

/-- R303: the matching cost. -/
def matchCost (cur ref : List (List Nat)) (bx bY : Nat) (m v : Int × Int) : Nat :=
  blockSad cur ref bx bY v + 4 * ((v.1 - m.1).natAbs + (v.2 - m.2).natAbs)

/-- R304: the first of the least cost. -/
def bestOf (cost : Int × Int → Nat) : List (Int × Int) → (Int × Int) → Int × Int
  | [], best => best
  | v :: vs, best => bestOf cost vs (if cost v < cost best then v else best)

/-- The offsets from -r to r on both axes in evaluation order, in steps of `step` quarter pixels. -/
def searchOffsets (r : Nat) (step : Int) : List (Int × Int) :=
  let axis : List Int := (List.range (2 * r + 1)).map (fun (i : Nat) => (i : Int) - r)
  let all := axis.flatMap (fun y => axis.map (fun x => (x, y)))
  (sortBy (fun a b => Config.searchOrder a.1 a.2 < Config.searchOrder b.1 b.2) all).map (fun o => (o.1 * step, o.2 * step))

/-- One search step around a vector. -/
def refine (cost : Int × Int → Nat) (r : Nat) (step : Int) (v : Int × Int) : Int × Int :=
  bestOf cost ((searchOffsets r step).map (fun o => clipVec (v.1 + o.1, v.2 + o.2))) v

/-- The half-pel and quarter-pel steps of mode 0. -/
def refineSub (cost : Int × Int → Nat) (v : Int × Int) : Int × Int := refine cost 1 1 (refine cost 1 2 v)

/-- One pass over the blocks of a plane in raster order: `choose` picks a block's vector from its number, its neighbours and
its cost function. -/
def searchPass (cur ref : List (List Nat)) (cols : Nat)
    (choose : Nat → List (Int × Int) → (Int × Int → Nat) → Int × Int) : Nat → Nat → List (Int × Int) → List (Int × Int)
  | 0, _, chosen => chosen
  | fuel + 1, k, chosen =>
    let ns := neighbours chosen cols k
    let cost := matchCost cur ref (k % cols) (k / cols) (medianOf ns)
    searchPass cur ref cols choose fuel (k + 1) (chosen ++ [choose k ns cost])

def blockCols (p : List (List Nat)) : Nat := ceilDiv (planeW p) 8
def blockRows (p : List (List Nat)) : Nat := ceilDiv p.length 8

def searchAll (cur ref : List (List Nat)) (choose : Nat → List (Int × Int) → (Int × Int → Nat) → Int × Int) :
    List (Int × Int) :=
  searchPass cur ref (blockCols cur) choose (blockCols cur * blockRows cur) 0 []

/-- R306: the decoder's vector over the distance to its reference, toward zero. -/
def decoderVec (m : Option (Int × Int × Nat)) : List (Int × Int) :=
  match m with
  | some (x, y, d) => if d = 0 then [] else [(x.tdiv d, y.tdiv d)]
  | none => []

/-- Mode 0 of Table 8.2. -/
def fieldPredictor (cur ref : List (List Nat)) (motion : List (Option (Int × Int × Nat))) (prev : List FieldVec) :
    List (Int × Int) :=
  searchAll cur ref (fun k ns cost =>
    let p := match prev[k]? with
      | some v => (v.dx, v.dy)
      | none => (0, 0)
    let cands := (decoderVec (nth none motion k) ++ [p, (0, 0)] ++ ns).map clipVec
    refineSub cost (refine cost 2 4 (bestOf cost cands.tail (cands.headD (0, 0)))))

/-- The vectors of a level from its parent level's: the better of the parent's times 2 and zero, refined. -/
def pyramidStep (cur ref : List (List Nat)) (parent : List (Int × Int)) (parentCols : Nat) (sub : Bool) : List (Int × Int) :=
  let cols := blockCols cur
  searchAll cur ref (fun k _ cost =>
    let p := nth (0, 0) parent (k / cols / 2 * parentCols + k % cols / 2)
    let v := refine cost 2 4 (bestOf cost [(0, 0)] (clipVec (2 * p.1, 2 * p.2)))
    if sub then refineSub cost v else v)

/-- Mode 1 of Table 8.2. -/
def fieldPyramid (cur ref : List (List Nat)) : List (Int × Int) :=
  let c2 := halve2 cur
  let r2 := halve2 ref
  let c4 := halve2 c2
  let r4 := halve2 r2
  let v4 := searchAll c4 r4 (fun _ _ cost => refine cost 32 4 (0, 0))
  pyramidStep cur ref (pyramidStep c2 r2 v4 (blockCols c4) false) (blockCols c2) true

/-- Bit of the 64 x 64 block that an 8 x 8 block lies in. -/
def concealedAt (conceal : List Bool) (w bx bY : Nat) : Bool := nth false conceal (bY / 8 * ceilDiv w 64 + bx / 8)

/-- R301-R309: the field of a picture against its motion reference. -/
def motionField (seq mode : Nat) (pic : Picture) (conceal : List Bool) (motion : List (Option (Int × Int × Nat)))
    (prev : Option Field) (ref : Option MotionRef) : Field :=
  let cols := ceilDiv pic.width 8
  let rows := ceilDiv pic.height 8
  match ref with
  | none =>
    { seq := seq, columns := cols, rows := rows, mode := mode, interval := 0, refCapture := none,
      vecs := (List.range (cols * rows)).map (fun k =>
        { dx := 0, dy := 0, valid := false, concealed := concealedAt conceal pic.width (k % max 1 cols) (k / max 1 cols), cost := 0 }) }
  | some r =>
    let vs := if mode = 0 then fieldPredictor pic.luma r.luma motion ((prev.map (·.vecs)).getD []) else fieldPyramid pic.luma r.luma
    { seq := seq, columns := cols, rows := rows, mode := mode, interval := min 65535 (seq - r.seq), refCapture := r.capture,
      vecs := vs.zipIdx.map (fun (v, k) =>
        let bx := k % max 1 cols
        let bY := k / max 1 cols
        { dx := v.1, dy := v.2, valid := true,
          concealed := concealedAt conceal pic.width bx bY || concealedAt r.conceal pic.width bx bY,
          cost := min 255 (blockSad pic.luma r.luma bx bY v / 64) }) }

/-- R305, R307. -/
def motionCycles (mode w h : Nat) : Nat := ceilDiv w 8 * ceilDiv h 8 * (if mode = 0 then 4 else 12) + 4000

/-! ### The field as bytes (Tables 8.3, 8.4) -/

def FieldVec.bits (v : FieldVec) : Nat :=
  ofSigned 11 v.dx + 2 ^ 11 * ofSigned 11 v.dy + 2 ^ 22 * boolNat v.valid + 2 ^ 23 * boolNat v.concealed + 2 ^ 24 * v.cost

def Field.bytes (f : Field) : List Byte :=
  le 8 f.seq ++ le 2 f.columns ++ le 2 f.rows ++ le 1 f.mode ++ le 1 0 ++ le 2 f.interval ++
    f.vecs.flatMap (fun v => le 4 v.bits)

end Sys2Proof.Machine
end

