-- ==== Sys2Proof/Machine/FacetExec.lean ====
section
/-! DEFINITION. Running a facet program (09_facet_tiles.md) with the numbers of 10_quantization.md: the array, the vector unit
and the DMA engine over a job's SRAM and regions, synchronised by tokens. -/

namespace Sys2Proof.Machine

/-! ### Memories of a job -/

/-- Bytes a job has written, newest first. -/
abbrev JobMem := List (Nat × Byte)

/-- The byte at an address; unwritten bytes are free. -/
def JobMem.byte (m : JobMem) (tag a : Nat) : Byte :=
  match m.find? (fun x => x.1 == a) with
  | some x => x.2
  | none => Config.jobStart tag a

def JobMem.bytes (m : JobMem) (tag a n : Nat) : List Byte := (List.range n).map (fun i => m.byte tag (a + i))

def JobMem.put (m : JobMem) (a : Nat) (bs : List Byte) : JobMem := (bs.zipIdx.map (fun (b, i) => (a + i, b))).reverse ++ m

def JobMem.nat (m : JobMem) (tag a n : Nat) : Nat := leVal (m.bytes tag a n)
def JobMem.int (m : JobMem) (tag a n : Nat) : Int := toSigned (8 * n) (m.nat tag a n)

/-- One logical tile of a job. -/
structure TileSt where
  sram : JobMem
  tokens : List Nat
  queues : List (List FacetCmd)
  /-- Region 0 sources of SRAM bytes: (SRAM address, bytes, region 0 offset), newest first. -/
  source : List (Nat × Nat × Nat)
  deriving DecidableEq, Repr

/-- A job: its seed parts (R359), its regions and its tiles. -/
structure Job where
  model : Nat
  seed : Nat
  t0 : Nat
  run : Nat
  consts : List Byte
  input : List Byte
  out : JobMem
  scratch : JobMem
  tiles : List TileSt
  stats : List BlockStat
  deriving DecidableEq, Repr

def TileSt.blank : TileSt := { sram := [], tokens := List.replicate 16 0, queues := [[], [], []], source := [] }

def Job.tile (j : Job) (t : Nat) : TileSt := nth TileSt.blank j.tiles t

def Job.modTile (j : Job) (t : Nat) (g : TileSt → TileSt) : Job := { j with tiles := j.tiles.modify t g }

/-- Region 0 offset of an SRAM address, none where no DMA brought it from there. -/
def TileSt.sourceOf (x : TileSt) (a : Nat) : Option Nat :=
  (x.source.find? (fun r => r.1 ≤ a && a < r.1 + r.2.1)).map (fun r => r.2.2 + (a - r.1))

/-! ### Rounding draws (R359) -/

def roundDraw (seed t0 tile run layer addr : Nat) : Nat :=
  let k := mix64 (w64 seed ^^^ mix64 (w64 t0))
  let k := mix64 (k ^^^ w64 (tile <<< 56) ^^^ w64 (run <<< 40) ^^^ w64 (layer <<< 16))
  mix64 (k ^^^ addr) >>> 48

/-! ### Curves (R336, R337) -/

/-- The last segment whose BREAK is at most x, else segment 0. -/
def lastSegment (le : Nat → Bool) : Nat := ((List.range 64).filter (fun i => i != 0 && le i)).getLast?.getD 0

/-- R337 for integer layers; `c` is the curve's 1024 bytes. -/
def curveInt (c : List Byte) (x : Int) : Int :=
  let i := lastSegment (fun i => decide (rdS c (16 * i) 4 ≤ x))
  let brk := rdS c (16 * i) 4
  let slope := rdS c (16 * i + 4) 4
  satS 32 (rdS c (16 * i + 8) 4 + (slope * (x - brk) + 2 ^ 15) / 2 ^ 16)

/-- R337 for FP16 layers. -/
def curveFloat (c : List Byte) (x : Fl) : Fl :=
  let i := lastSegment (fun i => flLe (f32 (rd c (16 * i) 4)) x)
  addF (f32 (rd c (16 * i + 8) 4)) (mulF (f32 (rd c (16 * i + 4) 4)) (subF x (f32 (rd c (16 * i) 4))))

/-! ### Requantization (R357, R358, R361) -/

/-- A requantized element: the output value and y before ZO (R358). `blk` is the block's bytes, `u` the draw. -/
def requant (blk : List Byte) (curve : Option (List Byte)) (n : Nat) (acc : Int) (u : Nat) : Int × Int :=
  let e := 16 + 16 * n
  let v : Int := satS 32 (acc + rdS blk e 4)
  let v : Int := match curve with
    | some c => curveInt c v
    | none => v
  let p : Int := v * (rd blk (e + 4) 4 : Int)
  let s := (31 + rdS blk (e + 8) 1).toNat
  let y := p / 2 ^ s
  let f := (p - y * 2 ^ s) / 2 ^ (s - 16)
  let y := if rd blk 2 1 = 0 then (if (u : Int) < f then y + 1 else y) else (if 32768 ≤ f then y + 1 else y)
  (satS 8 (y + rdS blk 1 1), y)

/-- R361: counts one element of a block. -/
def BlockStat.element (b : BlockStat) (y zo : Int) : BlockStat :=
  { b with total := b.total + 1, clip := b.clip + boolNat (decide (y + zo < -128) || decide (127 < y + zo)),
           peakHi := max b.peakHi y.toNat, peakLo := max b.peakLo (-y).toNat }

def statKey (m t o : Nat) : BlockStat → Bool := fun b => b.model == m && b.tile == t && b.offset == o

/-- Changes the counters of a block, adding it when it is new. -/
def Job.count (j : Job) (tile : Nat) (offset : Option Nat) (g : BlockStat → BlockStat) : Job :=
  match offset with
  | none => j
  | some o =>
    let blank : BlockStat := { model := j.model, tile := tile, offset := o, total := 0, clip := 0, peakHi := 0, peakLo := 0,
                               accSat := 0 }
    if j.stats.any (statKey j.model tile o) then { j with stats := updWhere (statKey j.model tile o) g j.stats }
    else { j with stats := j.stats ++ [g blank] }

/-! ### The array (R321-R333, R355, R356) -/

/-- Input element k of output row m at tap t (R326, R327, R331). -/
def arrayInput (sram : JobMem) (c : FacetCmd) (m t k : Nat) : Int :=
  if isConv c then
    let oy := m / max 1 (fcOutW c)
    let ox := m % max 1 (fcOutW c)
    let iy : Int := (oy * fcStrideY c : Nat) - (fcPadT c : Int) + (t / max 1 (fcKW c) * fcDilY c : Nat)
    let ix : Int := (ox * fcStrideX c : Nat) - (fcPadL c : Int) + (t % max 1 (fcKW c) * fcDilX c : Nat)
    if 0 ≤ iy && iy < fcInH c && 0 ≤ ix && ix < fcInW c then
      sram.int 0 (fcA c + iy.toNat * fcALine c + ix.toNat * fcAPix c + k) 1
    else fcPad c
  else sram.int 0 (fcA c + m * fcAPix c + k) 1

/-- Stationary weight of input row k for output n at tap t (R321, R332). -/
def arrayWeight (sram : JobMem) (c : FacetCmd) (t k n : Nat) : Int :=
  let nf := n / foldN c
  let r := n % foldN c
  let line := fcW c + (t * ceilDiv (fcN c) (foldN c) + nf) * (fcK c * 128) + k * 128
  if fcInt4 c then
    let b := sram.nat 0 (line + r % 128) 1
    toSigned 4 (if r < 128 then b % 16 else b / 16)
  else sram.int 0 (line + r) 1

/-- The sum of one K-fold, exact. -/
def foldSum (sram : JobMem) (c : FacetCmd) (za zw : Int) (m t n kf : Nat) : Int :=
  sumOfInt (((List.range 128).filter (fun i => 128 * kf + i < fcK c)).map (fun i =>
    (arrayInput sram c m t (128 * kf + i) - za) * (arrayWeight sram c t (128 * kf + i) n - zw)))

/-- R356: saturating addition; the answer counts the saturations. -/
def satAdd (acc : Int × Nat) (x : Int) : Int × Nat :=
  let y := acc.1 + x
  (satS 32 y, acc.2 + boolNat (satS 32 y != y))

/-- One accumulator: what it held and every fold of every tap in order. -/
def arrayAcc (sram : JobMem) (c : FacetCmd) (blk : List Byte) (m n : Nat) : Int × Nat :=
  let start : Int := if fcAccumulate c then sram.int 0 (fcAcc c + m * accRow c + 4 * n) 4 else 0
  let za := rdS blk 0 1
  let zw := rdS blk (16 + 16 * n + 9) 1
  ((List.range (fcTaps c)).flatMap (fun t => (List.range (ceilDiv (fcK c) 128)).map (fun kf => (t, kf)))).foldl
    (fun acc tk => satAdd acc (foldSum sram c za zw m tk.1 n tk.2)) (start, 0)

def curveBytes (sram : JobMem) (c : FacetCmd) : Option (List Byte) :=
  if fcCurve c = 0xFFFFFFFF then none else some (sram.bytes 0 (fcCurve c) 1024)

/-- MATMUL and CONV. -/
def Job.array (j : Job) (t : Nat) (c : FacetCmd) : Job :=
  let sram := (j.tile t).sram
  let blk := sram.bytes 0 (fcQparam c) (16 + 16 * fcN c)
  let off := (j.tile t).sourceOf (fcQparam c)
  let curve := curveBytes sram c
  let cells := (List.range (fcM c)).flatMap (fun m => (List.range (fcN c)).map (fun n => (m, n, arrayAcc sram c blk m n)))
  let j := cells.foldl (fun j x =>
    (j.modTile t (fun y => { y with sram := y.sram.put (fcAcc c + x.1 * accRow c + 4 * x.2.1) (leS 4 x.2.2.1) })).count t off
      (fun b => { b with accSat := b.accSat + x.2.2.2 })) j
  if fcRequant c then
    cells.foldl (fun j x =>
      let a := fcOut c + x.1 * fcOutPix c + x.2.1
      let q := requant blk curve x.2.1 x.2.2.1 (roundDraw j.seed j.t0 t j.run (fcLayer c) a)
      (j.modTile t (fun y => { y with sram := y.sram.put a (leS 1 q.1) })).count t off
        (fun b => b.element q.2 (rdS blk 1 1))) j
  else j

/-! ### The vector unit (R335, R341, R360) -/

/-- An element as a number: INT8, INT32 or FP16. -/
def readElem (sram : JobMem) (fmt a : Nat) : Fl :=
  if fmt = 0 then flOfInt (sram.int 0 a 1) else if fmt = 1 then flOfInt (sram.int 0 a 4) else f16 (sram.nat 0 a 2)

/-- The exact value of a number that is an integer. -/
def wholeOf (x : Fl) : Option Int :=
  match x with
  | .fin n m e =>
    let v := flToIntRne (.fin n m e) 0
    if flSub (.fin n m e) (flOfInt v) = .fin false 0 (min e 0) || flToIntRne (.fin n m e) 200 = v * 2 ^ 200 then some v else none
  | .nan => none
  | .inf _ => none

/-- A result in its output format: exact where it fits, else free (notes/assumptions/18.md); FP16 rounds to nearest even. -/
def writeElem (fmt : Nat) (x : Fl) : List Byte :=
  let free : List Byte := le (elemSize fmt) (Config.narrow fmt (flToIntRne x 24)).toNat
  if fmt = 2 then le 2 (f16bits x)
  else
    let bits := 8 * elemSize fmt
    match wholeOf x with
    | some v => if satS bits v = v then leS (elemSize fmt) v else free
    | none => free

/-- A mean of a sum over a count: as filtered samples are for integers, correctly rounded by the output for FP16. -/
def meanElem (fmt : Nat) (sum : Fl) (count : Nat) : Fl :=
  if fmt = 2 then flDiv sum (flOfInt count)
  else if count = 0 then .nan
  else flOfInt (filtered (flToIntRne sum 0) count)

/-- Input position of output pixel m at tap (ky, kx) (R326). -/
def windowPos (c : FacetCmd) (m ky kx : Nat) : Int × Int :=
  let w := max 1 (fcOutW c)
  (((m / w * fcStrideY c : Nat) : Int) - fcPadT c + (ky * fcDilY c : Nat),
   ((m % w * fcStrideX c : Nat) : Int) - fcPadL c + (kx * fcDilX c : Nat))

/-- An input element at a position, none outside the input. -/
def inputAt (sram : JobMem) (c : FacetCmd) (p : Int × Int) (ch : Nat) : Option Fl :=
  if 0 ≤ p.1 && p.1 < fcInH c && 0 ≤ p.2 && p.2 < fcInW c then
    some (readElem sram (fcInFmt c) (fcA c + p.1.toNat * fcALine c + p.2.toNat * fcAPix c + ch * elemSize (fcInFmt c)))
  else none

def taps (c : FacetCmd) : List (Nat × Nat) :=
  (List.range (fcKH c)).flatMap (fun ky => (List.range (fcKW c)).map (fun kx => (ky, kx)))

/-- Bilinear upsampling with sample centres at half-pixel positions. -/
def upBilinear (sram : JobMem) (c : FacetCmd) (oy ox ch : Nat) : Fl :=
  let dy := 2 * max 1 (fcStrideY c)
  let dx := 2 * max 1 (fcStrideX c)
  let ny : Int := 2 * oy + 1 - max 1 (fcStrideY c)
  let nx : Int := 2 * ox + 1 - max 1 (fcStrideX c)
  let clampTo (n : Nat) (v : Int) : Int := max 0 (min ((n : Int) - 1) v)
  let s (i j : Int) : Fl := (inputAt sram c (clampTo (fcInH c) (ny / dy + j), clampTo (fcInW c) (nx / dx + i)) ch).getD .nan
  let fy := ny % dy
  let fx := nx % dx
  let term (w : Int) (x : Fl) : Fl := flMul (flOfInt w) x
  let sum := flAdd (flAdd (term ((dx - fx) * (dy - fy)) (s 0 0)) (term (fx * (dy - fy)) (s 1 0)))
    (flAdd (term ((dx - fx) * fy) (s 0 1)) (term (fx * fy) (s 1 1)))
  meanElem (fcOutFmt c) sum (dx * dy)

/-- The value of output pixel m, channel ch of a VECTOR operation other than REQUANT, CURVE and CONVERT. -/
def vectorValue (sram : JobMem) (c : FacetCmd) (m ch : Nat) : Fl :=
  let op := fcMode c
  let si := elemSize (fcInFmt c)
  let a := readElem sram (fcInFmt c) (fcA c + m * fcAPix c + ch * si)
  let b := readElem sram (fcInFmt c) (fcSrcB c + m * fcBPix c + ch * si)
  if op = 0x01 then flAdd a b
  else if op = 0x02 then flMul a b
  else if op = 0x03 then flMax a b
  else if op = 0x04 then flMin a b
  else if op = 0x10 then
    match (taps c).map (fun k => (inputAt sram c (windowPos c m k.1 k.2) ch).getD (flOfInt (fcPad c))) with
    | x :: xs => xs.foldl flMax x
    | [] => .nan
  else if op = 0x11 then
    let xs := (taps c).filterMap (fun k => inputAt sram c (windowPos c m k.1 k.2) ch)
    meanElem (fcOutFmt c) (xs.foldl flAdd (flOfInt 0)) xs.length
  else if op = 0x12 then
    let blk := sram.bytes 0 (fcQparam c) (16 + 16 * fcC c)
    let za := if fcInFmt c = 2 then flOfInt 0 else flOfInt (rdS blk 0 1)
    let zw := if fcInFmt c = 2 then flOfInt 0 else flOfInt (rdS blk (16 + 16 * ch + 9) 1)
    (taps c).foldl (fun acc k =>
      let x := (inputAt sram c (windowPos c m k.1 k.2) ch).getD (flOfInt (fcPad c))
      let w := readElem sram (fcInFmt c) (fcSrcB c + ((k.1 * fcKW c + k.2) * fcC c + ch) * si)
      flAdd acc (flMul (flSub x za) (flSub w zw))) (flOfInt 0)
  else if op = 0x13 then
    let xs := (List.range (fcInH c)).flatMap (fun (y : Nat) => (List.range (fcInW c)).filterMap (fun (x : Nat) =>
      inputAt sram c ((y : Int), (x : Int)) ch))
    meanElem (fcOutFmt c) (xs.foldl flAdd (flOfInt 0)) xs.length
  else if op = 0x18 then
    let w := max 1 (fcInW c * fcStrideX c)
    (inputAt sram c (((m / w / max 1 (fcStrideY c) : Nat) : Int), ((m % w / max 1 (fcStrideX c) : Nat) : Int)) ch).getD .nan
  else if op = 0x19 then
    let w := max 1 (fcInW c * fcStrideX c)
    upBilinear sram c (m / w) (m % w) ch
  else
    -- COPY (R335): by pixel, or through the address generator where the command gives an output width
    if fcOutW c = 0 then a else (inputAt sram c (windowPos c m 0 0) ch).getD (flOfInt (fcPad c))

/-- Where VECTOR writes output pixel m, channel ch. -/
def vectorDst (c : FacetCmd) (m ch : Nat) : Nat := fcDst c + m * fcOutPix c + ch * elemSize (vecOut c)

def vectorCells (c : FacetCmd) : List (Nat × Nat) :=
  (List.range (vecPixels c)).flatMap (fun m => (List.range (fcC c)).map (fun ch => (m, ch)))

/-- R360. -/
def convertElem (sram : JobMem) (c : FacetCmd) (a : Nat) : List Byte :=
  let hdr := sram.bytes 0 (fcQparam c) 16
  let fs := f32 (rd hdr 8 4)
  if fcInFmt c = 0 then le 2 (f16bits (flMul fs (flOfInt (sram.int 0 a 1 - rdS hdr 0 1))))
  else match flDiv (readElem sram (fcInFmt c) a) fs with
    | .nan => le 1 (Config.narrow 0 0).toNat
    | x => leS 1 (satS 8 (flToIntRne x 0 + rdS hdr 1 1))

/-- VECTOR. -/
def Job.vector (j : Job) (t : Nat) (c : FacetCmd) : Job :=
  let sram := (j.tile t).sram
  let op := fcMode c
  let put (j : Job) (a : Nat) (bs : List Byte) : Job := j.modTile t (fun y => { y with sram := y.sram.put a bs })
  if op = 0x08 then
    let blk := sram.bytes 0 (fcQparam c) (16 + 16 * fcC c)
    let off := (j.tile t).sourceOf (fcQparam c)
    (vectorCells c).foldl (fun j x =>
      let a := fcDst c + x.1 * fcOutPix c + x.2
      let acc := sram.int 0 (fcA c + x.1 * fcAPix c + 4 * x.2) 4
      let q := requant blk (curveBytes sram c) x.2 acc (roundDraw j.seed j.t0 t j.run (fcLayer c) a)
      (put j a (leS 1 q.1)).count t off (fun b => b.element q.2 (rdS blk 1 1))) j
  else if op = 0x09 then
    (vectorCells c).foldl (fun j x =>
      let a := fcA c + x.1 * fcAPix c + x.2 * elemSize (fcInFmt c)
      match curveBytes sram c with
      | some cv =>
        if fcInFmt c = 2 then put j a (le 2 (f16bits (curveFloat cv (readElem sram 2 a))))
        else put j a (writeElem (fcInFmt c) (flOfInt (curveInt cv (sram.int 0 a (elemSize (fcInFmt c))))))
      | none => j) j
  else if op = 0x0A then
    (vectorCells c).foldl (fun j x =>
      put j (vectorDst c x.1 x.2) (convertElem sram c (fcA c + x.1 * fcAPix c + x.2 * elemSize (fcInFmt c)))) j
  else (vectorCells c).foldl (fun j x => put j (vectorDst c x.1 x.2) (writeElem (fcOutFmt c) (vectorValue sram c x.1 x.2))) j

/-! ### DMA (R342, R661) -/

/-- Bytes of a region. -/
def Job.region (j : Job) (r a n : Nat) : List Byte :=
  if r = 0 then sliceAt j.consts a n
  else if r = 1 then sliceAt j.input a n
  else if r = 2 then j.out.bytes 2 a n else j.scratch.bytes 3 a n

def Job.writeRegion (j : Job) (r a : Nat) (bs : List Byte) : Job :=
  if r = 1 then { j with input := putAt j.input a bs }
  else if r = 2 then { j with out := j.out.put a bs }
  else if r = 3 then { j with scratch := j.scratch.put a bs } else j

/-- DMA, line by line. -/
def Job.dma (j : Job) (t : Nat) (c : FacetCmd) : Job :=
  (List.range (fcLines c)).foldl (fun j i =>
    let sa := fcSram c + i * fcSramStride c
    let da := fcDram c + i * fcDramStride c
    if fcMode c = 0 then
      let bs := j.region (fcRegion c) da (fcBytes c)
      j.modTile t (fun y => { y with
        sram := y.sram.put sa bs,
        source := if fcRegion c = 0 then (sa, fcBytes c, da) :: y.source else y.source })
    else
      let bs := (j.tile t).sram.bytes 0 sa (fcBytes c)
      if fcMode c = 1 then j.writeRegion (fcRegion c) da bs
      else j.modTile (1 - t) (fun y => { y with sram := y.sram.put da bs })) j

/-! ### Dispatch by tokens (R338, R339) -/

/-- The heads of the queues that may start: (tile, queue, command, the rest of the queue). -/
def Job.ready (j : Job) : List (Nat × Nat × FacetCmd × List FacetCmd) :=
  (j.tiles.zipIdx).flatMap (fun (x, t) => (x.queues.zipIdx).filterMap (fun (q, k) => match q with
    | c :: rest => if waitMet x.tokens c then some (t, k, c, rest) else none
    | [] => none))

/-- Executes one command and raises its token. -/
def Job.exec1 (j : Job) (t : Nat) (c : FacetCmd) : Job :=
  let j := if isArray c then j.array t c else if isVector c then j.vector t c else j.dma t c
  j.modTile t (fun y => { y with tokens := signal y.tokens c })

/-- Runs a job to its end: at most `fuel` commands. Queues that may start together start in a free order. -/
def Job.runAll : Nat → Job → Job
  | 0, j => j
  | fuel + 1, j =>
    match j.ready with
    | [] => j
    | r :: rs =>
      let pick := (r :: rs).getD (Config.queueOrder fuel % (rs.length + 1)) r
      let j := j.modTile pick.1 (fun y => { y with queues := y.queues.set pick.2.1 pick.2.2.2 })
      Job.runAll fuel (j.exec1 pick.1 pick.2.2.1)

/-- What a run of a model leaves: the head tensors of region 2, the counters, and what each logical tile's SRAM received. -/
structure ModelRun where
  tensors : List (List Byte)
  stats : List BlockStat
  srams : List JobMem
  deriving DecidableEq, Repr

/-- A run of a model on one input. `run` is 0 for a primary model. -/
def runModel (id : Nat) (i : ModelImage) (t0 run : Nat) (input : List Byte) : ModelRun :=
  let j : Job :=
    { model := id, seed := i.seed, t0 := t0, run := run, consts := i.consts, input := input, out := [], scratch := [],
      tiles := i.programs.map (fun p => { TileSt.blank with queues := queuesOf p }), stats := [] }
  let j := j.runAll (sumOf (i.programs.map List.length))
  { tensors := i.heads.map (fun h => j.out.bytes 2 h.outputOffset (h.gridW * h.gridH * h.pixelStride)), stats := j.stats,
    srams := j.tiles.map (·.sram) }

end Sys2Proof.Machine
end

