-- ==== Sys2Proof/Machine/Quant.lean ====
section
/-! DEFINITION. Autonomous recalibration (10_quantization.md, R361-R374): the copies a quantization epoch serves, the window,
the retune rule, CALIBRATION_POLICY and QUANT_RETUNE. -/

namespace Sys2Proof.Machine

/-! ### Powers of 2^(1/16) (R370) -/

/-- ⌊2^(i/16) × 2^n⌋. -/
def root16 (i n : Nat) : Nat := Nat.sqrt (Nat.sqrt (Nat.sqrt (Nat.sqrt (2 ^ (i + 16 * n)))))

/-- POW16[i]: the integer nearest to 2^31 × 2^(i/16). -/
def pow16 (i : Nat) : Nat := (root16 i 32 + 1) / 2

/-- R370: a multiplier and shift rescaled by e steps. -/
def rescaleMult (mult0 : Nat) (shift0 e : Int) : Nat × Int :=
  if mult0 = 0 then (0, shift0)
  else
    let q := e / 16
    let prod := mult0 * pow16 (e % 16).toNat
    let b := bitlen prod
    let m := (prod + 2 ^ (b - 32)) / 2 ^ (b - 31)
    let shift := 62 - (b : Int) + shift0 - q
    if m = 2 ^ 31 then (2 ^ 30, shift - 1) else (m, shift)

/-- R370: x0 divided by k = 2^(d/16). -/
def divideByK (x0 d : Int) : Int :=
  let q := (-d) / 16
  let num := x0 * pow16 ((-d) % 16).toNat
  satS 32 (if 31 ≤ q then num * 2 ^ (q - 31).toNat else divRoundAway num (2 ^ (31 - q).toNat))

/-- R371: a binary32 times 2^(d/16), rounded to nearest even. -/
def scaleFloat (bits : Nat) (d : Int) : Nat :=
  if d % 16 = 0 then f32bits (flMul (f32 bits) (.fin false 1 (d / 16)))
  else f32bits (flMul (f32 bits) (.fin false (2 * root16 (d % 16).toNat 200 + 1) (d / 16 - 201)))

/-! ### Copies (R366, R370, R371) -/

def names (refs : List GroupRef) (kind target : Nat) : Bool := refs.any (fun r => r.kind == kind && r.target == target)

/-- Sum of the groups' d over those whose references by `side` name a target. -/
def dSum (gs : List ScaleGroup) (side : ScaleGroup → List GroupRef) (kind target : Nat) : Int :=
  sumOfInt ((gs.filter (fun g => names (side g) kind target)).map (·.d))

/-- e of a block: the sum of its terms as a producer's and as a consumer's block. -/
def blockE (gs : List ScaleGroup) (o : Nat) : Int := dSum gs (·.consumers) 0 o - dSum gs (·.producers) 0 o

/-- One channel entry of a block rewritten. -/
def rewriteChannel (consts : List Byte) (o : Nat) (e d : Int) (c : List Byte) (k : Nat) : List Byte :=
  let a := o + 16 + 16 * k
  let r := rescaleMult (rd consts (a + 4) 4) (rdS consts (a + 8) 1) e
  putAt c a (leS 4 (divideByK (rdS consts a 4) d) ++ le 4 r.1 ++ leS 1 r.2)

/-- A block rewritten from its compiled values. -/
def rewriteBlock (consts : List Byte) (gs : List ScaleGroup) (c : List Byte) (o : Nat) : List Byte :=
  let d := dSum gs (·.consumers) 0 o
  let c := (List.range (rd consts (o + 4) 2)).foldl (rewriteChannel consts o (blockE gs o) d) c
  putAt c (o + 8) (le 4 (scaleFloat (rd consts (o + 8) 4) (d + dSum gs (·.producers) 0 o)))

/-- A consumer curve rewritten: BREAK and OFFSET, not SLOPE. -/
def rewriteCurve (consts : List Byte) (gs : List ScaleGroup) (c : List Byte) (o : Nat) : List Byte :=
  let d := dSum gs (·.consumers) 1 o
  (List.range 64).foldl (fun c i =>
    let a := o + 16 * i
    let c := putAt c a (leS 4 (divideByK (rdS consts a 4) d))
    putAt c (a + 8) (leS 4 (divideByK (rdS consts (a + 8) 4) d))) c

def targetsOf (gs : List ScaleGroup) (kind : Nat) : List Nat :=
  (((gs.flatMap (fun g => g.producers ++ g.consumers)).filter (fun r => r.kind == kind)).map (·.target)).eraseDups

/-- The region 0 that the current epoch serves. -/
def currentConsts (consts : List Byte) (size : Nat) (gs : List ScaleGroup) : List Byte :=
  if gs.all (fun g => g.d == 0) then consts
  else
    let c := (targetsOf gs 0).foldl (rewriteBlock consts gs) (fit (max size consts.length) consts)
    (targetsOf gs 1).foldl (rewriteCurve consts gs) c

/-- The image a frame of the current epoch uses: its constants and its heads' scales (R366). -/
def Model.current (m : Model) : Option ModelImage :=
  m.image.map (fun i => { i with
    consts := currentConsts i.consts i.constBytes m.groups,
    heads := i.heads.zipIdx.map (fun (h, k) =>
      let d := dSum m.groups (·.consumers) 2 k
      if d = 0 then h else { h with scale := BitVec.ofNat 32 (scaleFloat h.scale.toNat d) }) })

/-! ### The window (R361, R362) -/

/-- A group with the counters of its producers' blocks added. -/
def ScaleGroup.add (g : ScaleGroup) (stats : List BlockStat) : ScaleGroup :=
  let mine := stats.filter (fun b => g.producers.any (fun r => r.tile == b.tile && r.target == b.offset))
  { g with total := g.total + sumOf (mine.map (·.total)), clip := g.clip + sumOf (mine.map (·.clip)),
           peakHi := g.peakHi + sumOf (mine.map (·.peakHi)), peakLo := g.peakLo + sumOf (mine.map (·.peakLo)),
           accSat := g.accSat + sumOf (mine.map (·.accSat)) }

def ScaleGroup.clear (g : ScaleGroup) : ScaleGroup := { g with total := 0, clip := 0, peakHi := 0, peakLo := 0, accSat := 0 }

/-- At a commit: the counters of the commit before join the window, if one is gathered (R374). -/
def Model.settle (m : Model) : Model :=
  { m with groups := if m.policy.mode == 1 then m.groups.map (fun g => g.add m.fresh) else m.groups, fresh := [] }

/-- R362, R374: a frame's counters, committed with its T+2 under quantization epoch `q`. -/
def Model.gather (m : Model) (q : Nat) (stats : List BlockStat) : Model :=
  if m.policy.mode == 1 && q == m.qepoch then { m with fresh := m.fresh ++ stats } else m

/-! ### The retune rule (R369) -/

/-- ZO of a group's tensor. -/
def groupZo (consts : List Byte) (g : ScaleGroup) : Int :=
  match g.producers with
  | r :: _ => rdS consts (r.target + 1) 1
  | [] => 0

/-- Every rewritten shift of a group's blocks lies in -15 to 32. -/
def shiftsOk (consts : List Byte) (gs : List ScaleGroup) (g : ScaleGroup) : Bool :=
  (((g.producers ++ g.consumers).filter (fun r => r.kind == 0)).map (·.target)).all (fun o =>
    (List.range (rd consts (o + 4) 2)).all (fun k =>
      let a := o + 16 + 16 * k
      let sh := (rescaleMult (rd consts (a + 4) 4) (rdS consts (a + 8) 1) (blockE gs o)).2
      decide (-15 ≤ sh) && decide (sh ≤ 32)))

/-- A group's candidate: its number, wanted d, whether it increases, share and peak. -/
structure Candidate where
  group : Nat
  want : Int
  up : Bool
  share : Nat
  peak : Nat
  deriving DecidableEq, Repr

def candidateOf (p : CalPolicy) (consts : List Byte) (gs : List ScaleGroup) (g : ScaleGroup) (k : Nat) : Option Candidate :=
  if g.total < p.minSamples || g.total = 0 then none
  else
    let zo := groupZo consts g
    let share := g.clip * 65536 / g.total
    let hi := if zo < 127 then g.peakHi * 256 / (127 - zo).toNat else 0
    let lo := if -128 < zo then g.peakLo * 256 / (zo + 128).toNat else 0
    let peak := max hi lo
    let up := decide (p.clipHigh < share)
    let down := decide (share < p.clipLow) && decide (peak < p.headroom)
    let want := if up then min (g.d + min p.maxStep (bitlen (share / max 1 p.clipHigh))) p.dMax
                else max (g.d - 1) p.dMin
    if (up || down) && want != g.d && shiftsOk consts (gs.set k { g with d := want }) g then
      some { group := k, want := want, up := up, share := share, peak := peak }
    else none

/-- The order of R369. -/
def candidateBefore (a b : Candidate) : Bool :=
  if a.up != b.up then a.up
  else if a.up then (if a.share != b.share then decide (b.share < a.share) else decide (a.group < b.group))
  else (if a.peak != b.peak then decide (a.peak < b.peak) else decide (a.group < b.group))

/-- The groups a model retunes at commit c: at most 8. -/
def Model.candidates (m : Model) (c : Nat) : List Candidate :=
  match m.image with
  | some i =>
    if m.policy.mode != 1 || c < m.windowStart + m.policy.interval then []
    else (sortBy candidateBefore ((m.groups.zipIdx).filterMap (fun (g, k) => candidateOf m.policy i.consts m.groups g k))).take 8
  | none => []

/-- R373: the event's DETAIL. -/
def retuneDetail (id count cause qepoch : Nat) (changes : List Candidate) : List Byte :=
  le 1 id ++ le 1 count ++ le 1 cause ++ le 1 0 ++ le 4 qepoch ++
    (List.range 8).flatMap (fun k => match changes[k]? with
      | some c => le 1 c.group ++ leS 1 c.want
      | none => le 1 0xFF ++ le 1 0)

/-- R369, R372: a retune. -/
def Model.retune (m : Model) (c : Nat) (cs : List Candidate) : Model :=
  { m with
    groups := (m.groups.zipIdx).map (fun (g, k) => match cs.find? (fun x => x.group == k) with
      | some x => { g.clear with d := x.want }
      | none => g.clear),
    fresh := [], qepoch := m.qepoch + 1, windowStart := c }

/-- R369, R372, R373: one model is evaluated at the current commit. -/
def State.retuneModel (s : State) (fn : Fn) (id : Nat) : State :=
  match s.model? fn id with
  | some m =>
    let cs := m.candidates s.clk.tick
    if cs.isEmpty then s
    else
      let m' := m.retune s.clk.tick cs
      (s.modModel fn m.id (fun _ => m')).raise fn 0x0202 (retuneDetail m.id cs.length 0 m'.qepoch cs)
  | none => s

/-- R70, step 5: the models whose evaluation a QUANT_RETUNE step has brought to this commit. -/
def State.takeRetunes (s : State) : State :=
  s.work.retunes.foldl (fun s r => s.retuneModel r.1 r.2) (s.withWork { s.work with retunes := [] })

/-- QUANT_RETUNE (R369): the coming commit evaluates the model among its firmware decisions (notes/assumptions/1.md). -/
def execQuantRetune (i : ModelRef) (s : State) : Out :=
  .next (if !s.isReady || (s.image? i.fn i.model.toNat).isNone then s
    else s.withWork { s.work with retunes := s.work.retunes ++ [(i.fn, i.model.toNat)] })

/-! ### CALIBRATION_POLICY (R367, R368) -/

def policyOf (p : CalibrationP) : CalPolicy :=
  { mode := if p.mode == 1 then 1 else 0, maxStep := p.maxStep.toNat, dMin := toSigned 8 p.dMin.toNat,
    dMax := toSigned 8 p.dMax.toNat, clipHigh := p.clipHigh.toNat, clipLow := p.clipLow.toNat, headroom := p.headroom.toNat,
    interval := p.interval.toNat, minSamples := p.minSamples.toNat }

def applyCalibration (h : CmdHead) (p : CalibrationP) : CmdEffect := fun s =>
  match s.model? h.fn p.model.toNat with
  | some m =>
    if m.image.isNone then refuse s .notFound
    else
      let moved := (m.groups.filter (fun g => g.d != 0)).length
      let reset := p.mode == 2 && moved != 0
      let m' : Model := { m with
        policy := policyOf p, windowStart := s.clk.tick,
        groups := m.groups.map (fun g => if p.mode == 2 then { g.clear with d := 0 } else g.clear),
        fresh := [], qepoch := if reset then m.qepoch + 1 else m.qepoch }
      let s := s.modModel h.fn m.id (fun _ => m')
      (if reset then s.raise h.fn 0x0202 (retuneDetail m.id moved 1 m'.qepoch []) else s, some ok)
  | none => refuse s .notFound

/-- CALIBRATION_POLICY. -/
def execCalibrationPolicy (h : CmdHead) (p : CalibrationP) (s : State) : Out :=
  s.ringRow h (.calibrationPolicy p) (applyCalibration h p)

end Sys2Proof.Machine
end

