-- ==== Sys2Proof/Machine/Post.lean ====
section
/-! DEFINITION. The post engine (11_detections_records.md, R377-R393 without tracking): box decode, scores, candidates,
suppression, zone summaries, second-stage attributes and geometry. -/

namespace Sys2Proof.Machine

/-! ### Box decode (R377, Table 11.2) -/

/-- SCALE × (q - ZERO_POINT) of a tensor byte. -/
def headValue (h : HeadDesc) (tensor : List Byte) (off : Nat) : Fl :=
  mulF (f32 h.scale.toNat) (flOfInt (rdS tensor off 1 - h.zeroPoint))

/-- Byte offset of a cell's anchor. -/
def anchorBase (h : HeadDesc) (gx gy a : Nat) : Nat :=
  (gy * h.gridW + gx) * h.pixelStride + a * (4 + boolNat h.objectness + h.classes)

/-- The corners (x0, y0, x1, y1) of one cell's anchor, in tensor pixels. -/
def decodeBox (h : HeadDesc) (consts tensor : List Byte) (gx gy a : Nat) : Fl × Fl × Fl × Fl :=
  let b := anchorBase h gx gy a
  let t (k : Nat) : Fl := headValue h tensor (b + k)
  let s := f32 h.stride.toNat
  let x := flOfInt gx
  let y := flOfInt gy
  let mid (v : Fl) : Fl := mulF (addF v flHalf) s
  let span (c w : Fl) : Fl × Fl := (subF c (mulF w flHalf), addF c (mulF w flHalf))
  if h.kind = 0 then
    let aw := f32 (rd consts (h.anchorOffset + 8 * a) 4)
    let ah := f32 (rd consts (h.anchorOffset + 8 * a + 4) 4)
    let xs := span (addF (mid x) (mulF (t 0) aw)) (mulF aw (expF (t 2)))
    let ys := span (addF (mid y) (mulF (t 1) ah)) (mulF ah (expF (t 3)))
    (xs.1, ys.1, xs.2, ys.2)
  else if h.kind = 1 then
    let xs := span (mulF (addF x (t 0)) s) (mulF (t 2) s)
    let ys := span (mulF (addF y (t 1)) s) (mulF (t 3) s)
    (xs.1, ys.1, xs.2, ys.2)
  else
    (subF (mid x) (mulF (t 0) s), subF (mid y) (mulF (t 1) s), addF (mid x) (mulF (t 2) s), addF (mid y) (mulF (t 3) s))

def isFinite (x : Fl) : Bool :=
  match x with
  | .nan => false
  | .inf _ => false
  | .fin _ _ _ => true

/-- R294, R377: a tensor coordinate in the picture, in 1/16 pixel, before clipping. -/
def toPicture (x : Fl) (o : Int) (scale : Nat) : Int :=
  flToIntUp (round64 (flMul (round64 (flSub x (.fin (decide (o < 0)) o.natAbs (-16)))) (.fin false scale (-16)))) 4

/-- R294: mapped and clipped to the cropped picture. -/
def mapX (m : TensorMap) (x : Fl) : Nat := (max 0 (min ((16 * m.width : Nat) : Int) (toPicture x m.ox m.sx))).toNat
def mapY (m : TensorMap) (y : Fl) : Nat := (max 0 (min ((16 * m.height : Nat) : Int) (toPicture y m.oy m.sy))).toNat

/-! ### Scores (R379) -/

/-- A real score encoded in Q0.16. -/
def encodeScore (x : Fl) : Nat := (max 0 (min 65535 (flToIntUp x 16))).toNat

def squash (h : HeadDesc) (x : Fl) : Fl := if h.sigmoid then logisticF x else x

/-- The encoded score of a class whose channel and objectness channel lie at these offsets. -/
def classScore (h : HeadDesc) (tensor : List Byte) (obj cls : Nat) : Nat :=
  let v := squash h (headValue h tensor cls)
  encodeScore (if h.objectness then mulF v (squash h (headValue h tensor obj)) else v)

/-! ### Candidates and suppression (R380, R381) -/

/-- A candidate or a kept detection before tracking. -/
structure Cand where
  head : Nat
  index : Nat
  cls : Nat
  score : Nat
  box : Box
  deriving DecidableEq, Repr, Inhabited

/-- The candidates of one cell's anchor. -/
def anchorCands (k : Nat) (h : HeadDesc) (consts tensor : List Byte) (m : TensorMap) (gx gy a : Nat) : List Cand :=
  let b := anchorBase h gx gy a
  let c := decodeBox h consts tensor gx gy a
  let box : Box := { x0 := mapX m c.1, y0 := mapY m c.2.1, x1 := mapX m c.2.2.1, y1 := mapY m c.2.2.2 }
  if isFinite c.1 && isFinite c.2.1 && isFinite c.2.2.1 && isFinite c.2.2.2 && box.x0 < box.x1 && box.y0 < box.y1 then
    (List.range h.classes).filterMap (fun cl =>
      let sc := classScore h tensor (b + 4) (b + 4 + boolNat h.objectness + cl)
      if h.scoreThreshold ≤ sc then
        some { head := k, index := ((gy * h.gridW + gx) * h.anchors + a) * h.classes + cl, cls := cl, score := sc, box := box }
      else none)
  else []

def headCands (k : Nat) (h : HeadDesc) (consts tensor : List Byte) (m : TensorMap) : List Cand :=
  if 2 < h.kind then []
  else (List.range h.gridH).flatMap (fun gy => (List.range h.gridW).flatMap (fun gx =>
    (List.range h.anchors).flatMap (fun a => anchorCands k h consts tensor m gx gy a)))

/-- Descending score, ties to the lower head and index. -/
def candBefore (a b : Cand) : Bool :=
  if a.score != b.score then decide (b.score < a.score)
  else if a.head != b.head then decide (a.head < b.head) else decide (a.index < b.index)

/-- R380: the candidates of a frame, at most 16,384. -/
def frameCands (heads : List HeadDesc) (consts : List Byte) (tensors : List (List Byte)) (m : TensorMap) : List Cand :=
  (sortBy candBefore ((heads.zipIdx).flatMap (fun (h, k) => headCands k h consts (nth [] tensors k) m))).take 16384

def Box.area (b : Box) : Nat := (b.x1 - b.x0) * (b.y1 - b.y0)

def Box.inter (a b : Box) : Nat := (min a.x1 b.x1 - max a.x0 b.x0) * (min a.y1 b.y1 - max a.y0 b.y0)

def Box.union (a b : Box) : Nat := a.area + b.area - a.inter b

/-- Intersection over union is above a Q0.16 limit, exactly. -/
def overlaps (a b : Box) (limit : Nat) : Bool := decide (limit * a.union b < a.inter b * 65536)

/-- R381: greedy class-aware suppression of candidates in order, keeping at most `left` more. -/
def suppress (limit : Nat) : Nat → List Cand → List Cand → List Cand
  | _, [], kept => kept
  | left, c :: cs, kept =>
    if kept.length < left then
      if kept.any (fun k => k.cls == c.cls && overlaps k.box c.box limit) then suppress limit left cs kept
      else suppress limit left cs (kept ++ [c])
    else kept

/-- The kept detections of one head, by descending score. -/
def keptOf (heads : List HeadDesc) (cands : List Cand) (k : Nat) : List Cand :=
  match heads[k]? with
  | some h => suppress h.nmsIou h.topK (cands.filter (fun c => c.head == k)) []
  | none => []

/-! ### Geometry of zones and lines (R388, R389) -/

/-- R388: the edge (i, j) counts for the point. -/
def edgeCounts (px py : Int) (i j : Nat × Nat) : Bool :=
  let xi : Int := i.1
  let yi : Int := i.2
  let xj : Int := j.1
  let yj : Int := j.2
  let above (y : Int) : Bool := decide (py < y)
  above yi != above yj &&
    (if 0 < yj - yi then decide ((px - xi) * (yj - yi) < (py - yi) * (xj - xi))
     else decide ((py - yi) * (xj - xi) < (px - xi) * (yj - yi)))

/-- Even-odd rule. -/
def inPolygon (vs : List (Nat × Nat)) (px py : Int) : Bool :=
  let n := vs.length
  ((List.range n).filter (fun k => edgeCounts px py (nth (0, 0) vs k) (nth (0, 0) vs ((k + 1) % max 1 n)))).length % 2 == 1

/-- R388: REF 0 bottom centre, 1 centre. -/
def refPoint (ref : Nat) (b : Box) : Int × Int :=
  (((b.x0 + b.x1) / 2 : Nat), if ref = 0 then (b.y1 : Int) else ((b.y0 + b.y1) / 2 : Nat))

def inZone (z : Zone) (b : Box) : Bool :=
  let p := refPoint z.ref b
  inPolygon z.vertices p.1 p.2

/-- Zones whose reference point of the box is inside. -/
def zonesOf (zs : List Zone) (b : Box) : List Nat := (zs.zipIdx.filter (fun (z, _) => inZone z b)).map (·.2)

/-- (B - A) × (P - A). -/
def lineSide (l : Line) (p : Int × Int) : Int :=
  ((l.bx : Int) - l.ax) * (p.2 - l.ay) - ((l.nby : Int) - l.ay) * (p.1 - l.ax)

/-- R389: 1 for a positive crossing, -1 for a negative one, 0 for none. -/
def crossing (l : Line) (p q : Int × Int) : Int :=
  let sp := lineSide l p
  let sq := lineSide l q
  let pos (s : Int) : Bool := decide (0 < s)
  if pos sp == pos sq then 0
  else
    -- the movement meets the line at A + t (B - A) with t = num / den
    let dx : Int := (l.bx : Int) - l.ax
    let dy : Int := (l.nby : Int) - l.ay
    let mx := q.1 - p.1
    let my := q.2 - p.2
    let den := dx * my - dy * mx
    let num := (p.1 - l.ax) * my - (p.2 - l.ay) * mx
    let on := if 0 < den then decide (0 ≤ num) && decide (num ≤ den) else decide (den ≤ num) && decide (num ≤ 0)
    if den != 0 && on then (if pos sq then 1 else -1) else 0

/-! ### Zone summaries (R382, R400) -/

/-- The class with the greatest signed byte among `n` channels, ties to the lower class. -/
def argmaxBytes (tensor : List Byte) (base n : Nat) : Nat :=
  (List.range n).foldl (fun best c => if rdS tensor (base + best) 1 < rdS tensor (base + c) 1 then c else best) 0

/-- R400: a share in Q0.16. -/
def shareOf (count cells : Nat) : Nat := if cells = 0 then 0 else min 65535 (count * 65536 / cells)

/-- R382: the summary of one argmax head over one zone. -/
def zoneSummary (k z : Nat) (h : HeadDesc) (tensor : List Byte) (m : TensorMap) (zone : Zone) : Summary :=
  let s := f32 h.stride.toNat
  let cells := (List.range h.gridH).flatMap (fun (gy : Nat) => (List.range h.gridW).filterMap (fun (gx : Nat) =>
    let x := mapX m (mulF (addF (flOfInt gx) flHalf) s)
    let y := mapY m (mulF (addF (flOfInt gy) flHalf) s)
    if inPolygon zone.vertices x y then some (argmaxBytes tensor ((gy * h.gridW + gx) * h.pixelStride) h.classes)
    else none))
  { head := k, zone := z, cells := cells.length,
    shares := (List.range 12).map (fun c => shareOf (cells.filter (· == c)).length cells.length) }

def summariesOf (heads : List HeadDesc) (tensors : List (List Byte)) (m : TensorMap) (zs : List Zone) : List Summary :=
  heads.zipIdx.flatMap (fun (h, k) => if h.kind = 3 then
    zs.zipIdx.map (fun (z, i) => zoneSummary k i h (nth [] tensors k) m z) else [])

/-! ### Second stages (R296-R298, R383) -/

/-- R383: class and encoded score of a KIND 4 head. -/
def attrOf (h : HeadDesc) (tensor : List Byte) : Nat × Nat :=
  let c := argmaxBytes tensor 0 h.classes
  (c, classScore { h with flags := h.flags - h.flags % 2 } tensor 0 c)

/-- The KIND 4 head of a second-stage image. -/
def classifyHead (i : ModelImage) : Option (HeadDesc × Nat) := (i.heads.zipIdx).find? (fun (h, _) => h.kind == 4)

/-- R296-R298: the boxes a second-stage entry takes: the source head's kept detections, highest score first, at most
MAX_BOXES of them, none too small. -/
def stageBoxes (kept : List Cand) (b : BindEntry) (w h : Nat) : List Cand :=
  ((kept.filter (fun c => c.head == b.sourceHead)).take b.maxBoxes).filter (fun c => cropUsable c.box w h)

/-- T+2 of a second stage: the run on each of its boxes, with the box's candidate. -/
def runStage (b : BindEntry) (i : ModelImage) (t0 : Nat) (pic : Picture) (kept : List Cand) : List (Nat × ModelRun) :=
  ((stageBoxes kept b pic.width pic.height).zipIdx).map (fun (c, k) =>
    (c.index, runModel b.model i t0 (k + 1) (cropTensor i.input pic c.box)))

/-- What T+2 of a frame leaves: its output tensors, its counters, and what tile SRAM receives, by the place of the tile in the frame's
plan (R351). -/
structure InferOut where
  outputs : List (Nat × List Byte)
  stats : List BlockStat
  srams : List (Nat × JobMem)
  deriving DecidableEq, Repr

/-- The first place, in the tiles that a frame's plan lists job by job, of the jobs of a binding entry: one run for the primary model,
MAX_BOXES for a second stage. -/
def EpochVector.tilesBefore (ev : EpochVector) (entry : Nat) : Nat :=
  sumOf ((ev.binding.take entry).map (fun b =>
    ((ev.images.find? (fun x => x.1 == b.model)).map (fun x => x.2.tiles * if b.role = 0 then 1 else b.maxBoxes)).getD 0))

/-- The tile SRAM of one run, by place, from the run's first place. -/
def ModelRun.places (r : ModelRun) (first : Nat) : List (Nat × JobMem) := r.srams.zipIdx.map (fun (m, t) => (first + t, m))

/-- Key of a primary head's tensor in `Frame.outputs`. -/
def primaryKey (k : Nat) : Nat := k

/-- Key of the classify tensor of a second-stage entry's box (R383). -/
def stageKey (entry index : Nat) : Nat := 16 + 4 * index + entry

/-- Box decode, suppression: the kept detections of every box head of the primary model. -/
def keptAll (i : ModelImage) (tensors : List (List Byte)) (m : TensorMap) : List Cand :=
  let cands := frameCands i.heads i.consts tensors m
  (List.range i.heads.length).flatMap (keptOf i.heads cands)

/-- T+2 of a frame (R296, R351): the tensors it leaves and its counters. -/
def inferFrame (ev : EpochVector) (t0 : Nat) (pic : Picture) (m : TensorMap) (input : List Byte) : InferOut :=
  let imageOf (id : Nat) : Option ModelImage := (ev.images.find? (fun x => x.1 == id)).map (·.2)
  match ev.binding.head?.bind (fun b => (imageOf b.model).map (fun i => (b.model, i))) with
  | none => { outputs := [], stats := [], srams := [] }
  | some (id, i) =>
    let r := runModel id i t0 0 input
    let kept := keptAll i r.tensors m
    let stages := (ev.binding.zipIdx).filterMap (fun (b, e) =>
      if b.role == 1 then (imageOf b.model).map (fun si => (e, si, runStage b si t0 pic kept)) else none)
    { outputs := r.tensors.zipIdx.map (fun (t, k) => (primaryKey k, t)) ++
        stages.flatMap (fun (e, si, runs) => runs.filterMap (fun (idx, q) =>
          (classifyHead si).map (fun (_, k) => (stageKey e idx, nth [] q.tensors k)))),
      stats := r.stats ++ stages.flatMap (fun (_, _, runs) => runs.flatMap (·.2.stats)),
      srams := r.places 0 ++ stages.flatMap (fun (e, si, runs) => runs.zipIdx.flatMap (fun (q, k) =>
        q.2.places (ev.tilesBefore e + k * si.tiles))) }

/-- ATTR_CLASS, ATTR_SCORE and NO_ATTR of a kept detection (R297, R383): the lowest entry that takes its head supplies them, or none
does. -/
def attributes (ev : EpochVector) (outputs : List (Nat × List Byte)) (c : Cand) : Nat × Nat × Bool :=
  let entry := (ev.binding.zipIdx).find? (fun (b, _) => b.role == 1 && b.sourceHead == c.head)
  let result := entry.bind (fun (b, e) =>
    match (ev.images.find? (fun x => x.1 == b.model)).bind (fun x => classifyHead x.2),
        outputs.find? (fun o => o.1 == stageKey e c.index) with
    | some (h, _), some o => some (attrOf h o.2)
    | _, _ => none)
  match result with
  | some r => (r.1, r.2, false)
  | none => (0xFFFF, 0, entry.isSome)

end Sys2Proof.Machine
end

