-- ==== Sys2Proof/Machine/Track.lean ====
section
/-! DEFINITION. Tracking, zones, lines and event rules of a frame at T+3 (11_detections_records.md, R384-R392, R660), and the
box motion and velocities it takes from the motion field (08_vision_motion.md, R310, R311). -/

namespace Sys2Proof.Machine

/-- What T+3 of a frame reads beside the committed tracker and the kept detections. -/
structure TrackIn where
  heads : List HeadDesc
  zones : List Zone
  lines : List Line
  rules : List RuleRow
  frameRate : Nat
  seq : Nat
  t0 : Nat
  capture : Option Nat
  field : Option Field
  conceal : List Bool
  width : Nat
  /-- Track entries the stream may hold (R386). -/
  room : Nat
  deriving DecidableEq, Repr

/-! ### Box motion and velocity (R310, R311) -/

def Box.track (b : Box) : TrackBox := { x0 := b.x0, y0 := b.y0, x1 := b.x1, y1 := b.y1 }

/-- The centre of block k of a field lies inside a box. -/
def centreIn (b : TrackBox) (cols k : Nat) : Bool :=
  let x : Int := (128 * (k % max 1 cols) + 64 : Nat)
  let y : Int := (128 * (k / max 1 cols) + 64 : Nat)
  decide (b.x0 ≤ x) && decide (x < b.x1) && decide (b.y0 ≤ y) && decide (y < b.y1)

/-- The entries that qualify for a box. -/
def qualifying (f : Field) (b : TrackBox) : List FieldVec :=
  ((f.vecs.zipIdx).filter (fun (v, k) => v.valid && !v.concealed && decide (v.cost < 255) && centreIn b f.columns k)).map (·.1)

/-- The value at position ⌊(n - 1) / 2⌋ in ascending order. -/
def lowerMedian (xs : List Int) : Int := nth 0 (sortBy (fun a b => decide (a < b)) xs) ((xs.length - 1) / 2)

/-- R310: the median motion of a box in 1/4 pixel, none with fewer than 2 entries. -/
def boxMotion (f : Option Field) (b : TrackBox) : Option (Int × Int) :=
  match f with
  | some f =>
    let q := qualifying f b
    if q.length < 2 then none else some (lowerMedian (q.map (·.dx)), lowerMedian (q.map (·.dy)))
  | none => none

/-- Δt between two frames in ns when both capture times are known and it is at least P / 4 (R310, R311); P is
10^12 / FRAME_RATE ns. -/
def captureStep (rate : Nat) (now before : Option Nat) : Option Nat :=
  match now, before with
  | some a, some b => if b ≤ a && 10 ^ 12 ≤ 4 * (a - b) * rate then some (a - b) else none
  | _, _ => none

/-- R311: one component of a velocity from a median. -/
def velocityOf (i : TrackIn) (m : Int) : Int :=
  match captureStep i.frameRate i.capture (i.field.bind (·.refCapture)) with
  | some dt => satS 16 (divRoundAway (16 * m * 10 ^ 12) (i.frameRate * dt))
  | none => satS 16 (divRoundAway (16 * m) (max 1 ((i.field.map (·.interval)).getD 1)))

/-- R310: the move of a box, in 1/16 pixel, by a velocity since the frame that set it. -/
def coast (i : TrackIn) (t : Track) (v : Int) : Int :=
  match captureStep i.frameRate i.capture t.lastCapture with
  | some dt => divRoundAway (v * dt * i.frameRate) (4 * 10 ^ 12)
  | none => divRoundAway (v * ((i.seq - t.lastSeq : Nat) : Int)) 4

def TrackBox.shift (b : TrackBox) (dx dy : Int) : TrackBox :=
  { x0 := b.x0 + dx, y0 := b.y0 + dy, x1 := b.x1 + dx, y1 := b.y1 + dy }

/-- A track with its predicted box and its velocity at this frame; `measured` says that the field gave them. -/
structure Predicted where
  track : Track
  box : TrackBox
  velocity : Int × Int
  measured : Bool
  deriving DecidableEq, Repr

def predict (i : TrackIn) (t : Track) : Predicted :=
  match boxMotion i.field t.box with
  | some (mx, my) => { track := t, box := t.box.shift (4 * mx) (4 * my), velocity := (velocityOf i mx, velocityOf i my),
                       measured := true }
  | none => { track := t, box := t.box.shift (coast i t t.velocity.1) (coast i t t.velocity.2), velocity := t.velocity,
              measured := false }

/-- R387: the velocity of a detection that has no track from an earlier frame; whether it was measured. -/
def ownVelocity (i : TrackIn) (b : Box) : (Int × Int) × Bool :=
  match boxMotion i.field b.track with
  | some (mx, my) => ((velocityOf i mx, velocityOf i my), true)
  | none => ((0, 0), false)

/-! ### Association (R384) -/

def TrackBox.area (b : TrackBox) : Nat := ((b.x1 - b.x0) * (b.y1 - b.y0)).toNat

def TrackBox.inter (a b : TrackBox) : Nat :=
  (min a.x1 b.x1 - max a.x0 b.x0).toNat * (min a.y1 b.y1 - max a.y0 b.y0).toNat

def TrackBox.union (a b : TrackBox) : Nat := a.area + b.area - a.inter b

/-- A pair of a track and a detection: their positions, the exact overlap as a fraction, and what ties go by. -/
structure Pairing where
  track : Nat
  det : Nat
  inter : Nat
  union : Nat
  score : Nat
  id : Nat
  index : Nat
  deriving DecidableEq, Repr

/-- Descending overlap; ties to the higher score, the lower track ID, the lower detection index. -/
def pairingBefore (a b : Pairing) : Bool :=
  if a.inter * b.union != b.inter * a.union then decide (b.inter * a.union < a.inter * b.union)
  else if a.score != b.score then decide (b.score < a.score)
  else if a.id != b.id then decide (a.id < b.id) else decide (a.index < b.index)

def pairingsOf (heads : List HeadDesc) (ps : List Predicted) (dets : List Cand) : List Pairing :=
  ps.zipIdx.flatMap (fun (p, i) => dets.zipIdx.filterMap (fun (d, j) =>
    match heads[d.head]? with
    | some h =>
      let x := p.box.inter d.box.track
      let u := p.box.union d.box.track
      let limit := if p.track.state == .tentative then h.iouStart else h.iouKeep
      if h.track && p.track.head == d.head && p.track.cls == d.cls && limit * u ≤ x * 65536 then
        some { track := i, det := j, inter := x, union := u, score := d.score, id := p.track.id, index := d.index }
      else none
    | none => none))

/-- Greedy choice: each track and each detection at most once. -/
def pickPairs : List Pairing → List (Nat × Nat) → List (Nat × Nat)
  | [], chosen => chosen
  | p :: ps, chosen =>
    if chosen.any (fun c => c.1 == p.track || c.2 == p.det) then pickPairs ps chosen
    else pickPairs ps (chosen ++ [(p.track, p.det)])

/-! ### Track states (R385, Table 11.3) -/

/-- R391: at confirmation every state is 0, entered at this T+0, and the track counts as outside every zone before. -/
def Track.confirm (t : Track) (t0 : Nat) : Track :=
  { t with state := .confirmed, misses := 0, inside := [],
           states := (List.range 24).map (fun k => { target := k, st := 0, since := t0 }) }

/-- A matched track takes the detection's box. -/
def Track.matched (t : Track) (i : TrackIn) (h : HeadDesc) (b : Box) : Track :=
  let t := { t with box := b.track, lastSeq := i.seq, lastCapture := i.capture }
  match t.state with
  | .tentative =>
    let t := { t with hits := t.hits + 1 }
    if h.confirmHits ≤ t.hits then t.confirm i.t0 else t
  | .confirmed => t
  | .lost => { t with state := .confirmed, misses := 0 }

/-- R388: REF 0 bottom centre, 1 centre, of a track's box. -/
def trackPoint (ref : Nat) (b : TrackBox) : Int × Int :=
  ((b.x0 + b.x1) / 2, if ref = 0 then b.y1 else (b.y0 + b.y1) / 2)

/-- The zones that hold the reference point of a track's box. -/
def trackZones (zs : List Zone) (b : TrackBox) : List Nat :=
  (zs.zipIdx.filter (fun (z, _) => inPolygon z.vertices (trackPoint z.ref b).1 (trackPoint z.ref b).2)).map (·.2)

/-- An unmatched track: none when it is deleted. Where its predicted box lies is what the next frame calls the previous one (R391). -/
def Predicted.unmatched (p : Predicted) (i : TrackIn) (h : HeadDesc) : Option Track :=
  let t := { p.track with box := p.box, velocity := p.velocity, lastSeq := i.seq, lastCapture := i.capture, state := .lost,
                          inside := trackZones i.zones p.box }
  match p.track.state with
  | .tentative => none
  | .confirmed => some { t with misses := 1 }
  | .lost => if h.deleteMisses ≤ p.track.misses + 1 then none else some { t with misses := p.track.misses + 1 }

/-! ### Track IDs (R387) -/

/-- The first ID from `id` on that is not in use; after 0xFFFFFFFE the count continues from 1. -/
def freeTrackId (used : Nat → Bool) : Nat → Nat → Nat
  | 0, id => id
  | fuel + 1, id => if 0xFFFFFFFE < id then freeTrackId used fuel 1 else if used id then freeTrackId used fuel (id + 1) else id

/-! ### A detection's track at this frame -/

/-- What a detection carries of its track: ID, state code, velocity, whether measured, UNTRACKED, and the box its track had
before. -/
structure DetTrack where
  id : Nat
  stateCode : Nat
  velocity : Int × Int
  measured : Bool
  untracked : Bool
  before : Option TrackBox
  deriving DecidableEq, Repr

/-- TRACK_STATE of Table 11.7. -/
def trackStateCode : TrackState → Nat
  | .tentative => 0
  | .confirmed => 1
  | .lost => 1

/-- The new track a detection starts. -/
def newTrack (i : TrackIn) (h : HeadDesc) (d : Cand) (id : Nat) (v : Int × Int) : Track :=
  let t : Track := { head := d.head, id := id, cls := d.cls, state := .tentative, hits := 1, misses := 0, box := d.box.track,
                     velocity := v, lastSeq := i.seq, lastCapture := i.capture, states := [], inside := [] }
  if h.confirmHits ≤ 1 then t.confirm i.t0 else t

/-- R385-R387: one unmatched detection: the tracks and next ID after it, and what it carries. -/
def startTrack (i : TrackIn) (tr : Tracker) (d : Cand) : Tracker × DetTrack :=
  let v := ownVelocity i d.box
  let none' : DetTrack := { id := 0, stateCode := 0xFF, velocity := v.1, measured := v.2, untracked := false, before := none }
  match i.heads[d.head]? with
  | some h =>
    if !h.track || d.score < h.startScore then (tr, none')
    else if i.room ≤ tr.tracks.length then (tr, { none' with id := 0xFFFFFFFF, untracked := true })
    else
      let id := freeTrackId (fun k => tr.tracks.any (fun t => t.id == k)) (tr.tracks.length + 2) tr.nextId
      let t := newTrack i h d id v.1
      ({ tracks := tr.tracks ++ [t], nextId := id + 1 },
       { none' with id := id, stateCode := trackStateCode t.state })
  | none => (tr, none')

/-- Starts tracks from the unmatched detections, in descending score, then head, then index. -/
def startTracks (i : TrackIn) (tr : Tracker) : List (Cand × Nat) → List (Nat × DetTrack) → Tracker × List (Nat × DetTrack)
  | [], out => (tr, out)
  | (d, j) :: ds, out =>
    let r := startTrack i tr d
    startTracks i r.1 ds (out ++ [(j, r.2)])

/-- R384, R385, R660: the tracker after a frame, and what each detection carries, by its position. -/
def associate (i : TrackIn) (tr : Tracker) (dets : List Cand) : Tracker × List (Nat × DetTrack) :=
  let kept := tr.tracks.filter (fun t => match i.heads[t.head]? with
    | some h => h.track
    | none => false)
  let ps := kept.map (predict i)
  let chosen := pickPairs (sortBy pairingBefore (pairingsOf i.heads ps dets)) []
  let after := ps.zipIdx.filterMap (fun (p, k) => match i.heads[p.track.head]? with
    | some h => match (chosen.find? (fun c => c.1 == k)).bind (fun c => dets[c.2]?) with
      | some d => some { p.track.matched i h d.box with velocity := p.velocity }
      | none => p.unmatched i h
    | none => none)
  let carried := chosen.filterMap (fun (k, j) => match ps[k]?, dets[j]? with
    | some p, some _ => some (j, ({
        id := p.track.id,
        stateCode := match after.find? (fun t => t.id == p.track.id) with
          | some t => trackStateCode t.state
          | none => 0xFF,
        velocity := p.velocity, measured := p.measured, untracked := false, before := some p.track.box } : DetTrack))
    | _, _ => none)
  let free := (dets.zipIdx).filter (fun (_, j) => !chosen.any (fun c => c.2 == j))
  startTracks i { tr with tracks := after } (sortBy (fun a b => candBefore a.1 b.1) free) carried

/-! ### Rules (R389-R392) -/

/-- R389: the lines crossed, with the direction. -/
def crossings (ls : List Line) (before : Option TrackBox) (b : Box) : List (Nat × Int) :=
  match before with
  | some old => ls.zipIdx.filterMap (fun (l, k) =>
      let c := crossing l (trackPoint l.ref old) (trackPoint l.ref b.track)
      if c = 0 then none else some (k, c))
  | none => []

/-- R391: a row's condition on a confirmed, matched track. -/
def conditionHolds (i : TrackIn) (t : Track) (st : TargetState) (now : List Nat) (cross : List (Nat × Int)) (r : RuleRow) :
    Bool :=
  if r.target < 16 then
    match i.zones[r.target]? with
    | some z =>
      let inNow := now.contains r.target
      let inBefore := t.inside.contains r.target
      match r.condition with
      | 0 => inNow && !inBefore
      | 1 => !inNow && inBefore
      | 2 => inNow && decide (r.param ≤ i.t0 - st.since)
      | 4 => inNow && decide ((t.velocity.1 * z.dirX + t.velocity.2 * z.dirY) / 16384 < -(r.param : Int))
      | _ => false
    | none => false
  else
    r.condition == 3 && cross.any (fun c => c.1 == r.target - 16 && c.1 < i.lines.length &&
      (r.param == 0 || (r.param == 1 && decide (0 < c.2)) || (r.param == 2 && decide (c.2 < 0))))

def targetOf (t : Track) (k : Nat) : TargetState :=
  (t.states.find? (fun x => x.target == k)).getD { target := k, st := 0, since := 0 }

/-- R391: the rows in table order; at most one fires per target. The answer holds the rows that fired. -/
def fireRules (i : TrackIn) (now : List Nat) (cross : List (Nat × Int)) :
    List (RuleRow × Nat) → Track → List (RuleRow × Nat) → Track × List (RuleRow × Nat)
  | [], t, fired => (t, fired)
  | (r, k) :: rs, t, fired =>
    let st := targetOf t r.target
    if !fired.any (fun f => f.1.target == r.target) && st.st == r.frm && (r.cls == 0xFFFF || r.cls == t.cls) &&
        conditionHolds i t st now cross r then
      fireRules i now cross rs
        { t with states := updWhere (fun x => x.target == r.target) (fun x => { x with st := r.next, since := i.t0 }) t.states }
        (fired ++ [(r, k)])
    else fireRules i now cross rs t fired

/-- R287: the box meets a set block of the concealment bitmap with an area above 0. -/
def meetsConcealed (conceal : List Bool) (w : Nat) (b : Box) : Bool :=
  let cols := max 1 (ceilDiv w 64)
  (conceal.zipIdx).any (fun (c, k) =>
    let x := 1024 * (k % cols)
    let y := 1024 * (k / cols)
    c && decide (max b.x0 x < min b.x1 (x + 1024)) && decide (max b.y0 y < min b.y1 (y + 1024)))

/-! ### T+3 of a frame -/

/-- What T+3 stages. -/
structure TrackOut where
  tracker : Tracker
  dets : List Detection
  alerts : List AlertNote
  suppressed : Nat
  deriving DecidableEq, Repr

/-- Table 11.7: a detection's entry. -/
def detectionOf (i : TrackIn) (c : Cand) (x : DetTrack) (attr : Nat × Nat × Bool) : Detection :=
  { cls := c.cls, score := c.score, box := c.box, trackId := x.id, vx := x.velocity.1, vy := x.velocity.2,
    zones := sumOf ((zonesOf i.zones c.box).map (2 ^ ·)), head := c.head,
    flags := boolNat (meetsConcealed i.conceal i.width c.box) + 2 * boolNat attr.2.2 + 4 * boolNat (!x.measured) +
      8 * boolNat x.untracked,
    attrClass := attr.1, attrScore := attr.2.1,
    lines := sumOf ((crossings i.lines x.before c.box).map (fun l => 2 ^ l.1)), trackState := x.stateCode, index := c.index }

/-- The rules of one detection's track, when it is confirmed and matched. -/
def ruleStep (i : TrackIn) (acc : Tracker × List AlertNote) (c : Cand) (x : DetTrack) (d : Detection) :
    Tracker × List AlertNote :=
  match acc.1.tracks.find? (fun t => t.id == x.id && x.stateCode != 0xFF) with
  | some t =>
    if t.state == .confirmed then
      let now := zonesOf i.zones c.box
      let r := fireRules i now (crossings i.lines x.before c.box) i.rules.zipIdx t []
      let t' := { r.1 with inside := now }
      ({ acc.1 with tracks := updWhere (fun y => y.id == t.id) (fun _ => t') acc.1.tracks },
       acc.2 ++ (r.2.filter (fun f => f.1.action == 1)).map (fun f =>
         { row := f.2, target := f.1.target, code := f.1.alertCode, trackId := t.id, det := d }))
    else acc
  | none => acc

/-- R384-R392: tracks, zones, rules and the detections of a frame, in the order of R401. -/
def trackFrame (i : TrackIn) (tr : Tracker) (dets : List Cand) (attr : Cand → Nat × Nat × Bool) : TrackOut :=
  let a := associate i tr dets
  let entries := dets.zipIdx.map (fun (c, j) =>
    let x := ((a.2.find? (fun y => y.1 == j)).map (·.2)).getD
      { id := 0, stateCode := 0xFF, velocity := (0, 0), measured := false, untracked := false, before := none }
    (c, x, detectionOf i c x (attr c)))
  let r := entries.foldl (fun acc (c, x, d) => ruleStep i acc c x d) (a.1, [])
  let alerts := sortBy (fun (p q : AlertNote) => if p.row != q.row then decide (p.row < q.row) else decide (p.trackId < q.trackId)) r.2
  { tracker := r.1, dets := (sortBy (fun p q => candBefore p.1 q.1) (entries.map (fun e => (e.1, e.2.2)))).map (·.2),
    alerts := alerts.take 64, suppressed := alerts.length - 64 }

end Sys2Proof.Machine
end

