-- ==== Sys2Proof/Machine/Admission.lean ====
section
/-! DEFINITION. Admission (15_admission_latency.md, R518-R525, R530, R531, R534): foreground capacities, charges, the tests of
Table 15.3 and a partition's load. Amounts are kept in 64ths, so that the fractions of Table 15.2 stay exact. -/

namespace Sys2Proof.Machine

/-! ### What is charged -/

/-- The parameters a stream, or a share of one, is charged by. A stream processed on other modules leaves the shares that are
not `decode` or `infer` here (R510; notes/assumptions/28.md). -/
structure Profile where
  fn : Fn
  cls : ServiceClass
  codec : Nat
  pool : Bool
  width : Nat
  height : Nat
  rate : Nat
  motion : Nat
  binding : List BindEntry
  /-- MAX_DETECTIONS of each receiving tenant. -/
  receivers : List Nat
  home : Bool
  decode : Bool
  infer : Bool
  /-- T+1 reads pictures that another module decoded. -/
  remote : Bool
  deriving DecidableEq, Repr

/-- R396: the METADATA slot that receives a tenant's records of another tenant's streams. -/
def State.inboundSlot (s : State) (owner : Fn) (t : Tenant) : Option Nat :=
  let slot := nth 0xFFFF (s.tenantSt t).format.inbound owner.val
  match s.queue? (fnOf t) slot with
  | some q => if q.qtype == .metadata then some slot else none
  | none => none

/-- MAX_DETECTIONS of the owner and of every subscriber whose records are formed (R396, Table 15.2). -/
def State.receiversOf (s : State) (owner : Fn) (subs : List Nat) : List Nat :=
  let own := match tenantOf owner with
    | some t => (s.tenantSt t).format.maxDetections
    | none => RecordFormat.default.maxDetections
  own :: subs.filterMap (fun t => if h : t < 16 then
    (s.inboundSlot owner ⟨t, h⟩).map (fun _ => (s.tenantSt ⟨t, h⟩).format.maxDetections) else none)

def State.profileOf (s : State) (x : Stream) : Profile :=
  let here (m : Nat) : Bool := m == s.boot.moduleNo
  { fn := x.fn, cls := x.cls, codec := x.codec, pool := x.poolMode, width := x.width, height := x.height, rate := x.frameRate,
    motion := x.motionMode, binding := x.binding, receivers := s.receiversOf x.fn x.subscribers, home := true,
    decode := (match x.remote with
      | some r => here r.1
      | none => true),
    infer := (match x.remote with
      | some r => here r.2
      | none => true),
    remote := (match x.remote with
      | some r => here r.2 && r.1 != r.2
      | none => false) }

def Grant.profile (g : Grant) : Profile :=
  { fn := fnOfHandle g.handle, cls := g.cls, codec := g.codec, pool := g.poolMode, width := g.width, height := g.height,
    rate := g.frameRate, motion := g.motionMode, binding := g.binding, receivers := [], home := false, decode := g.decodeHere,
    infer := g.inferHere, remote := g.inferHere && !g.decodeHere }

/-- The bound models: entry, image and how often a frame runs it. -/
def State.boundImages (s : State) (p : Profile) : List (BindEntry × ModelImage × Nat) :=
  p.binding.filterMap (fun b => (s.image? p.fn b.model).map (fun i => (b, i, if b.role = 0 then 1 else b.maxBoxes)))

/-! ### Charges (R520, R521, Table 15.2) -/

/-- R277: engines for a coded area. -/
def enginesFor (pc : Nat) : Nat := ceilDiv pc 1126202

def Profile.coded (p : Profile) : Nat := codedPixels p.codec p.width p.height
def Profile.engines (p : Profile) : Nat := enginesFor p.coded

/-- Decode cycles of a coded area (Table 15.2). -/
def decodeCharge (pc : Nat) : Nat := ceilDiv (8 * pc) 7 + 12000 * enginesFor pc

/-- Bytes of a primary model's input tensor. -/
def InputDesc.tensorBytes (d : InputDesc) : Nat := d.width * d.height * d.pixelStride

/-- Post-engine cycles of a primary model. -/
def postCharge (i : ModelImage) : Nat :=
  ceilDiv i.outputBytes 64 + 40 * sumOf (i.heads.map (·.topK)) + 32768 + 131072 + 2000

/-- 64 times the memory-node charge of T+0: 4.5 × B, times 33/32 in compressed mode. -/
def memDecode64 (p : Profile) : Nat := pictureBytes p.codec p.width p.height * (if p.pool then 288 else 297)

/-- 64 times the memory-node charge of T+1 to T+3 for a primary model and the model traffic. -/
def memInfer64 (b tensor head traffic : Nat) : Nat := 72 * (b + tensor + head) + 72 * traffic + 64 * 262144

/-- Host port B bytes for one receiving tenant. -/
def hostBCharge (maxDet : Nat) : Nat := 64 * ceilDiv (64 + 32 * (maxDet + 16)) 64 + 8192

/-- The resources of R524 in the order of their reasons, the Filigree beside the memory node and host port B beside A:
decode, facet array, facet vector, vision, motion field, post, memory, Filigree, port A, port B, chain. -/
def reasonOf (k : Nat) : Nat := nth 0 [0x0A, 0x0B, 0x0C, 0x0D, 0x0E, 0x0F, 0x10, 0x10, 0x11, 0x11, 0x12] k

/-- Resources taken over the module (R522). -/
def moduleWide (k : Nat) : Bool := decide (8 ≤ k)

/-- 14:R508: 2 µs of an engine of 1.0 GHz for each dependent remote read of T+1. -/
def remoteReadCycles (p : Profile) : Nat := if p.remote then 2000 * Config.remoteReads p.width p.height else 0

/-- R520: 64 times the charge of one frame on each resource. -/
def State.charges (s : State) (p : Profile) : List Nat :=
  let im := s.boundImages p
  let b := pictureBytes p.codec p.width p.height
  let prim := im.head?.map (·.2.1)
  let dec (n : Nat) : Nat := if p.decode then n else 0
  let inf (n : Nat) : Nat := if p.infer then n else 0
  let mem := dec (memDecode64 p) + inf (match prim with
    | some i => memInfer64 b i.input.tensorBytes i.outputBytes (sumOf (im.map (fun x => x.2.2 * x.2.1.dramBytes)))
    | none => 0)
  [64 * dec (decodeCharge p.coded),
   64 * inf (sumOf (im.map (fun x => x.2.2 * x.2.1.tiles * x.2.1.arrayCycles))),
   64 * inf (sumOf (im.map (fun x => x.2.2 * x.2.1.tiles * x.2.1.vectorCycles))),
   64 * inf (sumOf (im.map (fun x => if x.1.role = 0 then prepareCycles p.width p.height x.2.1.input
     else x.2.2 * cropCycles x.2.1.input)) + remoteReadCycles p),
   64 * inf (motionCycles p.motion p.width p.height + remoteReadCycles p),
   64 * inf ((prim.map postCharge).getD 0),
   mem, mem,
   if p.home then 16 * (p.width * p.height) else 0,
   if p.home then 64 * sumOf (p.receivers.map hostBCharge) else 0,
   if p.remote then 64 * b else 0]

/-- R521: pool buffers held, by class. -/
def poolCharge (p : Profile) : List Nat :=
  let pic := if p.pool then classFor (pictureBytes p.codec p.width p.height) else none
  (List.range 6).map (fun c => (if pic == some c && p.decode then 18 else 0) + (if c = 2 && p.home then 8 else 0))

/-- A stream's load: what admission and planning sum. -/
structure Load where
  part : Nat
  cls : ServiceClass
  rate : Nat
  charge : List Nat
  tracks : Nat
  pools : List Nat
  region : Nat
  pixels : Nat
  home : Bool
  deriving DecidableEq, Repr

def State.loadOf (s : State) (p : Profile) : Load :=
  { part := s.partOf p.fn, cls := p.cls, rate := p.rate, charge := s.charges p, tracks := if p.infer then 256 else 0,
    pools := poolCharge p,
    region := if p.decode || p.infer then regionCharge p.codec p.pool p.width p.height else 0,
    pixels := if p.decode then p.width * p.height * p.rate else 0, home := p.home }

/-- Every admitted load of the module, but for the stream of one handle. -/
def State.loadsWithout (s : State) (handle : Option Nat) : List Load :=
  ((s.work.streams.filter (fun x => some x.handle != handle)).map (fun x => s.loadOf (s.profileOf x))) ++
    s.chain.grants.map (fun g => s.loadOf g.profile)

/-! ### Capacities (R518, Table 15.1) -/

/-- Facet cycles of a tile at a clock. -/
def tileCapacity (mhz : Nat) : Nat := 2009112 * mhz / 1250

/-- Foreground raw bytes of a channel: 1 % goes to background work. -/
def channelForeground (hot : Bool) : Nat := channelCapacity hot - channelCapacity hot / 100

/-- Foreground raw bytes of the memory nodes of a partition. -/
def State.memCapacity (s : State) (p : Nat) (hot : Nat → Bool) : Nat :=
  sumOf ((s.unitsOf p .dramChannel).map (fun c => channelForeground (hot c)))

/-- 64 times Cap_k of a partition at a facet clock and refresh rates, in the order of `charges`. `units` gives the units that
count. -/
def State.capsWith (s : State) (p mhz : Nat) (hot : Nat → Bool) (units : UnitKind → List Nat) : List Nat :=
  let tiles := (units .facetTile).length
  [64 * 1299088 * (units .decodeEngine).length, 64 * tileCapacity mhz * tiles, 64 * tileCapacity mhz * tiles,
   64 * 1623860 * (units .visionEngine).length, 64 * 1623860 * (units .motionEngine).length,
   64 * 1623860 * (units .postEngine).length, 64 * s.memCapacity p hot, 64 * 185584000 * (s.usableRows p).length,
   994200 * (s.host.lanes * s.host.rate10), 1800 * (s.host.lanes * s.host.rate10),
   64 * 144987500 * ((List.range 4).filter (s.available .chainLink)).length]

/-- R524, R531: capacities at 1,250 MHz and the doubled refresh rate. -/
def State.admitCaps (s : State) (p : Nat) : List Nat := s.capsWith p 1250 (fun _ => false) (s.unitsOf p)

/-- R523: capacities at 625 MHz and refresh every 975 ns. -/
def State.burstCaps (s : State) (p : Nat) : List Nat := s.capsWith p 625 (fun _ => true) (s.unitsOf p)

/-! ### R523 and R524 -/

def isUrgent (c : ServiceClass) : Bool := c == .urgent
def isFirm (c : ServiceClass) : Bool := c != .bestEffort

def Load.at_ (l : Load) (k : Nat) : Nat := nth 0 l.charge k

/-- 600,000 times the sum of charge × rate / 600 over loads. -/
def sumRate (ls : List Load) (k : Nat) : Nat := sumOf (ls.map (fun l => l.at_ k * l.rate))

/-- 600,000 times the urgent-and-guaranteed sum of R524. -/
def firmSum (ls : List Load) (k : Nat) : Nat :=
  let firm := ls.filter (fun l => isFirm l.cls)
  sumRate firm k + 600000 * maxOf (firm.map (fun l => l.at_ k))

/-- The loads a resource's sums run over. -/
def scopeOf (part : List Load) (all : List Load) (k : Nat) : List Load := if moduleWide k then all else part

def burstFits (caps : List Nat) (part all : List Load) : Bool :=
  (List.range 11).all (fun k =>
    decide (sumOf (((scopeOf part all k).filter (fun l => isUrgent l.cls)).map (fun l => l.at_ k)) ≤ nth 0 caps k))

def rateFits (caps : List Nat) (part all : List Load) (k : Nat) : Bool :=
  let ls := scopeOf part all k
  decide (firmSum ls k ≤ 600000 * nth 0 caps k) && decide (sumRate ls k ≤ 600000 * nth 0 caps k)

/-- The first failing test of R523 and R524 over loads, none when they fit. -/
def State.budgetReason (s : State) (p : Nat) (all : List Load) : Option Nat :=
  let part := all.filter (fun l => l.part == p)
  if !burstFits (s.burstCaps p) part all then some 0x09
  else ((List.range 11).find? (fun k => !rateFits (s.admitCaps p) part all k)).map reasonOf

/-! ### Charges on one unit (FRAME_TOO_LARGE, R523) -/

/-- Rows of a partition with both tiles usable (R351). -/
def State.twoTileRows (s : State) (p : Nat) : List Nat :=
  (s.usableRows p).filter (fun r => (s.unitsOf p .facetTile).contains (2 * r) && (s.unitsOf p .facetTile).contains (2 * r + 1))

/-- Every program fits the tiles of the partition at a clock. -/
def State.programsFit (s : State) (p mhz : Nat) (prof : Profile) : Bool :=
  !prof.infer || (s.boundImages prof).all (fun x =>
    decide (x.2.1.arrayCycles ≤ tileCapacity mhz) && decide (x.2.1.vectorCycles ≤ tileCapacity mhz) &&
      (if x.2.1.tiles = 2 then !(s.twoTileRows p).isEmpty else !(s.unitsOf p .facetTile).isEmpty))

/-- Table 15.3, 0x0003: a frame fits the units it needs. Prepare and memory traffic of one frame are shared by the partition's
engines and nodes (notes/assumptions/29.md). -/
def State.frameFits (s : State) (p : Nat) (prof : Profile) (l : Load) : Bool :=
  let g := prof.engines
  let caps := s.admitCaps p
  (!prof.decode || (decide (g ≤ 8) && decide (g ≤ (s.unitsOf p .decodeEngine).length) &&
      decide (ceilDiv (decodeCharge prof.coded) (max 1 g) ≤ 1299088))) &&
    s.programsFit p 1250 prof &&
    (!prof.infer || (!(s.unitsOf p .visionEngine).isEmpty && !(s.unitsOf p .motionEngine).isEmpty &&
      !(s.unitsOf p .postEngine).isEmpty)) &&
    decide (l.at_ 4 ≤ 64 * 1623860) && decide (l.at_ 5 ≤ 64 * 1623860) &&
    decide (l.at_ 8 ≤ nth 0 caps 8) && decide (l.at_ 9 ≤ nth 0 caps 9) &&
    decide (sumOf ((prof.binding.filter (fun b => b.role != 0)).map (·.maxBoxes)) ≤ 512)

/-! ### Table 15.3 -/

/-- The pool tests: firm charges at most 75 % of a class, all at most 90 %. -/
def State.poolsFit (s : State) (p : Nat) (part : List Load) : Bool :=
  (List.range 6).all (fun c =>
    let total (ls : List Load) : Nat := sumOf (ls.map (fun l => nth 0 l.pools c))
    decide (100 * total (part.filter (fun l => isFirm l.cls)) ≤ 75 * s.poolCapacity p c) &&
      decide (100 * total part ≤ 90 * s.poolCapacity p c))

/-- R522: the reason of the first failing test for a profile beside the other loads; none when it is admitted. -/
def State.admitReason (s : State) (others : List Load) (prof : Profile) : Option Nat :=
  let p := s.partOf prof.fn
  let l := s.loadOf prof
  let all := l :: others
  let part := all.filter (fun x => x.part == p)
  let usable := s.usableRows p
  let exact := (s.boundImages prof).all (fun x => x.2.1.exactOnly)
  let level (c : Nat) : Bool := s.level p c == .red || s.level p c == .reserve
  if limitStreams s.safety.retired (List.range 8) < (all.filter (·.home)).length then some 0x01
  else if limitUnits s.safety.retired (s.rowsOf p) * 62208000000 < sumOf (part.map (·.pixels)) then some 0x02
  else if !s.frameFits p prof l then some 0x03
  else if isUrgent prof.cls && !exact then some 0x04
  else if prof.cls == .bestEffort && (List.range 6).any level then some 0x05
  else if 8192 * (s.rowsOf p).length < sumOf (part.map (·.tracks)) then some 0x06
  else if !s.poolsFit p part then some 0x07
  else if usable.isEmpty || s.regionBytes p < s.modelBytes p + s.scrubRegions p + sumOf (part.map (·.region)) then some 0x08
  else if isUrgent prof.cls && !s.programsFit p 625 prof then some 0x09
  else s.budgetReason p all

/-- ADMISSION_REFUSED with its reason at 0x1A (Table 6.10). -/
def admissionRefused (reason : Nat) : Answer :=
  { status := .admissionRefused, offset := 0xFFFF, result := le 2 0 ++ le 2 reason }

/-! ### Overcommitment (R531) -/

/-- R531: the partitions whose admitted load fails, with the reason. -/
def State.overcommits (s : State) : List (Nat × Nat) :=
  let all := s.loadsWithout none
  (List.range (partCount s.work.startMask)).filterMap (fun p =>
    if all.any (fun l => l.part == p) then (s.budgetReason p all).map (fun r => (p, r)) else none)

/-- ADMISSION_OVERCOMMIT (R531): raised when a partition's admitted load begins to fail, and when it fits again. -/
def State.overcommitCommit (s : State) : State :=
  let now := s.overcommits
  let old := s.work.overcommitted
  let tell (s : State) (p r : Nat) : State := s.raiseAll (pfFn :: s.fnsOfPart p) 0x0007 (le 1 p ++ le 1 r)
  let s := s.withWork { s.work with overcommitted := now }
  let s := (now.filter (fun x => !old.any (fun y => y.1 == x.1))).foldl (fun s x => tell s x.1 x.2) s
  (old.filter (fun x => !now.any (fun y => y.1 == x.1))).foldl (fun s x => tell s x.1 0) s

/-! ### Load (R534) -/

/-- R534: a partition's load in percent, rounded up, over the given loads. -/
def State.loadPercent (s : State) (p : Nat) (all : List Load) : Nat :=
  let part := all.filter (fun l => l.part == p)
  let caps := s.admitCaps p
  maxOf ((List.range 11).map (fun k =>
    let sum := firmSum (scopeOf part all k) k
    if sum = 0 then 0 else if nth 0 caps k = 0 then 1000 else ceilDiv (100 * sum) (600000 * nth 0 caps k)))

/-- The resource that decides a partition's load. -/
def State.bindingResource (s : State) (p : Nat) (all : List Load) : Nat :=
  let part := all.filter (fun l => l.part == p)
  let caps := s.admitCaps p
  let of (k : Nat) : Nat × Nat := (firmSum (scopeOf part all k) k, nth 0 caps k)
  (List.range 11).foldl (fun best k => if (of best).1 * (of k).2 < (of k).1 * (of best).2 then k else best) 0

end Sys2Proof.Machine
end

