-- ==== Sys2Proof/Machine/Streams.lean ====
section
/-! DEFINITION. Streams (07_ingest_decode.md, R244-R261): opening, closing, modifying, their token buckets (02:R92), and
TABLE_WRITE (06:R659). -/

namespace Sys2Proof.Machine

/-! ### Handles (R246, R247) -/

/-- The stream a handle names, when a function owns it and STREAM_CLOSE has not taken effect on it. -/
def State.liveStream? (s : State) (f : Fn) (handle : Nat) : Option Stream :=
  (s.ownStream? f handle).bind (fun x => if x.closing then none else some x)

def State.handleTaken (s : State) (handle : Nat) : Bool :=
  s.work.streams.any (fun x => x.handle == handle) ||
    s.work.freedHandles.any (fun x => x.1 == handle && decide (s.clk.tick ≤ x.2 + 600))

/-- R246: the handle a new stream takes. -/
def State.freeHandle (s : State) (t : Tenant) (cls : ServiceClass) : Option Nat :=
  let base := t.val * 0x1000
  let used (i : Nat) : Bool := s.handleTaken (base + i)
  let pick := if isUrgent cls then lowestFree used 0x100 0x100
    else match lowestFree used 0x001 0xFF with
      | some i => some i
      | none => lowestFree used 0x200 0xDFF
  pick.map (base + ·)

/-! ### STREAM_OPEN (Table 7.1) -/

def classOf (c : Nat) : ServiceClass := if c = 0 then .urgent else if c = 1 then .guaranteed else .bestEffort

def State.queueIs (s : State) (f : Fn) (slot : Nat) (t : QueueType) : Bool :=
  match s.queue? f slot with
  | some q => q.qtype == t
  | none => false

/-- An ingest ring carries a stream. -/
def State.ingestBound (s : State) (f : Fn) (slot : Nat) : Bool :=
  s.work.streams.any (fun x => x.fn == f && x.ingestSlot == slot)

/-- A model holds a KIND 4 head (R259). -/
def ModelImage.classifies (i : ModelImage) : Bool := i.heads.any (fun h => h.kind == 4)

/-- Table 7.1, checks 6 to 8. -/
def openRange (p : StreamOpenP) : Option Nat :=
  let even (n lo hi : Nat) : Bool := n % 2 == 0 && within lo hi n
  firstFault [(0x0D, decide (p.cls.toNat ≤ 2)), (0x0E, decide (1 ≤ p.codec.toNat) && decide (p.codec.toNat ≤ 2)),
    (0x24, decide (p.motionMode.toNat ≤ 1))] <|>
  firstFault [(0x10, even p.width.toNat 320 3840), (0x12, even p.height.toNat 240 2160)] <|>
  firstFault [(0x14, within 1000 60000 p.frameRate.toNat)]

/-- A stream as STREAM_OPEN creates it (R92, R240, R268). -/
def newStream (f : Fn) (p : StreamOpenP) (handle tick : Nat) : Stream :=
  { handle := handle, fn := f, ingestSlot := p.ingestSlot.toNat, metadataSlot := p.metadataSlot.toNat,
    cls := classOf p.cls.toNat, codec := p.codec.toNat, seiSource := p.flags.getLsbD 0, poolMode := p.flags.getLsbD 1,
    width := p.width.toNat, height := p.height.toNat, frameRate := p.frameRate.toNat,
    timeCodeOffset := p.timeCodeOffset.toInt, baseUncertainty := p.baseUncertainty.toNat,
    motionMode := p.motionMode.toNat,
    binding := [{ model := p.model.toNat, role := 0, sourceHead := 0, maxBoxes := 0 }],
    zones := [], lines := [], rules := [], filter := none, subscribers := [], tokens := 1, refillBase := tick,
    refillCount := 0, nextSeq := 0, openPic := none, waiting := [], frames := [], lastT0 := none, started := [], fetchDebt := 0, dpb := [],
    paramSets := [], activeSps := none, motionRef := none, prevField := none, tracker := { tracks := [], nextId := 1 },
    lastCapture := none, lastCaptureUnc := 0, lastCaptureSeq := 0, closing := false, closeDue := false, safe := none,
    safeUntil := none, remote := none, lastMoved := tick }

/-- Streams stand by ascending handle. -/
def State.addStream (s : State) (x : Stream) : State :=
  s.withWork { s.work with streams := insertBy (fun a b => decide (a.handle < b.handle)) x s.work.streams }

/-- The profile a stream would be charged by. -/
def State.openProfile (s : State) (f : Fn) (p : StreamOpenP) : Profile := s.profileOf (newStream f p 0 0)

def applyStreamOpen (h : CmdHead) (p : StreamOpenP) : CmdEffect := fun s =>
  if !s.queueIs h.fn p.ingestSlot.toNat .ingest then refuse s .notFound
  else if s.ingestBound h.fn p.ingestSlot.toNat then refuse s .queueBusy
  else if !s.queueIs h.fn p.metadataSlot.toNat .metadata then refuse s .notFound
  else match tenantOf h.fn, s.image? h.fn p.model.toNat with
    | some t, some i =>
      if i.classifies then (s, some (failAt .invalidField 0x0C))
      else match openRange p with
        | some o => (s, some (failAt .invalidField o))
        | none =>
          if s.work.evacuating then (s, some (admissionRefused 0x01))
          else match s.admitReason (s.loadsWithout none) (s.openProfile h.fn p) with
            | some r => (s, some (admissionRefused r))
            | none =>
              match s.freeHandle t (classOf p.cls.toNat) with
              | some handle =>
                (s.addStream (newStream h.fn p handle s.clk.tick), some (okWith (le 2 handle ++ le 2 0)))
              | none => (s, some (admissionRefused 0x01))
    | _, _ => refuse s .notFound

/-- STREAM_OPEN (R244). -/
def execStreamOpen (h : CmdHead) (p : StreamOpenP) (s : State) : Out :=
  s.ringRow h (.streamOpen p) (applyStreamOpen h p)

/-! ### Buffers a stream holds (R271, R281) -/

/-- R89: a buffer of a partition is kept with the inputs of a discarded frame. -/
def State.keeps (s : State) (p handle : Nat) : Bool :=
  s.work.retained.any (fun r => s.partOf r.fn == p && r.buffers.contains handle)

/-- Frees an outstanding buffer of a partition by its handle, unless R89 keeps it. -/
def State.freeBuffer (s : State) (p handle : Nat) : State :=
  match s.bufByHandle p handle with
  | some b => if s.keeps p handle then s else { s with pools := s.pools.release b }
  | none => s

def State.freeBuffers (s : State) (p : Nat) (handles : List Nat) : State :=
  handles.foldl (fun s h => s.freeBuffer p h) s

def chunkBuffers (cs : List Chunk) : List Nat := cs.filterMap (·.buffer)

/-- The chunk buffers of pictures that have not entered T+0. -/
def Stream.waitingBuffers (x : Stream) : List Nat :=
  (match x.openPic with
   | some p => chunkBuffers p.chunks
   | none => []) ++ x.waiting.flatMap (fun p => chunkBuffers p.chunks)

/-- The pictures kept in pool buffers: those of the decoded picture buffer and of frames before T+3. -/
def Stream.pictureBuffers (x : Stream) : List Nat :=
  x.dpb.filterMap (·.buffer) ++ x.frames.filterMap (·.buffer)

/-- Every buffer the stream itself refers to. -/
def Stream.buffers (x : Stream) : List Nat :=
  (x.waitingBuffers ++ x.frames.flatMap (fun f => chunkBuffers f.chunks) ++ x.pictureBuffers).eraseDups

/-! ### Closing (R255, R256) -/

/-- R255: from the commit of STREAM_CLOSE no picture enters T+0; the pictures before it are dropped. -/
def State.beginClose (s : State) (x : Stream) : State :=
  (s.freeBuffers (s.partOf x.fn) x.waitingBuffers).modStream x.handle (fun x =>
    { x with closing := true, openPic := none, waiting := [] })

/-- R256, R424: a stream ends: its ring is consumed and unbound, its buffers are released, its handle rests. -/
def State.removeStream (s : State) (x : Stream) : State :=
  let p := s.partOf x.fn
  let s := s.modQueue x.fn x.ingestSlot (fun q => { q with cons := q.prod, fetchPos := q.prod, donePos := [], bells := [] })
  let s := s.freeBuffers p x.buffers
  let s := s.withWork { s.work with
    streams := s.work.streams.filter (fun y => y.handle != x.handle),
    freedHandles := (x.handle, s.clk.tick) :: s.work.freedHandles.filter (fun y => decide (s.clk.tick ≤ y.2 + 600)) }
  s.closeOwner p (.stream (BitVec.ofNat 16 x.handle)) none

def applyStreamClose (h : CmdHead) (pos : Option RingPos) (p : HandleP) : CmdEffect := fun s =>
  match s.liveStream? h.fn p.handle.toNat with
  | some x => ((s.beginClose x).beginWork h 0x31 pos (.streamClose x.handle), none)
  | none => refuse s .notFound

/-- STREAM_CLOSE. -/
def execStreamClose (h : CmdHead) (p : HandleP) (s : State) : Out :=
  s.ringRow h (.streamClose p) (applyStreamClose h none p)

/-- A closing stream is removed, and its STREAM_CLOSE completes. -/
def State.endStream (s : State) (x : Stream) : State :=
  let w := s.workOf? (.streamClose x.handle)
  let s := s.removeStream x
  match w with
  | some w => s.finishNow w ok
  | none => s

/-- R256: behind the frame results of a commit, the closing streams whose completion is due there and whose last frame has retired end. -/
def State.endClosing (s : State) : State :=
  (s.work.streams.filter (fun x => x.closeDue && x.frames.isEmpty)).foldl State.endStream s

/-- STREAM_CLOSE_COMPLETE (R256): the coming commit is the one at which the last frame of a closing stream retires. -/
def execStreamCloseComplete (i : HandleP) (s : State) : Out :=
  .next (if s.isReady then
    s.modStream i.handle.toNat (fun x => { x with closeDue := x.closing }) else s)

/-! ### STREAM_MODIFY (R250-R253, R259, R261) -/

/-- The stream with the properties a STREAM_MODIFY names changed. -/
def Stream.modify (x : Stream) (p : StreamModifyP) (tick : Nat) : Stream :=
  let x := if p.change.getLsbD 0 then { x with cls := classOf p.cls.toNat } else x
  let x := if p.change.getLsbD 1 then
    { x with binding := x.binding.zipIdx.map (fun (b, k) => if k = 0 then { b with model := p.model.toNat } else b) } else x
  let x := if p.change.getLsbD 2 then
    { x with frameRate := p.frameRate.toNat, refillBase := tick, refillCount := 0 } else x
  if p.change.getLsbD 3 then { x with motionMode := p.motionMode.toNat } else x

/-- CLASS, MODEL or FRAME_RATE changes: the stream is admitted anew (R251). -/
def readmits (p : StreamModifyP) : Bool := p.change.getLsbD 0 || p.change.getLsbD 1 || p.change.getLsbD 2

def applyStreamModify (h : CmdHead) (p : StreamModifyP) : CmdEffect := fun s =>
  match s.liveStream? h.fn p.handle.toNat with
  | none => refuse s .notFound
  | some x =>
    let image := s.image? h.fn p.model.toNat
    if p.change.getLsbD 1 && image.isNone then refuse s .notFound
    else if p.change.getLsbD 1 && (image.map ModelImage.classifies).getD false then (s, some (failAt .invalidField 0x0C))
    else
      let y := x.modify p s.clk.tick
      match if readmits p then s.admitReason (s.loadsWithout (some x.handle)) (s.profileOf y) else none with
      | some r => (s, some (admissionRefused r))
      | none =>
        let s := s.modStream x.handle (fun _ => y)
        (if p.change.getLsbD 1 then s.touchEpoch h.fn else s, some ok)

/-- STREAM_MODIFY. -/
def execStreamModify (h : CmdHead) (p : StreamModifyP) (s : State) : Out :=
  s.ringRow h (.streamModify p) (applyStreamModify h p)

/-! ### TOKEN_REFILL (R91, R92) -/

/-- R92: the commit at which a stream's k-th later token falls due. -/
def Stream.refillDue (x : Stream) (k : Nat) : Nat := x.refillBase + ceilDiv (k * 600000) (max 1 x.frameRate)

/-- TOKEN_REFILL (R92): the next token, at the coming commit, whose plan finds it. -/
def execTokenRefill (i : HandleP) (s : State) : Out :=
  .next (match s.stream? i.handle.toNat with
    | some x =>
      if s.isReady && x.refillDue (x.refillCount + 1) ≤ s.clk.tick + 1 then
        s.modStream x.handle (fun x => { x with tokens := min 2 (x.tokens + 1), refillCount := x.refillCount + 1 })
      else s
    | none => s)

/-! ### TABLE_WRITE (R659, R260, R350, R390, R393-R395, R533) -/

/-- The answer to a table that breaks a rule of step 6. -/
def tableBad (o : Nat) : Answer := tableFail .invalidField 0x10 (some o)

/-- R659 step 1: what HANDLE and TABLE must be; the stream named. -/
def State.tableTarget (s : State) (f : Fn) (p : TableWriteP) : Except Answer (Option Stream) :=
  let t := p.table.toNat
  let wide := p.handle == 0xFFFF
  if t < 1 || 7 < t then .error (tableFail .invalidField 0x0A none)
  else if t == 7 && !isPf f then .error (tableFail .notPermitted 0x0A none)
  else if (t == 5 || t == 7) && !wide then .error (tableFail .invalidField 0x08 none)
  else if t == 4 && wide then .ok none
  else if t == 5 || t == 7 then .ok none
  else if wide then .error (tableFail .invalidField 0x08 none)
  else match s.liveStream? f p.handle.toNat with
    | some x => .ok (some x)
    | none => .error (tableFail .notFound 0x08 none)

/-- R259, R350: the first faulty field of a binding table against the loaded models. -/
def State.bindingFault (s : State) (f : Fn) (cls : ServiceClass) (es : List BindEntry) : Option Nat :=
  let prim := es.head?.bind (fun b => s.image? f b.model)
  firstFault (es.zipIdx.flatMap (fun (b, k) =>
    let o := 8 + 8 * k
    let im := s.image? f b.model
    let kindOk := match prim.bind (fun i => i.heads[b.sourceHead]?) with
      | some h => decide (h.kind ≤ 2)
      | none => false
    [(o, match im with
        | some i => !(isUrgent cls && !i.exactOnly)
        | none => false),
     (o + 1, (if k == 0 then b.role == 0 else b.role == 1) && match im with
        | some i => k != 0 || !i.classifies
        | none => true),
     (o + 2, k == 0 || kindOk)]))

/-- R260: the offset of the first entry that does not fit. -/
def State.bindingRefused (s : State) (x : Stream) (es : List BindEntry) : Option Nat :=
  let others := s.loadsWithout (some x.handle)
  ((List.range es.length).find? (fun k =>
    (s.admitReason others (s.profileOf { x with binding := es.take (k + 1) })).isSome)).map (fun k => 8 + 8 * k)

/-- R395: the first faulty entry of a subscription list. -/
def State.subscriberFault (s : State) (owner : Fn) (ts : List Nat) : Option Nat :=
  (ts.zipIdx.find? (fun (t, k) => t == owner.val || (ts.take k).contains t || !(if h : t < 16 then
    (s.tenantSt ⟨t, h⟩).configured else false))).map (fun (_, k) => 8 + 8 * k)

/-- A table in force, with the epoch advance of R72 for tables 1 to 6. -/
def State.storeTable (s : State) (f : Fn) (x : Option Stream) (c : TableContent) : State :=
  let onStream (s : State) (g : Stream → Stream) : State := match x with
    | some x => s.modStream x.handle g
    | none => s
  let onTenant (s : State) (g : TenantSt → TenantSt) : State := match tenantOf f with
    | some t => s.modTenant t g
    | none => s
  match c with
  | .binding es => (onStream s (fun x => { x with binding := es })).touchEpoch f
  | .zones zs ls => (onStream s (fun x => { x with zones := zs, lines := ls })).touchEpoch f
  | .rules rs => (onStream s (fun x => { x with rules := rs })).touchEpoch f
  | .filter b => (if x.isSome then onStream s (fun x => { x with filter := some b })
      else onTenant s (fun t => { t with filter := b })).touchEpoch f
  | .format r => (onTenant s (fun t => { t with format := r })).touchEpoch f
  | .subscribers ts => (onStream s (fun x => { x with subscribers := ts })).touchEpoch f
  | .balance p => s.withWork { s.work with balance := p }

/-- R659 step 6. -/
def State.tableRules (s : State) (f : Fn) (x : Option Stream) (c : TableContent) : Option Answer :=
  match c, x with
  | .binding es, some x =>
    match s.bindingFault f x.cls es with
    | some o => some (tableBad o)
    | none => (s.bindingRefused x es).map tableBad
  | .subscribers ts, some _ => (s.subscriberFault f ts).map tableBad
  | .rules rs, _ => (rulesFault rs).map tableBad
  | .format r, _ => (inboundFault (s.quotaOf f) f.val r).map tableBad
  | _, _ => none

def applyTableWrite (h : CmdHead) (p : TableWriteP) : CmdEffect := fun s =>
  match s.tableTarget h.fn p with
  | .error a => (s, some a)
  | .ok x =>
    s.cmdAddress h.fn 0xFFFF p.source.toNat p.bytes.toNat false 0x10 (fun s =>
      match checkTable p.table.toNat p.bytes.toNat p.data with
      | .error a => (s, some a)
      | .ok c =>
        match s.tableRules h.fn x c with
        | some a => (s, some a)
        | none => (s.storeTable h.fn x c, some (okWith (le 4 0xFFFFFFFF))))

/-- TABLE_WRITE (R659). -/
def execTableWrite (h : CmdHead) (p : TableWriteP) (s : State) : Out :=
  s.ringRow h (.tableWrite p) (applyTableWrite h p)

end Sys2Proof.Machine
end

