-- ==== Sys2Proof/Machine/Ingest.lean ====
section
/-! DEFINITION. Ingest (07_ingest_decode.md, R262-R271): reads from host memory return, descriptors become pictures, chunks
get their buffers and their data. -/

namespace Sys2Proof.Machine

/-! ### Pictures and chunks (R263-R268) -/

/-- R61, R215: the doorbell that made a ring position available; one that the ring no longer names counts as of now. -/
def State.bellOf (s : State) (q : Queue) (pos : Nat) : Bell :=
  (q.bells.find? (fun b => decide (pos < b.upTo))).getD { upTo := pos + 1, tick := s.clk.tick, time := s.clk.devTime }

/-- The next descriptor of a ring has been fetched. -/
def Queue.fetchedOne (q : Queue) : Queue :=
  { q with fetchPos := q.fetchPos + 1, bells := q.bells.filter (fun b => decide (q.fetchPos + 1 < b.upTo)) }

/-- R207: a descriptor that belongs to no picture is consumed, once it stands at the head of its ring. -/
def Queue.passOver (q : Queue) (pos : Nat) : Queue := { q with donePos := pos :: q.donePos }

/-- R207: the consumer index moves past what is done at the head of a ring. -/
def Queue.moveOn (q : Queue) : Queue :=
  let r := advanceDone (q.donePos.length + 1) q.cons q.donePos
  { q with cons := r.1, donePos := r.2 }

/-- KIND of Table 7.6 of a chunk that R230 or R270 takes for lost. -/
def kindChunkLost : Nat := 5
def kindFetchLate : Nat := 6

/-- R264: bytes of a picture's chunks so far. -/
def Pending.bytes (p : Pending) : Nat := sumOf (p.chunks.map (fun c => c.desc.length))

/-- R264: a chunk lies within the limits: it fits beside those the picture has, and no chunk before it exceeded them. -/
def Pending.fits (p : Pending) (d : IngestDesc) : Bool :=
  p.extraChunks == 0 && decide (p.chunks.length < 64) && decide (p.bytes + d.length ≤ 8388608)

/-- R263, R265: the picture a descriptor starts. -/
def Pending.start (seq : Nat) (c : Chunk) : Pending :=
  { seq := seq, chunks := [c], extraChunks := 0, discontinuity := c.desc.discontinuity || !c.desc.first,
    noFirst := !c.desc.first, truncated := false, noBuffer := false, readyTick := none, lastPos := c.desc.pos, waited := 0,
    firstCause := none, lastCause := none, bellTime := 0, ended := false }

/-- R264: a further chunk, used within the limits. -/
def Pending.append (p : Pending) (c : Chunk) : Pending :=
  if p.fits c.desc then { p with chunks := p.chunks ++ [c], lastPos := c.desc.pos }
  else { p with extraChunks := p.extraChunks + 1, truncated := true, lastPos := c.desc.pos }

/-- R268: a completed picture takes the next frame sequence and waits for T+0 from its ready tick, the one behind its last doorbell
(R61); `bell` is that doorbell. -/
def Stream.complete (x : Stream) (p : Pending) (bell : Bell) : Stream :=
  { x with openPic := none, nextSeq := x.nextSeq + 1,
           waiting := x.waiting ++ [{ p with seq := x.nextSeq, readyTick := some (bell.tick + 1), bellTime := bell.time }] }

/-- R266: a FIRST descriptor closes the picture that is open; of one that has ended (R426) nothing is left. -/
def Stream.closeOpen (x : Stream) (bell : Bell) : Stream :=
  match x.openPic with
  | some p => if p.ended then { x with openPic := none } else x.complete { p with truncated := true } bell
  | none => x

/-- R263: the picture that is open after a descriptor is completed when it carries LAST. -/
def Stream.afterChunk (x : Stream) (p : Pending) (c : Chunk) (bell : Bell) : Stream :=
  if c.desc.last then x.complete p bell else { x with openPic := some p }

/-- R263-R268: a sound descriptor joins its stream's pictures. -/
def Stream.takeChunk (x : Stream) (c : Chunk) (bell : Bell) : Stream :=
  let x := if c.desc.first then x.closeOpen bell else x
  match x.openPic with
  | some p => x.afterChunk (p.append c) c bell
  | none => x.afterChunk (Pending.start x.nextSeq c) c bell

/-- R230: a malformed or faulting descriptor is a lost chunk, of no data, of the open picture. -/
def Stream.takeBad (x : Stream) (d : IngestDesc) : Stream :=
  match x.openPic with
  | some p => { x with openPic := some (p.append { desc := { d with length := 0 }, data := none, lost := some kindChunkLost, buffer := none }) }
  | none => x

/-! ### Chunk buffers (R269, R419, R427, R428) -/

/-- The row whose pool node serves a stream's chunks first (notes/assumptions/30.md). -/
def State.ingestRow (s : State) (f : Fn) : Row :=
  match (s.usableRows (s.partOf f)).head? with
  | some r => if h : r < 8 then ⟨r, h⟩ else 0
  | none => 0

/-- One pool buffer for a stream, asked for by a unit of a row: its handle. -/
def State.allocFor (s : State) (x : Stream) (row : Row) (bytes : Nat) : Option Nat × State :=
  match s.alloc row bytes (.stream (BitVec.ofNat 16 x.handle)) (some x.cls) none none with
  | (some b, s) => (some (s.bufHandle b), s)
  | (none, s) => (none, s)

/-- One pool buffer for a chunk of a stream: its handle. -/
def State.allocChunk (s : State) (x : Stream) (bytes : Nat) : Option Nat × State :=
  s.allocFor x (s.ingestRow x.fn) bytes

/-- Marks the picture a descriptor belongs to as one that found no buffer for a chunk. -/
def Stream.markNoBuffer (x : Stream) (pos : Nat) : Stream :=
  let mark (p : Pending) : Pending := if p.lastPos == pos then { p with noBuffer := true } else p
  { x with openPic := x.openPic.map mark, waiting := x.waiting.map mark }

/-- Whether a sound descriptor's chunk lies within the limits of R264. -/
def Stream.keepsChunk (x : Stream) (d : IngestDesc) : Bool :=
  match x.openPic with
  | some p => d.first || p.fits d
  | none => true

/-! ### HOST_READ_COMPLETION (R230, R269) -/

/-- The stream bound to an ingest ring. -/
def State.boundStream? (s : State) (f : Fn) (slot : Nat) : Option Stream :=
  s.work.streams.find? (fun x => x.fn == f && x.ingestSlot == slot && !x.closing)

/-- R230, R184: the events of a malformed or faulting descriptor. -/
def State.reportMalformed (s : State) (x : Stream) (d : IngestDesc) (off : Nat) : State :=
  s.atNext (fun s =>
    let s := if off = 8 then s.addressFault x.fn x.ingestSlot d.address.toNat false else s
    s.raiseFull x.fn 0x0004 (severityOf 0x0004) x.ingestSlot x.handle 0xFF (le 4 d.hostTag.toNat ++ le 2 off))

/-- A descriptor of a picture that has ended (R426, R427) is consumed; LAST is the picture's last one. -/
def State.passEnded (s : State) (x : Stream) (d : IngestDesc) : State :=
  (s.modQueue x.fn x.ingestSlot (fun q => q.passOver d.pos)).modStream x.handle (fun x =>
    if d.last then { x with openPic := none } else x)

/-- A descriptor of an open or a new picture. -/
def State.takeDesc (s : State) (x : Stream) (d : IngestDesc) (bell : Bell) : State :=
  match d.fault with
  | some off =>
    let s := s.reportMalformed x d off
    if x.openPic.isSome then s.modStream x.handle (fun x => x.takeBad d)
    else s.modQueue x.fn x.ingestSlot (fun q => q.passOver d.pos)
  | none =>
    if x.keepsChunk d then
      let r := s.allocChunk x d.length
      let s := r.2.modStream x.handle (fun x => x.takeChunk { desc := d, data := none, lost := none, buffer := r.1 } bell)
      if r.1.isSome then s else s.modStream x.handle (fun x => x.markNoBuffer d.pos)
    else s.modStream x.handle (fun x => x.takeChunk { desc := d, data := none, lost := none, buffer := none } bell)

/-- An ingest descriptor of a bound stream. -/
def State.ingestDesc (s : State) (x : Stream) (q : Queue) (bs : List Byte) : State :=
  let d := parseIngest (fit 64 bs) q.fetchPos x.handle (fun a n => s.reaches x.fn a n false)
  let bell := s.bellOf q q.fetchPos
  let s := s.modQueue x.fn x.ingestSlot Queue.fetchedOne
  if x.openPic.any (·.ended) && (d.fault.isSome || !d.first) then
    match d.fault with
    | some off => (s.reportMalformed x d off).modQueue x.fn x.ingestSlot (fun q => q.passOver d.pos)
    | none => s.passEnded x d
  else s.takeDesc x d bell

/-- A descriptor read returns (R186, R231, R240). -/
def State.descriptorRead (s : State) (f : Fn) (slot : Nat) (bs : List Byte) (poisoned : Bool) : State :=
  match s.queue? f slot with
  | some q =>
    if !s.fetches f q then s
    else if q.qtype == .command then
      if poisoned then s.stopRing f slot .poisoned else s.modQueue f slot (fun q => q.fetchCommand f bs)
    else match s.boundStream? f slot with
      | some x => if poisoned then s.stopRing f slot .poisoned else s.ingestDesc x q bs
      | none => s
  | none => s

/-- A chunk the module still waits for. -/
def Chunk.awaited (c : Chunk) : Bool := c.data.isNone && c.lost.isNone && c.buffer.isSome

/-- What a read's end makes of one chunk of a picture. -/
def changeChunk (cs : List Chunk) (k : Nat) (g : Chunk → Chunk) : List Chunk :=
  cs.zipIdx.map (fun (c, j) => if j == k && c.awaited then g c else c)

/-- The pictures of a stream before T+0 that a chunk read may belong to. -/
def Stream.onPending (x : Stream) (seq k : Nat) (g : Chunk → Chunk) : Stream :=
  let on (p : Pending) : Pending := if p.seq == seq then { p with chunks := changeChunk p.chunks k g } else p
  { x with openPic := x.openPic.map on, waiting := x.waiting.map on }

/-- The frame of a stream that is in T+0. -/
def Stream.onDecoding (x : Stream) (seq k : Nat) (g : Chunk → Chunk) : Stream :=
  let on (f : Frame) : Frame :=
    if f.seq == seq && f.stage == .decode && !f.idle then { f with chunks := changeChunk f.chunks k g } else f
  { x with frames := x.frames.map on }

/-- A chunk read ends: the module takes the chunk's data or counts it as lost. -/
def State.chunkRead (s : State) (f : Fn) (slot seq k : Nat) (g : Chunk → Chunk) : State :=
  if s.isReady && (s.fnSt f).sealed then
    match s.work.streams.find? (fun (x : Stream) => x.fn == f && x.ingestSlot == slot) with
    | some x => s.modStream x.handle (fun x => (x.onPending seq k g).onDecoding seq k g)
    | none => s
  else s

def Chunk.receive (bs : List Byte) (c : Chunk) : Chunk := { c with data := some (fit c.desc.length bs) }

def Chunk.lose (kind : Nat) (c : Chunk) : Chunk := { c with lost := some kind }

/-- R186, Table 5.12: a chunk read that failed: the chunk is lost, FETCH_ERROR sets and the error is logged. -/
def State.chunkFailed (s : State) (r : ReadRef) (k : Nat) (why : ReadFailure) : State :=
  let s' := s.chunkRead r.fn r.slot.toNat r.seq.toNat k (Chunk.lose kindChunkLost)
  if s.isReady && (s.fnSt r.fn).sealed then s'.readFailed r.fn why else s'

/-- Table 12.5, AMBER: the chunk of a best-effort stream whose pool is low waits until the stream's fetch keeps to half the rate of its
admission charge, WIDTH * HEIGHT / 4 bytes a frame: the module has not read it yet. -/
def State.limitsFetch (s : State) (x : Stream) (length : Nat) : Bool :=
  x.cls == .bestEffort && ((classFor length).map (fun c => s.level (s.partOf x.fn) c)).any (· != .green)

/-- A chunk of a stream that the module waits for. -/
def Stream.awaitedChunk? (x : Stream) (seq k : Nat) : Option Chunk :=
  let cs := (((x.openPic.toList ++ x.waiting).find? (fun (p : Pending) => p.seq == seq)).map (·.chunks)) <|>
    ((x.frames.find? (fun f => f.seq == seq && f.stage == .decode)).map (·.chunks))
  (cs.bind (·[k]?)).filter (·.awaited)

/-- R425: a chunk that has been read counts against the AMBER limit. -/
def Stream.countFetch (x : Stream) (length : Nat) : Stream := { x with fetchDebt := x.fetchDebt + 4800000 * length }

/-- R425: what one tick allows at half the admitted rate. -/
def Stream.payFetch (x : Stream) : Stream := { x with fetchDebt := x.fetchDebt - x.width * x.height * x.frameRate }

/-- R269: the data of a chunk arrives. -/
def State.chunkData (s : State) (f : Fn) (slot seq k : Nat) (bs : List Byte) : State :=
  match s.work.streams.find? (fun (x : Stream) => x.fn == f && x.ingestSlot == slot) with
  | some x =>
    match x.awaitedChunk? seq k with
    | some c =>
      let limited := s.limitsFetch x c.desc.length
      if limited && 0 < x.fetchDebt then s
      else
        let s := s.chunkRead f slot seq k (Chunk.receive bs)
        if limited then s.modStream x.handle (fun x => x.countFetch c.desc.length) else s
    | none => s
  | none => s

/-- HOST_READ_COMPLETION (R269, R270, Table 5.12). -/
def execHostReadCompletion (i : HostReadIn) (s : State) : Out :=
  .next (match i.ref.kind with
    | .descriptor => s.descriptorRead i.ref.fn i.ref.slot.toNat i.data i.poisoned
    | .chunk k =>
      if i.poisoned then s.chunkFailed i.ref k .poisoned
      else s.chunkData i.ref.fn i.ref.slot.toNat i.ref.seq.toNat k i.data)

/-- A read of the module whose time has run out: the next descriptor of a ring it fetches, or a chunk. -/
def State.readTimesOut (s : State) (r : ReadRef) : State :=
  match r.kind with
  | .descriptor =>
    match s.queue? r.fn r.slot.toNat with
    | some q =>
      if s.fetches r.fn q && (q.qtype == .command || (s.boundStream? r.fn r.slot.toNat).isSome) then
        s.stopRing r.fn r.slot.toNat .timeout
      else s
    | none => s
  | .chunk k => s.chunkFailed r k .timeout

/-- COMPLETION_TIMEOUT (R658, R270, R186): a read has had no completion for as long as the PF's Completion Timeout Value allows. -/
def execCompletionTimeout (i : TimeoutIn) (s : State) : Out :=
  .next (if s.host.timeoutDisable || i.ageNs < timeoutNs s.host.timeoutValue then s else s.readTimesOut i.ref)

/-- FETCH_LATE (R270): 60 us into the picture's T+0. -/
def execFetchLate (i : ReadRef) (s : State) : Out :=
  .next (match i.kind with
    | .descriptor => s
    | .chunk k =>
      match s.work.streams.find? (fun (x : Stream) => x.fn == i.fn && x.ingestSlot == i.slot.toNat) with
      | some x => if s.isReady then
          s.modStream x.handle (fun x => x.onDecoding i.seq.toNat k (Chunk.lose kindFetchLate)) else s
      | none => s)

end Sys2Proof.Machine
end

