-- ==== Sys2Proof/Machine/Bitstream.lean ====
section
/-! DEFINITION. From a picture's chunks to the picture that later stages analyse (07_ingest_decode.md, R262-R289): NAL units and losses,
the constraints of Table 7.3, the blocks kept and concealed, the errors found and the concealment bitmap. What the standards themselves
say of syntax and reconstruction is `Config.decode`. -/

namespace Sys2Proof.Machine

/-! ### Chunks to NAL units (R262, R264, R267, R270, R274) -/

/-- What has not come when the stage closes is late (R270). -/
def lateChunks (cs : List Chunk) : List Chunk := cs.map (fun c => if c.awaited then c.lose kindFetchLate else c)

/-- A loss of stream data: the chunk that it precedes or takes away, and its KIND of Table 7.6. -/
abbrev Loss := Nat × Nat

/-- The losses of a picture in order: what DISCONTINUITY says was lost before a chunk, and a lost chunk itself. A picture without FIRST
begins behind a loss (R265). -/
def lossesOf (cs : List Chunk) (noFirst : Bool) : List Loss :=
  cs.zipIdx.flatMap (fun (c, k) =>
    (if (k != 0 && c.desc.discontinuity) || (k == 0 && noFirst) then [(k, kindChunkLost)] else []) ++ c.lost.toList.map (fun l => (k, l)))

/-- A byte of the picture's data with its chunk and its offset there; none where data was lost. -/
abbrev DataByte := Option (Nat × Nat × Byte)

/-- The data of a picture in stream order. -/
def dataOf (cs : List Chunk) : List DataByte :=
  cs.zipIdx.flatMap (fun (c, k) =>
    (if k != 0 && c.desc.discontinuity then [none] else []) ++
      match c.lost, c.data with
      | none, some bs => bs.zipIdx.map (fun (b, i) => some (k, i, b))
      | _, _ => [none])

/-- A NAL unit: its bytes with their places, and whether a loss cut it short. -/
structure Nal where
  data : List (Nat × Nat × Byte)
  cut : Bool
  deriving DecidableEq, Repr

def Nal.bytes (n : Nal) : List Byte := n.data.map (·.2.2)

/-- A NAL unit read so far, newest byte first, ends: the zeros behind it belong to no NAL unit. -/
def endNal (cur : Option (List (Nat × Nat × Byte))) (cut : Bool) : List Nal :=
  match cur with
  | some bs => [{ data := (bs.dropWhile (fun b => b.2.2 == 0)).reverse, cut := cut }]
  | none => []

/-- The NAL units of a byte stream: each begins behind a start code 00 00 01. Behind a loss the next one begins at the next start code
(R267). `zeros` counts the zero bytes just read, `cur` is the NAL unit being read. -/
def nalUnits (endsCut : Bool) : List DataByte → Nat → Option (List (Nat × Nat × Byte)) → List Nal
  | [], _, cur => endNal cur endsCut
  | none :: ds, _, cur => endNal cur true ++ nalUnits endsCut ds 0 none
  | some d :: ds, zeros, cur =>
    if d.2.2 = 1 && 2 ≤ zeros then endNal cur false ++ nalUnits endsCut ds 0 (some [])
    else nalUnits endsCut ds (if d.2.2 = 0 then zeros + 1 else 0) (cur.map (d :: ·))

/-- nal_unit_type of a NAL unit, and nuh_layer_id (0 for H.264): the headers of Annex B's two standards. -/
def nalType (codec : Nat) (bs : List Byte) : Nat := if codec = 1 then rd bs 0 1 % 32 else rd bs 0 1 / 2 % 64

def nalLayer (codec : Nat) (bs : List Byte) : Nat := if codec = 1 then 0 else rd bs 0 1 % 2 * 32 + rd bs 1 1 / 8

/-- R274: the NAL units the module looks at. -/
def Nal.used (codec : Nat) (n : Nal) : Bool :=
  !n.data.isEmpty && nalLayer codec n.bytes == 0 && !(codec == 1 && [14, 15, 20, 21].contains (nalType 1 n.bytes))

/-- A NAL unit that carries a parameter set: 7 and 8 of H.264, 32 to 34 of H.265. -/
def isParamSet (codec : Nat) (bs : List Byte) : Bool :=
  if codec = 1 then [7, 8].contains (nalType 1 bs) else [32, 33, 34].contains (nalType 2 bs)

/-- The NAL units of a picture that count. -/
def picNals (codec : Nat) (cs : List Chunk) (endsCut : Bool) : List Nal := (nalUnits endsCut (dataOf cs) 0 none).filter (Nal.used codec)

/-! ### Supported bitstreams (R272, R273, R276, R277, Table 4.7) -/

/-- The profile rows of Table 4.7 that an SPS answers: PROFILE_IDC and MAX_IN_DEPTH. -/
def Sps.profiles (codec : Nat) (q : Sps) : List (Nat × Nat) :=
  if codec = 1 then
    ([(66, 8), (77, 8), (100, 8)] : List (Nat × Nat)).filter (fun r => r.1 == q.profileIdc && (r.1 != 66 || q.constraintSet1))
  else ([(1, 8), (2, 10)] : List (Nat × Nat)).filter (fun r => r.1 == q.profileIdc || q.compatible.contains r.1)

/-- Table 7.3: `w` and `h` are the declared size. -/
def Sps.conforms (codec w h : Nat) (q : Sps) : Bool :=
  let deepest := maxOf ((q.profiles codec).map (·.2))
  !(q.profiles codec).isEmpty &&
    (if codec = 1 then decide (q.levelIdc ≤ 52) else decide (q.levelIdc ≤ 153) && !q.highTier) &&
    (q.chromaFormat == 1 || (codec == 1 && q.chromaFormat == 0 && q.profileIdc == 100)) &&
    decide (8 ≤ q.depthLuma) && decide (q.depthLuma ≤ deepest) && decide (8 ≤ q.depthChroma) && decide (q.depthChroma ≤ deepest) &&
    (if codec = 1 then q.frameMbsOnly else !q.fieldSeq) &&
    decide (320 ≤ q.cropWidth) && decide (q.cropWidth ≤ w) && decide (240 ≤ q.cropHeight) && decide (q.cropHeight ≤ h)

/-- R276: the SPS permits output reordering. -/
def Sps.reorders (codec : Nat) (q : Sps) : Bool :=
  match q.reorder with
  | some n => decide (0 < n)
  | none => codec == 1 && !(q.profileIdc == 66 && q.constraintSet1)

/-- R276: an SPS activation: the first decoded picture, or an SPS of another id or content. -/
def activates (old : Option Sps) (q : Sps) : Bool :=
  match old with
  | some o => o.id != q.id || o.content != q.content
  | none => true

/-- R279: bytes of one stored sample. -/
def Sps.sampleBytes (q : Sps) : Nat := if 8 < q.depthLuma || 8 < q.depthChroma then 2 else 1

/-- R281: bytes of a stored picture. -/
def Sps.pictureBytes (q : Sps) : Nat := 3 * (q.width * q.height) / 2 * q.sampleBytes

/-! ### Blocks (R283, R289) -/

def Sps.cols (q : Sps) : Nat := q.width / max 1 q.blockSize
def Sps.blocks (q : Sps) : Nat := q.cols * (q.height / max 1 q.blockSize)

/-- A reference that the decoded picture buffer does not hold is absent (R289). -/
def StdBlock.misses (refs : List RefPicture) (b : StdBlock) : Bool := b.reads.any (fun r => !refs.any (fun p => p.key == r.1))

/-- R283, R289: the blocks of a slice that are decoded: those before its first error. -/
def StdSlice.decoded (refs : List RefPicture) (sl : StdSlice) : List StdBlock := sl.blocks.takeWhile (fun b => !b.misses refs)

/-- The address behind a slice's last decoded block. -/
def StdSlice.upTo (refs : List RefPicture) (sl : StdSlice) : Nat := sl.first + (sl.decoded refs).length

/-- The decoded block at each address, where there is one; a later slice wins. -/
def blockMap (refs : List RefPicture) (slices : List StdSlice) (n : Nat) : List (Option StdBlock) :=
  (List.range n).map (fun a => ((slices.reverse.find? (fun sl => decide (sl.first ≤ a) && decide (a < sl.upTo refs))).bind
    (fun sl => sl.blocks[a - sl.first]?)))

/-! ### Concealed samples (R284) -/

/-- The median of one to three components. -/
def medianUpTo3 : List Int → Int
  | [a] => a
  | [a, b] => if a = b then a else Config.medianOfTwo a b
  | [a, b, c] => max (min a b) (min (max a b) c)
  | _ => 0

/-- `v / n` in whole pixels, to the nearest. -/
def wholePixels (v : Int) (n : Nat) : Int := if 2 * v % (2 * n) = n then Config.halfPixel (2 * v / n) else (2 * v + n) / (2 * n)

/-- The vectors of the decoded, inter-coded left, above and above-right neighbours of a block. -/
def codedNeighbours (map : List (Option StdBlock)) (cols a : Nat) : List (Int × Int) :=
  let c := a % max 1 cols
  let at_ (ok : Bool) (k : Nat) : List (Int × Int) := if ok then ((nth none map k).bind (·.vector)).toList else []
  at_ (decide (0 < c)) (a - 1) ++ at_ (decide (cols ≤ a)) (a - cols) ++ at_ (decide (cols ≤ a) && decide (c + 1 < cols)) (a - cols + 1)

/-- R284: the displacement of a concealed block, in whole pixels. -/
def concealVector (map : List (Option StdBlock)) (cols a : Nat) : Int × Int :=
  let vs := codedNeighbours map cols a
  (wholePixels (medianUpTo3 (vs.map (·.1))) 4, wholePixels (medianUpTo3 (vs.map (·.2))) 4)

/-- A sample of a reference plane; outside the plane the spec names none. -/
def refSample (k : Nat) (plane : List (List Nat)) (x y : Int) : Nat :=
  if 0 ≤ x && 0 ≤ y then ((plane[y.toNat]?).bind (·[x.toNat]?)).getD (Config.outsideSample k x y) else Config.outsideSample k x y

/-- The plane of a stored picture: 0 luma, 1 Cb, 2 Cr. -/
def RawPicture.plane (p : RawPicture) (k : Nat) : List (List Nat) := if k = 0 then p.luma else if k = 1 then p.cb else p.cr

def StdBlock.plane (b : StdBlock) (k : Nat) : List (List Nat) := if k = 0 then b.luma else if k = 1 then b.cb else b.cr

/-- Half-way of a bit depth: 128 at 8 bits, 512 at 10. -/
def midSample (depth : Nat) : Nat := 2 ^ (depth - 1)

/-- One sample of plane `k` of the picture: of its decoded block, or concealed from the most recent reference picture. -/
def pictureSample (q : Sps) (refs : List RefPicture) (map : List (Option StdBlock)) (k x y : Nat) : Nat :=
  let sub := if k = 0 then 1 else 2
  let size := max 1 (q.blockSize / sub)
  let a := y / size * q.cols + x / size
  match nth none map a with
  | some b => planeAt (b.plane k) (x % size) (y % size)
  | none =>
    match refs.getLast? with
    | some r =>
      let v := concealVector map q.cols a
      refSample k (r.raw.plane k) (x + wholePixels v.1 sub) (y + wholePixels v.2 sub)
    | none => midSample (if k = 0 then q.depthLuma else q.depthChroma)

/-- The picture as stored: every block kept or concealed. -/
def rawPicture (q : Sps) (refs : List RefPicture) (map : List (Option StdBlock)) : RawPicture :=
  let plane (k sub : Nat) : List (List Nat) :=
    (List.range (q.height / sub)).map (fun y => (List.range (q.width / sub)).map (fun x => pictureSample q refs map k x y))
  { sps := q, luma := plane 0 1, cb := if q.chromaFormat = 0 then [] else plane 1 2, cr := if q.chromaFormat = 0 then [] else plane 2 2 }

/-! ### The picture that is analysed (R275, R273) -/

/-- R275: a sample of more than 8 bits as 8 bits, to the nearest and saturated. -/
def to8 (depth v : Nat) : Nat := if depth ≤ 8 then v else min 255 ((v + 2 ^ (depth - 9)) / 2 ^ (depth - 8))

/-- A window of a plane, as 8 bits. -/
def window8 (depth : Nat) (plane : List (List Nat)) (x y w h : Nat) : List (List Nat) :=
  (List.range h).map (fun j => (List.range w).map (fun i => to8 depth (planeAt plane (x + i) (y + j))))

/-- R275: the cropped picture with 8-bit samples; 4:0:0 has chroma 128. -/
def RawPicture.analysed (p : RawPicture) : Picture :=
  let q := p.sps
  let chroma (plane : List (List Nat)) : List (List Nat) :=
    if q.chromaFormat = 0 then List.replicate (q.cropHeight / 2) (List.replicate (q.cropWidth / 2) 128)
    else window8 q.depthChroma plane (q.cropLeft / 2) (q.cropTop / 2) (q.cropWidth / 2) (q.cropHeight / 2)
  { width := q.cropWidth, height := q.cropHeight, luma := window8 q.depthLuma p.luma q.cropLeft q.cropTop q.cropWidth q.cropHeight,
    cb := chroma p.cb, cr := chroma p.cr, matrix := q.matrix, fullRange := q.fullRange, codedHeight := q.height }

/-- R273, R284: a picture of `w` by `h` concealed whole: co-located from the most recent reference picture, 128 where there is none. -/
def concealedPicture (refs : List RefPicture) (w h : Nat) : Picture :=
  let plane (k : Nat) (w h : Nat) : List (List Nat) :=
    (List.range h).map (fun (y : Nat) => (List.range w).map (fun (x : Nat) => match refs.getLast? with
      | some r =>
        let p := r.raw.analysed
        refSample k (if k = 0 then p.luma else if k = 1 then p.cb else p.cr) x y
      | none => 128))
  { width := w, height := h, luma := plane 0 w h, cb := plane 1 (w / 2) (h / 2), cr := plane 2 (w / 2) (h / 2), matrix := none,
    fullRange := false, codedHeight := h }

/-! ### The concealment bitmap (R285, R286) -/

/-- Blocks of 64 x 64 of a picture. -/
def blockCount (w h : Nat) : Nat := ceilDiv w 64 * ceilDiv h 64

/-- The addresses of the macroblocks or CTUs that meet bit `k`'s block of 64 x 64 of the cropped picture. -/
def Sps.addressesIn (q : Sps) (k : Nat) : List Nat :=
  let per := ceilDiv q.cropWidth 64
  let x0 := q.cropLeft + 64 * (k % max 1 per)
  let y0 := q.cropTop + 64 * (k / max 1 per)
  let x1 := min (x0 + 64) (q.cropLeft + q.cropWidth)
  let y1 := min (y0 + 64) (q.cropTop + q.cropHeight)
  let size := max 1 q.blockSize
  (List.range q.blocks).filter (fun a =>
    let x := a % max 1 q.cols * size
    let y := a / max 1 q.cols * size
    decide (x < x1) && decide (x0 < x + size) && decide (y < y1) && decide (y0 < y + size))

/-- A prediction reads a block whose bit is set in its reference picture. -/
def StdBlock.tainted (refs : List RefPicture) (b : StdBlock) : Bool :=
  !b.intra && b.reads.any (fun r => refs.any (fun p => p.key == r.1 && nth false p.conceal r.2))

/-- R286. -/
def concealBitmap (q : Sps) (refs : List RefPicture) (map : List (Option StdBlock)) (clean : Bool) : List Bool :=
  (List.range (blockCount q.cropWidth q.cropHeight)).map (fun k => !clean && (q.addressesIn k).any (fun a =>
    match nth none map a with
    | some b => b.tainted refs
    | none => true))

/-! ### The decoder's motion vectors (R306) -/

/-- The vector of each 8 x 8 block of the cropped picture: that of the coded block that covers its centre. -/
def motionOf (q : Sps) (map : List (Option StdBlock)) : List (Option (Int × Int × Nat)) :=
  let per := ceilDiv q.cropWidth 8
  (List.range (per * ceilDiv q.cropHeight 8)).map (fun k =>
    let x := q.cropLeft + 8 * (k % max 1 per) + 4
    let y := q.cropTop + 8 * (k / max 1 per) + 4
    let size := max 1 q.blockSize
    (nth none map (y / size * q.cols + x / size)).bind (fun b => nth none b.motion (y % size / 4 * (size / 4) + x % size / 4)))

/-! ### The errors of a picture (R282, Table 7.6, Table 7.7) -/

/-- 1 for macroblocks, 2 for CTUs. -/
def blockUnitOf (codec : Nat) : Nat := if codec = 1 then 1 else 2

def noAddress : Nat := 0xFFFFFFFF

/-- What the errors of a picture are reckoned from. -/
structure Decoding where
  codec : Nat
  nals : List Nal
  std : StdPicture
  refs : List RefPicture
  map : List (Option StdBlock)
  deriving DecidableEq, Repr

/-- The first block from an address on that was not decoded. -/
def Decoding.undecoded (d : Decoding) (a : Nat) : Nat :=
  ((List.range d.map.length).find? (fun k => decide (a ≤ k) && (nth none d.map k).isNone)).getD noAddress

/-- An error at a place, with the slice that is under way there: the last one that begins before it. -/
def Decoding.errorAt (d : Decoding) (kind chunk offset : Nat) (slice : Option StdSlice) : DecodeErr :=
  { kind := kind, blockUnit := blockUnitOf d.codec, chunkIndex := chunk, byteOffset := offset,
    sliceAddress := (slice.map (·.first)).getD noAddress, blockAddress := d.undecoded ((slice.map (·.upTo d.refs)).getD 0) }

/-- The place of a byte of a NAL unit; one behind its end counts as its last byte. -/
def Decoding.placeOf (d : Decoding) (nal k : Nat) : Nat × Nat :=
  match d.nals[nal]? with
  | some n => match n.data[k]? <|> n.data.getLast? with
    | some b => (b.1, b.2.1)
    | none => (0, 0)
  | none => (0, 0)

/-- The chunk a slice begins in. -/
def Decoding.chunkOf (d : Decoding) (sl : StdSlice) : Nat := (d.placeOf sl.nal 0).1

/-- R264 to R267, R270: a loss cuts the slice before it short. -/
def Decoding.lossError (d : Decoding) (l : Loss) : DecodeErr :=
  d.errorAt l.2 l.1 0 ((d.std.slices.filter (fun sl => decide (d.chunkOf sl < l.1))).getLast?)

/-- A slice's own error: the first block whose reference is absent, else the syntax element that ends it, unless a loss took the rest. -/
def Decoding.sliceError (d : Decoding) (sl : StdSlice) : Option DecodeErr :=
  let found (kind k : Nat) : DecodeErr :=
    let p := d.placeOf sl.nal k
    { d.errorAt kind p.1 p.2 (some sl) with blockAddress := sl.upTo d.refs }
  match sl.blocks[(sl.decoded d.refs).length]? with
  | some b => some (found 3 b.at_)
  | none =>
    match sl.err, d.nals[sl.nal]? with
    | some e, some n => if n.cut && decide (n.data.length ≤ e.2) then none else some (found e.1 e.2)
    | some e, none => some (found e.1 e.2)
    | none, _ => none

/-- A picture that ended before all its blocks, in its last chunk. -/
def Decoding.truncatedError (d : Decoding) (chunks : Nat) : DecodeErr := d.errorAt 4 (chunks - 1) noAddress d.std.slices.getLast?

/-- Errors in the order of their places. -/
def errorBefore (a b : DecodeErr) : Bool :=
  decide (a.chunkIndex < b.chunkIndex) || (a.chunkIndex == b.chunkIndex && decide (a.byteOffset < b.byteOffset))

/-- What decoding makes of a picture: the errors of kinds 1 to 7 in order, and the picture with all that goes with it. -/
structure Decode where
  errors : List DecodeErr
  raw : Option RawPicture
  picture : Picture
  conceal : List Bool
  motion : List (Option (Int × Int × Nat))
  std : StdPicture
  params : List (List Byte)
  deriving DecidableEq, Repr

/-- The errors that decoding itself finds. -/
def Decoding.errors (d : Decoding) (chunks : Nat) (losses : List Loss) (truncated : Bool) : List DecodeErr :=
  let es := losses.map d.lossError ++ d.std.slices.filterMap d.sliceError ++
    if truncated then [d.truncatedError chunks] else []
  if es.isEmpty && d.map.any Option.isNone then [d.truncatedError chunks] else sortBy errorBefore es

/-- KIND 7 names no place in the data. -/
def unsupportedError : DecodeErr :=
  { kind := 7, blockUnit := 0, chunkIndex := 0, byteOffset := noAddress, sliceAddress := noAddress, blockAddress := noAddress }

/-- A picture that cannot be decoded at all: its whole area at the declared size is concealed (R273). -/
def wholeConcealed (d : Decoding) (w h : Nat) (errors : List DecodeErr) (params : List (List Byte)) : Decode :=
  { errors := errors, raw := none, picture := concealedPicture d.refs w h, conceal := List.replicate (blockCount w h) true, motion := [],
    std := d.std, params := params }

/-- The standard's reading of a picture's chunks. -/
def Stream.readPicture (x : Stream) (cs : List Chunk) (discontinuity endsCut : Bool) : Decoding :=
  let nals := picNals x.codec cs endsCut
  let refs := if discontinuity then [] else x.dpb
  let std := Config.decode x.codec x.paramSets (nals.map Nal.bytes) refs
  { codec := x.codec, nals := nals, std := std, refs := refs,
    map := match std.sps with
      | some q => blockMap refs std.slices q.blocks
      | none => [] }

/-- The SPS of a picture: the one its slices activate; of a picture of which no slice has come, that of the picture decoded last. -/
def Stream.spsFor (x : Stream) (d : Decoding) : Option Sps := if d.std.slices.isEmpty then x.activeSps else d.std.sps

/-- The SPS of a picture, if the module decodes under it (R272). -/
def Stream.goodSps (x : Stream) (d : Decoding) : Option Sps := (x.spsFor d).filter (fun q => q.conforms x.codec x.width x.height)

/-- The picture under a conforming SPS. One of which no slice has come is concealed whole and not stored (notes/assumptions/11.md). -/
def Decoding.finish (d : Decoding) (q : Sps) (errors : List DecodeErr) (params : List (List Byte)) : Decode :=
  let map := if d.map.isEmpty then List.replicate q.blocks none else d.map
  let raw := rawPicture q d.refs map
  { errors := errors, raw := if d.std.slices.isEmpty then none else some raw, picture := raw.analysed,
    conceal := concealBitmap q d.refs map (d.std.randomAccess && errors.isEmpty), motion := motionOf q map, std := d.std,
    params := params }

/-- The parameter sets received so far, the latest last. -/
def addParamSet (ps : List (List Byte)) (p : List Byte) : List (List Byte) := ps.filter (· != p) ++ [p]

/-- R272 to R289: a picture decoded, kept, concealed and judged. -/
def Stream.decodePicture (x : Stream) (f : Frame) : Decode :=
  let d := x.readPicture f.chunks f.discontinuity f.truncated
  let params := ((d.nals.map Nal.bytes).filter (isParamSet x.codec)).foldl addParamSet x.paramSets
  let found := d.errors f.chunks.length (lossesOf f.chunks f.noFirst) f.truncated
  match x.spsFor d with
  | none => wholeConcealed d x.width x.height (if found.isEmpty then [d.errorAt 2 0 noAddress none] else found) params
  | some q =>
    if q.conforms x.codec x.width x.height then d.finish q found params
    else wholeConcealed d x.width x.height [unsupportedError] params

/-- R276: the picture begins an activation of an SPS that permits reordering. -/
def Stream.reordered (x : Stream) (r : Decode) : Bool :=
  match r.raw with
  | some p => activates x.activeSps p.sps && p.sps.reorders x.codec
  | none => false

/-- Bytes of a picture's largest slice segment (R526). -/
def Decoding.largestSlice (d : Decoding) : Nat :=
  maxOf (d.std.slices.map (fun sl => ((d.nals[sl.nal]?).map (·.data.length)).getD 0))

end Sys2Proof.Machine
end

