-- ==== Sys2Proof/Machine/Stages.lean ====
section
/-! DEFINITION. The five stages of a frame (02_tick_commit.md, Table 2.1) as the commit that closes each applies them: decoding
with its errors and concealment (07_ingest_decode.md), capture times (03_time_reference.md), prepare, infer, post-process and
track. -/

namespace Sys2Proof.Machine

/-! ### The epoch vector (R76, R77, R366) -/

/-- A configured tenant's number and what `g` reads of it, for the owner and every subscriber of a stream. -/
def State.perReceiver {α : Type} (s : State) (x : Stream) (g : TenantSt → α) : List (Nat × α) :=
  ((tenantOf x.fn).toList.map (·.val) ++ x.subscribers).filterMap (fun t =>
    if h : t < 16 then some (t, g (s.tenantSt ⟨t, h⟩)) else none)

/-- R76: the versions in force after the commit that begins T+0. -/
def State.epochVector (s : State) (x : Stream) : EpochVector :=
  let ms := x.binding.filterMap (fun b => s.model? x.fn b.model)
  { tableEpoch := match tenantOf x.fn with
      | some t => (s.tenantSt t).tableEpoch
      | none => 0,
    subscribers := (s.perReceiver x (·.tableEpoch)).drop 1,
    quant := ms.map (fun m => (m.id, m.qepoch)), route := s.work.routeEpoch, binding := x.binding, zones := x.zones,
    lines := x.lines, rules := x.rules, streamFilter := x.filter, filters := s.perReceiver x (·.filter),
    formats := s.perReceiver x (·.format), motionMode := x.motionMode, cls := x.cls, frameRate := x.frameRate,
    images := ms.filterMap (fun m => m.current.map (fun i => (m.id, i))) }

/-- The primary model's image of a frame. -/
def EpochVector.primary (ev : EpochVector) : Option ModelImage :=
  ev.binding.head?.bind (fun b => (ev.images.find? (fun x => x.1 == b.model)).map (·.2))

def EpochVector.hasSecond (ev : EpochVector) : Bool := ev.binding.any (fun b => b.role == 1)

/-! ### The DECODE_ERROR of a picture (R282) -/

def setBits (bs : List Bool) : Nat := (bs.filter (· == true)).length

/-- Table 7.7. -/
def decodeDetail (f : Frame) (e : DecodeErr) (concealed : Nat) (alsoReordered : Bool) : List Byte :=
  let tag := match f.chunks[e.chunkIndex]? with
    | some c => c.desc.hostTag.toNat
    | none => 0
  le 1 e.kind ++ le 1 e.blockUnit ++ le 2 e.chunkIndex ++ le 4 e.byteOffset ++ le 4 tag ++ le 4 f.seq ++ le 4 e.sliceAddress ++
    le 4 e.blockAddress ++ le 2 concealed ++ le 1 (boolNat alsoReordered) ++ le 1 0

/-- R282: the one DECODE_ERROR of a picture. -/
def State.reportDecode (s : State) (x : Stream) (f : Frame) (errs : List DecodeErr) (reordered : Bool) (concealed : Nat) : State :=
  let tell (e : DecodeErr) (sev : Nat) (both : Bool) : State :=
    s.raiseFull x.fn 0x0201 sev 0xFFFF x.handle 0xFF (decodeDetail f e concealed both)
  match errs with
  | e :: _ => tell e 1 reordered
  | [] =>
    if reordered then
      tell { kind := 8, blockUnit := 0, chunkIndex := 0, byteOffset := 0xFFFFFFFF, sliceAddress := 0xFFFFFFFF,
             blockAddress := 0xFFFFFFFF } 0 false
    else s

/-! ### Capture time and uncertainty (03:R115-R121) -/

/-- R116: the capture time whose time within the day is given, nearest to a device time; a day before device time 0 gives way to
the next one. -/
def captureOfDay (ofDay bell : Int) : Nat :=
  let day : Int := 86400000000000
  let near := ofDay + (2 * (bell - ofDay) + day) / (2 * day) * day
  (if near < 0 then near % day else near).toNat

/-- The time within the day of a clock timestamp, in ns to the nearest. -/
def clockNs (c : Nat × Nat × Nat × Nat × Int) (t : Nat × Nat) : Int :=
  let units : Int := ((c.1 * 3600 + c.2.1 * 60 + c.2.2.1) * t.1 + c.2.2.2.1 * t.2 : Nat) + c.2.2.2.2
  (2 * units * 1000000000 + t.1) / (2 * max 1 t.1 : Nat)

/-- A capture time formed, its source uncertainty in ns, and whether R118 extrapolated it. -/
structure CaptureOf where
  capture : Option Nat
  source : Nat
  extrapolated : Bool
  deriving DecidableEq, Repr

/-- R118, R119: from the stream's last capture time, by whole frame periods at the rate of the frame's epoch vector (R252, R253;
notes/assumptions/169.md). -/
def Stream.extrapolate (x : Stream) (f : Frame) (base : Nat) : CaptureOf :=
  let n := f.seq - x.lastCaptureSeq
  match x.lastCapture with
  | some t =>
    if n ≤ 16 then { capture := some (t + n * 10 ^ 12 / max 1 f.ev.frameRate), source := base + 100000 * n, extrapolated := true }
    else { capture := none, source := 0, extrapolated := false }
  | none => { capture := none, source := 0, extrapolated := false }

/-- R115-R119: `std` is what the standard reads of the picture, none where it was not decoded. -/
def Stream.captureOf (x : Stream) (f : Frame) (std : Option StdPicture) : CaptureOf :=
  let none' : CaptureOf := { capture := none, source := 0, extrapolated := false }
  if x.seiSource then
    match (std.bind (·.sps)).bind (·.timing) with
    | some t =>
      if !f.timeState.getLsbD 2 then none'
      else match std.bind (·.clock) with
        | some c => { capture := some (captureOfDay (clockNs c t + x.timeCodeOffset) f.bellTime),
                      source := x.baseUncertainty + ceilDiv 1000000000 (max 1 t.1), extrapolated := false }
        | none => x.extrapolate f (x.baseUncertainty + ceilDiv 1000000000 (max 1 t.1))
    | none => none'
  else match f.chunks.head? with
    | some c =>
      if f.noFirst then none'
      else if c.desc.captureValid then { capture := some c.desc.capture, source := 8 * c.desc.uncertainty, extrapolated := false }
      else x.extrapolate f x.lastCaptureUnc
    | none => none'

/-- R120, R121: the encoded uncertainty. -/
def Frame.uncertaintyOf (f : Frame) (c : CaptureOf) : Nat :=
  if c.capture.isNone then 0xFFFF else encodeUnc (f.uDev.map (fun u => u + c.source * 10 ^ 10))

/-- Table 3.3, bits 4 to 6. -/
def Frame.captureBits (f : Frame) (sei : Bool) (c : CaptureOf) : Byte :=
  f.timeState ||| BitVec.ofNat 8 (16 * boolNat sei + 32 * boolNat c.extrapolated + 64 * boolNat c.capture.isNone)

/-- The stream's last capture time after a frame. -/
def Stream.noteCapture (x : Stream) (f : Frame) (c : CaptureOf) : Stream :=
  if c.extrapolated || c.capture.isNone then x
  else { x with lastCapture := c.capture, lastCaptureUnc := c.source, lastCaptureSeq := f.seq }

/-! ### The commit that closes T+0 -/

/-- R122, R119: a picture that ends without being decoded: its capture time is what its descriptors give. -/
def Stream.undecoded (x : Stream) (f : Frame) : Frame :=
  let c := x.captureOf f none
  { f with capture := c.capture, uncertainty := f.uncertaintyOf c, timeState := f.captureBits x.seiSource c }

/-- The ring positions of a picture's descriptors. -/
def Frame.positions (f : Frame) : List Nat :=
  let a := (f.chunks.head?.map (fun c => c.desc.pos)).getD f.lastPos
  (List.range (f.lastPos + 1 - a)).map (· + a)

/-- R207: the module is done with ring positions of a stream's ingest ring. -/
def State.doneWith (s : State) (x : Stream) (ps : List Nat) : State :=
  s.modQueue x.fn x.ingestSlot (fun q => ps.foldl Queue.complete q)

/-- R271: a picture's chunk buffers are released and its descriptors consumed. -/
def State.endChunks (s : State) (x : Stream) (f : Frame) : State :=
  (s.freeBuffers (s.partOf x.fn) (chunkBuffers f.chunks)).doneWith x f.positions

/-- R279: pictures kept as references behind a decoded one, at most 16. -/
def keepRefs (old : List RefPicture) (new : RefPicture) (kept : List Nat) : List RefPicture :=
  let all := (old.filter (fun p => kept.contains p.key)) ++ if kept.contains new.key then [new] else []
  all.drop (all.length - 16)

/-- R279, R289: the decoded picture buffer behind a picture: a picture not decoded leaves it as it was, but for what a DISCONTINUITY on its
FIRST has taken (R267). -/
def Stream.refsAfter (x : Stream) (f : Frame) (r : Decode) : List RefPicture :=
  let refs := if f.discontinuity then [] else x.dpb
  match r.raw with
  | some p => keepRefs refs { seq := f.seq, key := r.std.key, conceal := r.conceal, raw := p, buffer := f.buffer } r.std.kept
  | none => refs

/-- What T+0 makes of a stream and its frame. -/
structure Decoded where
  stream : Stream
  frame : Frame
  errors : List DecodeErr
  reordered : Bool
  deriving DecidableEq, Repr

def Stream.decodeStage (x : Stream) (f0 : Frame) : Decoded :=
  let f := { f0 with chunks := lateChunks f0.chunks }
  let r := x.decodePicture f
  let cap := x.captureOf f (some r.std)
  let f := { f with
    stage := .prepare, picture := some r.picture, motion := r.motion, conceal := r.conceal,
    concealKind := ((r.errors.head?).map (·.kind)).getD (if x.reordered r then 8 else 0), concealedBlocks := setBits r.conceal,
    capture := cap.capture, uncertainty := f.uncertaintyOf cap, timeState := f.captureBits x.seiSource cap }
  { stream := { x.noteCapture f cap with
      dpb := x.refsAfter f r, activeSps := (r.raw.map (·.sps)) <|> x.activeSps, paramSets := r.params },
    frame := f, errors := r.errors, reordered := x.reordered r }

/-! ### The commits that close T+1 to T+4 -/

/-- R290-R309: the input tensor and the motion field; the luma becomes the motion reference. -/
def Stream.prepareStage (x : Stream) (f : Frame) : Stream × Frame :=
  let pic := f.picture.getD default
  let input := (f.ev.primary.map (fun i => prepareTensor i.input pic)).getD []
  let map := (f.ev.primary.map (fun i => tensorMap i.input pic)).getD default
  let field := motionField f.seq f.ev.motionMode pic f.conceal f.motion x.prevField (if f.discontinuity then none else x.motionRef)
  ({ x with motionRef := some { seq := f.seq, capture := f.capture, luma := pic.luma, conceal := f.conceal },
            prevField := some field },
   { f with stage := .infer, input := input, map := map, field := some field,
            buffer := if f.ev.hasSecond then f.buffer else none })

/-- R296, R351, R361: the output tensors, and with them the counters and the tile SRAM of the stage. -/
def Frame.inferStage (f : Frame) : Frame × InferOut :=
  if f.invalid.isSome then ({ f with stage := .post, buffer := none }, { outputs := [], stats := [], srams := [] })
  else
    let r := inferFrame f.ev f.t0 (f.picture.getD default) f.map f.input
    ({ f with stage := .post, outputs := r.outputs, buffer := none }, r)

/-- The physical tiles of a frame's stage, job by job (R351). -/
def Frame.tiles (f : Frame) : List Nat := (f.units.filter (fun u => u.kind == .facetTile)).map (·.num)

/-- What a job wrote stands in the tile it ran on (R319), which its function used last (R192). -/
def Dram.leaveJob (d : Dram) (fn : Fn) (tile : Nat) (m : JobMem) : Dram :=
  { d with sram := m.foldr (fun x sram => Memory.set sram (tile * 2 ^ 23 + x.1) x.2) d.sram,
           sramUsers := (tile, fn) :: d.sramUsers.filter (fun u => u.1 != tile) }

/-- What a frame's jobs wrote stands in the tiles its plan gave them. -/
def Dram.leaveJobs (d : Dram) (fn : Fn) (tiles : List Nat) (srams : List (Nat × JobMem)) : Dram :=
  srams.foldl (fun d x => match tiles[x.1]? with
    | some t => d.leaveJob fn t x.2
    | none => d) d

/-- The primary model's head tensors of a frame. -/
def Frame.tensors (f : Frame) (heads : Nat) : List (List Byte) :=
  (List.range heads).map (fun k => ((f.outputs.find? (fun o => o.1 == primaryKey k)).map (·.2)).getD [])

/-- R377-R392: detections, summaries and alerts, with the tracker state staged. `room` is what R386 leaves the stream. -/
def Stream.postStage (x : Stream) (f : Frame) (room : Nat) : Frame :=
  match f.ev.primary with
  | some i =>
    if f.invalid.isSome then { f with stage := .emit }
    else
      let ts := f.tensors i.heads.length
      let kept := keptAll i ts f.map
      let o := trackFrame
        { heads := i.heads, zones := f.ev.zones, lines := f.ev.lines, rules := f.ev.rules, frameRate := f.ev.frameRate,
          seq := f.seq, t0 := f.t0, capture := f.capture, field := f.field, conceal := f.conceal,
          width := (f.picture.getD default).width, room := room } x.tracker kept (attributes f.ev f.outputs)
      { f with stage := .emit, dets := o.dets, summaries := summariesOf i.heads ts f.map f.ev.zones, alerts := o.alerts,
               suppressed := o.suppressed, totalDets := kept.length, staged := some o.tracker }
  | none => { f with stage := .emit }

/-! ### Safe state (16:R539, R545, R564) -/

/-- The cause the records of a stream in its safe state carry; none outside the safe state. -/
def State.safeCause (s : State) (x : Stream) : Option Nat :=
  if s.safety.arraysStopped then some 6
  else if s.safety.halts.any (fun h => h.partition == s.partOf x.fn) ||
      s.safety.reloading.any (fun r => (s.rowsOf (s.partOf x.fn)).contains r.1) then some 7
  else x.safe

/-- A frame as the safe state of its stream marks it (R539). -/
def State.mark (s : State) (x : Stream) (f : Frame) : Frame := { f with invalid := f.invalid <|> s.safeCause x }

/-! ### How a frame ends (R405, R539) -/

/-- A frame's end with an outcome and cause, without detections. -/
def Frame.short (f : Frame) (x : Stream) (outcome cause : Nat) (invalid : Bool) : Ended :=
  { handle := x.handle, fn := x.fn, metadataSlot := x.metadataSlot, seq := f.seq, t0 := f.t0, ev := f.ev, timeState := f.timeState,
    capture := f.capture.getD 0,
    uncertainty := f.uncertainty, outcome := outcome, cause := cause, deferTicks := f.deferTicks, invalid := invalid,
    concealKind := f.concealKind, concealedBlocks := f.concealedBlocks, dets := [], summaries := [], alerts := [],
    suppressed := 0, totalDets := 0 }

/-- A frame SKIPPED with a cause; within a safe state its record is that of R539. -/
def Frame.skip (f : Frame) (x : Stream) (cause : Nat) : Ended :=
  match f.invalid with
  | some c => f.short x 2 c true
  | none => f.short x 2 cause false

/-- A frame that passed T+4. -/
def Frame.served (f : Frame) (x : Stream) : Ended :=
  match f.invalid with
  | some c => f.short x 2 c true
  | none =>
    { f.short x (if f.deferTicks = 0 then 0 else 1) (if f.deferTicks = 0 then 0 else f.cause) false with
      dets := f.dets, summaries := f.summaries, alerts := f.alerts, suppressed := f.suppressed, totalDets := f.totalDets }

/-- A frame before the commit that makes it the motion reference, whose FIRST descriptor carried DISCONTINUITY (R309). -/
def Frame.breaksMotion (f : Frame) : Bool := f.discontinuity && (f.stage == .decode || f.stage == .prepare)

/-- A frame of a stream leaves the pipeline. -/
def Stream.removeFrame (x : Stream) (seq : Nat) : Stream :=
  { x with frames := x.frames.filter (fun f => f.seq != seq),
           motionRef := if x.frames.any (fun f => f.seq == seq && f.breaksMotion) then none else x.motionRef }

/-- A frame leaves the pipeline; its record is due at this commit. -/
def State.endFrame (s : State) (handle seq : Nat) (e : Ended) : State :=
  let s := s.modStream handle (fun x => x.removeFrame seq)
  s.withWork { s.work with ended := s.work.ended ++ [e] }

/-- Replaces a frame of a stream. -/
def Stream.setFrame (x : Stream) (f : Frame) : Stream := { x with frames := updWhere (fun g => g.seq == f.seq) (fun _ => f) x.frames }

/-! ### Closing one frame's stage -/

/-- R410: the owner's ring has an open gap. -/
def State.gapOpen (s : State) (x : Stream) : Bool :=
  match s.queue? x.fn x.metadataSlot with
  | some q => !q.gaps.isEmpty
  | none => false

/-- Track entries a stream holds: those committed, or those that a frame of it has staged for its T+4. -/
def Stream.heldTracks (x : Stream) : Nat :=
  maxOf (x.tracker.tracks.length :: x.frames.filterMap (fun f => f.staged.map (·.tracks.length)))

/-- R386: track entries a stream may hold: its own 256 and, up to 512, what no stream has reserved and none holds. Streams close their T+3
by ascending handle within a commit, so a lower handle takes first. -/
def State.trackRoom (s : State) (x : Stream) : Nat :=
  let p := s.partOf x.fn
  let peers := s.work.streams.filter (fun y => s.partOf y.fn == p)
  let extras := sumOf ((peers.filter (fun y => y.handle != x.handle)).map (fun y => y.heldTracks - 256))
  min 512 (256 + (8192 * (s.rowsOf p).length - 256 * peers.length - extras))

/-- T+0 closes: the picture stands, its chunks are done with, its error is reported, and a gap of the owner's ring ends it
(R410). -/
def State.closeDecode (s : State) (x : Stream) (f : Frame) : State :=
  let d := x.decodeStage f
  let s := (s.endChunks x d.frame).modStream x.handle (fun _ => d.stream.setFrame d.frame)
  let s := if d.errors.isEmpty && !d.reordered then s else s.reportDecode x d.frame d.errors d.reordered d.frame.concealedBlocks
  if s.gapOpen x then s.endFrame x.handle f.seq ((s.mark x d.frame).skip x 5) else s

def State.closePrepare (s : State) (x : Stream) (f : Frame) : State :=
  let r := x.prepareStage f
  s.modStream x.handle (fun _ => r.1.setFrame r.2)

/-- T+2 closes: tile SRAM holds what the programs left there, and counters join the models whose quantization epoch the frame used
(10:R362). -/
def State.closeInfer (s : State) (x : Stream) (f : Frame) : State :=
  let r := f.inferStage
  let s := s.modStream x.handle (fun x => x.setFrame r.1)
  let s := { s with dram := s.dram.leaveJobs x.fn f.tiles r.2.srams }
  f.ev.quant.eraseDups.foldl (fun s q => s.modModel x.fn q.1 (fun m => m.gather q.2 (r.2.stats.filter (fun b => b.model == q.1)))) s

def State.closePost (s : State) (x : Stream) (f : Frame) : State :=
  s.modStream x.handle (fun _ => x.setFrame (x.postStage f (s.trackRoom x)))

/-- T+4 closes: tracker, zone and rule state commits, and the record is due; in the safe state none of that state advances
(R539). -/
def State.closeEmit (s : State) (x : Stream) (f : Frame) : State :=
  let f := s.mark x f
  let s := match f.invalid, f.staged with
    | none, some t => s.modStream x.handle (fun x => { x with tracker := t })
    | _, _ => s
  s.endFrame x.handle f.seq (f.served x)

def State.closeStage (s : State) (x : Stream) (f : Frame) : State :=
  match f.stage with
  | .decode => s.closeDecode x f
  | .prepare => s.closePrepare x f
  | .infer => s.closeInfer x f
  | .post => s.closePost x f
  | .emit => s.closeEmit x f

/-- The pictures of a stream that lost their last mark are released (R281). -/
def State.dropPictures (s : State) (handle : Nat) (before : List Nat) : State :=
  match s.stream? handle with
  | some x => s.freeBuffers (s.partOf x.fn) (before.filter (fun b => !x.pictureBuffers.contains b))
  | none => s

/-- The frame results of one stream at a commit (R70, step 6). -/
def State.closeStream (s : State) (handle : Nat) : State :=
  match s.stream? handle with
  | some x =>
    let before := x.pictureBuffers
    let s := (x.frames.filter (fun f => !f.idle && f.withdrawn.isNone)).foldl (fun s f =>
      match s.stream? handle with
      | some y => s.closeStage y f
      | none => s) s
    s.dropPictures handle before
  | none => s

def State.frameResults (s : State) : State := (s.work.streams.map (·.handle)).foldl State.closeStream s

end Sys2Proof.Machine
end

