-- ==== Sys2Proof/Machine/Records.lean ====
section
/-! DEFINITION. The issue step (02:R65, R66): metadata records with their gaps and retractions (11_detections_records.md,
R396-R410), record CRC faults (16:R541), completions, index writebacks, clasp mirrors, heartbeats and MSI-X messages; and the
bytes each of them has in host memory. -/

namespace Sys2Proof.Machine

/-! ### Receivers of a frame's records (R78, R396) -/

/-- A ring that receives a frame's records, with its tenant's versions from the frame's epoch vector. -/
structure Receiver where
  fn : Fn
  slot : Nat
  epoch : Nat
  filter : BitVec 256
  format : RecordFormat
  subscribed : Bool
  deriving DecidableEq, Repr

def EpochVector.formatOf (ev : EpochVector) (t : Nat) : RecordFormat :=
  ((ev.formats.find? (fun x => x.1 == t)).map (·.2)).getD RecordFormat.default

def EpochVector.filterOf (ev : EpochVector) (t : Nat) : BitVec 256 :=
  ((ev.filters.find? (fun x => x.1 == t)).map (·.2)).getD (BitVec.allOnes 256)

/-- The owner receives on the stream's metadata ring. -/
def ownReceiver (owner : Fn) (slot : Nat) (ev : EpochVector) : Receiver :=
  { fn := owner, slot := slot, epoch := ev.tableEpoch % 2 ^ 32,
    filter := ev.streamFilter.getD (ev.filterOf owner.val), format := ev.formatOf owner.val, subscribed := false }

/-- R396: a subscriber receives while its INBOUND entry holds a METADATA queue. -/
def State.subReceiver? (s : State) (owner : Fn) (ev : EpochVector) (sub : Nat × Nat) : Option Receiver :=
  if h : sub.1 < 16 then
    let f := fnOf ⟨sub.1, h⟩
    let slot := nth 0xFFFF (ev.formatOf sub.1).inbound owner.val
    match s.queue? f slot with
    | some q =>
      if q.qtype == .metadata then
        some { fn := f, slot := slot, epoch := sub.2 % 2 ^ 32, filter := ev.filterOf sub.1, format := ev.formatOf sub.1,
               subscribed := true }
      else none
    | none => none
  else none

def State.receivers (s : State) (owner : Fn) (slot : Nat) (ev : EpochVector) : List Receiver :=
  ownReceiver owner slot ev :: ev.subscribers.filterMap (s.subReceiver? owner ev)

/-! ### Forming records (R393, R394, R398-R401) -/

/-- R398: ring entries of a record with `n` detection and summary entries. -/
def recordEntries (n : Nat) : Nat := ceilDiv (64 + 32 * n) 64

/-- The detections a receiver's class filter and TENTATIVE flag let through. -/
def Receiver.passing (r : Receiver) (e : Ended) : List Detection :=
  e.dets.filter (fun d => r.filter.getLsbD d.cls && (d.trackState != 0 || bitOf r.format.flags 0))

def Receiver.summaries (r : Receiver) (e : Ended) : List Summary := if bitOf r.format.flags 1 then e.summaries else []

/-- R401: detections a ring of `entries` entries lets a record hold beside its summaries. -/
def detectionRoom (entries sums : Nat) : Nat := 2 * (entries - 1) - 2 - sums

/-- R401: the detections of a receiver's record. -/
def Receiver.listed (r : Receiver) (e : Ended) (entries : Nat) : List Detection :=
  (r.passing e).take (min r.format.maxDetections (detectionRoom entries (r.summaries e).length))

def Receiver.alerts (r : Receiver) (e : Ended) : List AlertNote := e.alerts.filter (fun a => r.filter.getLsbD a.det.cls)

/-- Table 11.6. -/
def recordHead (e : Ended) (r : Receiver) (type seq : Nat) (truncated : Bool) (specific : List Byte) : RecordHead :=
  { recordType := type, timeState := e.timeState, stream := e.handle, recordSeq := seq, frameSeq := e.seq,
    capture := e.capture, tick := e.t0, tableEpoch := r.epoch, quantEpoch := ((e.ev.quant.head?.map (·.2)).getD 0) % 2 ^ 32,
    uncertainty := e.uncertainty, outcome := e.outcome, cause := e.cause, deferTicks := min 255 e.deferTicks,
    flags := boolNat truncated + 2 * boolNat r.subscribed + 4 * boolNat e.invalid, concealKind := e.concealKind,
    concealedBlocks := e.concealedBlocks, totalDetections := e.totalDets, specific := specific }

/-- The FRAME record of a receiver whose ring has `entries` entries. -/
def frameRecord (e : Ended) (r : Receiver) (entries seq : Nat) : Record :=
  let ds := r.listed e entries
  .frame (recordHead e r 1 seq (decide (ds.length < (r.passing e).length))
      (le 2 (r.alerts e).length ++ le 2 e.suppressed)) ds (r.summaries e)

/-- An ALERT record. -/
def alertRecord (e : Ended) (r : Receiver) (a : AlertNote) (seq : Nat) : Record :=
  .alert (recordHead e r 2 seq false (le 2 a.code ++ le 1 a.target ++ le 1 a.row)) a.det

/-- Ring entries of a record (R398, R403). -/
def Record.entries : Record → Nat
  | .frame _ ds ss => recordEntries (ds.length + ss.length)
  | .alert _ _ => recordEntries 1
  | .gap _ _ _ _ => 1
  | .retraction _ _ _ _ => 1

/-- R541: the record host port B writes in place of one whose CRC is wrong. -/
def Record.replaced : Record → Record
  | .frame h _ _ => .frame { h with flags := h.flags ||| 4, outcome := 2, cause := 7 } [] []
  | .alert h _ => .frame { h with flags := h.flags ||| 4, outcome := 2, cause := 7 } [] []
  | .gap g q t n => blankFrame 3 g.stream q t n
  | .retraction r q t n => blankFrame 4 r.stream q t n
where
  blankFrame (type stream seq : Nat) (t : Byte) (tick : Nat) : Record :=
    .frame { recordType := type, timeState := t, stream := stream, recordSeq := seq, frameSeq := 0, capture := 0, tick := tick,
             tableEpoch := 0, quantEpoch := 0, uncertainty := 0, outcome := 2, cause := 7, deferTicks := 0, flags := 4,
             concealKind := 0, concealedBlocks := 0, totalDetections := 0, specific := le 4 0 } [] []

/-! ### Writing and missing records (R402, R407, R408, R559, R560) -/

/-- R402: the ring forms a record. -/
def Queue.form (q : Queue) : Queue :=
  { q with recordSeq := (q.recordSeq + 1) % 2 ^ 32, audit := { q.audit with formed := q.audit.formed + 1 } }

def Queue.wrote (q : Queue) (n : Nat) : Queue :=
  { q with prod := q.prod + n,
           audit := { q.audit with advanced := q.audit.advanced + n, writtenEntries := q.audit.writtenEntries + n,
                                   written := q.audit.written + 1 } }

/-- R407: a missed record opens a gap of its stream or extends the one open. -/
def Queue.miss (q : Queue) (stream first last seq : Nat) (alert : Bool) : Queue :=
  let gaps := if q.gaps.any (fun g => g.stream == stream) then
      updWhere (fun g => g.stream == stream)
        (fun g => { g with firstFrame := min g.firstFrame first, lastFrame := max g.lastFrame last, lastMissed := seq,
                           missed := g.missed + 1, missedAlerts := g.missedAlerts + boolNat alert }) q.gaps
    else q.gaps ++ [{ stream := stream, firstFrame := first, lastFrame := last, firstMissed := seq, lastMissed := seq,
                      missed := 1, missedAlerts := boolNat alert }]
  { q with gaps := gaps, audit := { q.audit with missed := q.audit.missed + 1 } }

/-- Records posted so far in this issue step: the place of the next one. -/
def State.postedRecords (s : State) : Nat := (s.host.issue.filter isRecord).length
where
  isRecord : Posted → Bool
    | .record _ _ _ _ _ => true
    | .event _ _ _ _ _ => false
    | .auditOut _ _ _ => false
    | .sampleData _ _ _ => false
    | .sample _ _ _ _ _ => false
    | .completion _ _ _ _ _ _ => false
    | .writeback _ _ _ _ => false
    | .mirror _ _ _ => false
    | .heartbeat _ _ _ => false
    | .msix _ _ => false

/-- R541: a wrong record CRC is a fault of the record's frame, detected in the issue step. -/
def State.crcFault (s : State) (stream seq : Nat) : State :=
  s.withSafety { s.safety with faults := s.safety.faults ++
    [{ cls := some .recordCrc, handle := stream, seq := seq, unit := ⟨.hostPortB, 0⟩, stateLost := false, column := none }] }

/-- Writes a record that fits: `bad` holds the places whose CRC host port B finds wrong. -/
def State.postRecord (s : State) (bad : List Nat) (q : Queue) (stream frameSeq : Nat) (r : Record) : State :=
  let wrong := bad.contains s.postedRecords
  let r := if wrong then r.replaced else r
  let s := s.modQueue q.fn q.slot (fun q => q.form.wrote r.entries)
  let s := s.withHost { s.host with issue := s.host.issue ++ [.record q.fn q.slot (q.prod % q.entries) (s.entryAddr q q.prod) r] }
  if wrong then s.crcFault stream frameSeq else s

/-- R407: a record of a stream for a ring is written when it fits, else missed; R185: a write that no window takes is one to a full ring. -/
def State.offer (s : State) (bad : List Nat) (q : Queue) (stream first last : Nat) (alert : Bool) (r : Record) : State × Bool :=
  if r.entries ≤ s.writable q then (s.postRecord bad q stream first r, true)
  else ((s.ringFault q).modQueue q.fn q.slot (fun x => x.form.miss stream first last x.recordSeq alert), false)

/-- R559, R560: a RETRACTION; a missed one is kept, to be formed again behind the ring's GAP records. -/
def State.offerRetraction (s : State) (bad : List Nat) (r : Retraction) : State :=
  match s.queue? r.fn r.slot with
  | some q =>
    let o := s.offer bad q r.stream r.firstFrame r.lastFrame false (.retraction r q.recordSeq s.clk.stateByte s.clk.tick)
    if o.2 then o.1 else o.1.modQueue r.fn r.slot (fun q => { q with missedRetractions := q.missedRetractions ++ [r] })
  | none => s

/-- R408: the GAP records of a ring, once it has room for them all; then the missed retractions again. -/
def State.writeGaps (s : State) (bad : List Nat) (f : Fn) (slot : Nat) : State :=
  match s.queue? f slot with
  | some q =>
    if q.gaps.isEmpty || s.writable q < q.gaps.length then s
    else
      let put (s : State) (g : Gap) : State :=
        match s.queue? f slot with
        | some q => s.postRecord bad q g.stream g.firstFrame (.gap g q.recordSeq s.clk.stateByte s.clk.tick)
        | none => s
      let s := (sortBy (fun (a b : Gap) => decide (a.stream < b.stream)) q.gaps).foldl put s
      let s := s.modQueue f slot (fun q => { q with gaps := [], missedRetractions := [] })
      q.missedRetractions.foldl (fun s r => s.offerRetraction bad r) s
  | none => s

/-- GAP_WRITE (R408) as a step of its own, of the coming commit's issue step. -/
def execGapWrite (i : RingIn) (s : State) : Out :=
  .next (if s.isReady then s.issueAhead (fun s => s.writeGaps [] i.fn i.slot.toNat) else s)

/-- A FRAME or ALERT written to a ring is remembered for retraction. -/
def State.remember (s : State) (q : Queue) (e : Ended) (seq : Nat) : State :=
  s.withHost { s.host with delivered := s.host.delivered ++
    [{ fn := q.fn, slot := q.slot, stream := e.handle, frameSeq := e.seq, recordSeq := seq, t0 := e.t0, commit := s.clk.tick }] }

/-- R407: one record of step 3: missed while any gap of the ring is open. -/
def State.offerFrame (s : State) (bad : List Nat) (r : Receiver) (e : Ended) (alert : Bool) (make : Nat → Nat → Record) : State :=
  match s.queue? r.fn r.slot with
  | some q =>
    if !q.gaps.isEmpty then s.modQueue q.fn q.slot (fun x => x.form.miss e.handle e.seq e.seq x.recordSeq alert)
    else
      let o := s.offer bad q e.handle e.seq e.seq alert (make q.entries q.recordSeq)
      if o.2 then o.1.remember q e q.recordSeq else o.1
  | none => s

/-- A frame's ALERT records, then its FRAME record, for one receiver (R406). -/
def State.deliver (s : State) (bad : List Nat) (e : Ended) (r : Receiver) : State :=
  let s := (r.alerts e).foldl (fun s a => s.offerFrame bad r e true (fun _ seq => alertRecord e r a seq)) s
  s.offerFrame bad r e false (frameRecord e r)

/-- R406, step 3, for one ring. -/
def State.deliverTo (s : State) (bad : List Nat) (ended : List Ended) (f : Fn) (slot : Nat) : State :=
  ended.foldl (fun s e =>
    ((s.receivers e.fn e.metadataSlot e.ev).filter (fun r => r.fn == f && r.slot == slot)).foldl (fun s r => s.deliver bad e r) s) s

/-- R406: the records of one metadata ring. -/
def State.ringRecords (s : State) (bad : List Nat) (ended : List Ended) (f : Fn) (slot : Nat) : State :=
  let s := s.writeGaps bad f slot
  let s := (s.host.retractions.filter (fun r => r.fn == f && r.slot == slot)).foldl (fun s r => s.offerRetraction bad r) s
  s.deliverTo bad ended f slot

/-- R406: the frames of a commit by ascending handle, then frame sequence. -/
def endedOrder (es : List Ended) : List Ended :=
  sortBy (fun (a b : Ended) => decide (a.handle < b.handle) || (a.handle == b.handle && decide (a.seq < b.seq))) es

/-- The record writes of a commit. Deliveries are remembered for 100 ticks (16:R552). -/
def State.issueRecords (s : State) (bad : List Nat) : State :=
  let ended := endedOrder s.work.ended
  let rings := s.host.queues.filter (fun q => q.qtype == .metadata)
  let s := rings.foldl (fun s q => s.ringRecords bad ended q.fn q.slot) s
  let s := s.withWork { s.work with ended := [] }
  s.withHost { s.host with retractions := [],
                           delivered := s.host.delivered.filter (fun d => decide (s.clk.tick ≤ d.commit + 100)) }

/-! ### Events (R242), audit and sample output, completions (R219, R226, R241) -/

/-- The events of a commit, stamped with its time. -/
def State.issueEvents (s : State) : State :=
  allFns.foldl (fun s f => (s.modFn f (fun x => x.stamp s.clk)).writeEvents f) s

/-- The function that output formed for the host belongs to. -/
def Posted.fn : Posted → Fn
  | .record f _ _ _ _ => f
  | .event f _ _ _ _ => f
  | .auditOut f _ _ => f
  | .sampleData f _ _ => f
  | .sample f _ _ _ _ => f
  | .completion f _ _ _ _ _ => f
  | .writeback f _ _ _ => f
  | .mirror f _ _ => f
  | .heartbeat f _ _ => f
  | .msix f _ => f

/-- Output that goes to host memory at given addresses; what the module may not issue for its function yet waits (R187). -/
def State.issueData (s : State) : State :=
  let may (p : Posted) : Bool := s.mayIssue p.fn
  s.withHost { s.host with
    issue := s.host.issue ++ s.host.auditOut.filter may ++ s.host.sampleOut.filter may,
    auditOut := s.host.auditOut.filter (fun p => !may p), sampleOut := s.host.sampleOut.filter (fun p => !may p) }

/-- R219, Table 6.10: what the commit of a command's effect adds to its completion at the end of its apply step: the tenant's table epoch
and, for CLASP_SIGNAL, the clasp's value after the commit. -/
def State.sealCompletion (s : State) (c : PendingCompletion) : PendingCompletion :=
  if c.body.tick == s.clk.tick then
    { c with body := { c.body with
        tableEpoch := s.completionEpoch c.fn,
        result := match c.clasp.bind s.claspOf with
          | some k => fit 32 (le 8 k.value)
          | none => c.body.result } }
  else c

def State.sealCompletions (s : State) : State :=
  s.withHost { s.host with completions := s.host.completions.map s.sealCompletion }

/-- One completion: written, kept while its ring cannot take it, or dropped with its ring. -/
def State.issueCompletion (s : State) (c : PendingCompletion) : State :=
  match s.queueId? c.ring with
  | some q =>
    if s.writable q = 0 then (s.ringFault q).withHost { (s.ringFault q).host with completions := s.host.completions ++ [c] }
    else
      let s := s.modQueueId c.ring (fun q => { q with prod := q.prod + 1 })
      s.withHost { s.host with issue := s.host.issue ++
        [.completion q.fn q.slot (q.prod % q.entries) (s.entryAddr q q.prod) (q.phaseAt q.prod) c.body] }
  | none => s

def State.issueCompletions (s : State) : State :=
  let cs := s.host.completions
  cs.foldl State.issueCompletion (s.withHost { s.host with completions := [] })

/-! ### Index writebacks, mirrors, thresholds, messages (R210, R216, R237, R238, R171-R173) -/

/-- The module-owned index of a queue, as an absolute count. -/
def Queue.owned (q : Queue) : Nat := if q.hostProduced then q.cons else q.prod

/-- R210: the writeback of a queue whose module-owned index changed. -/
def State.issueWriteback (s : State) (q : Queue) : State :=
  if q.shown == q.owned || !s.mayIssue q.fn then s
  else
    let s := s.modQueue q.fn q.slot (fun q => { q with shown := q.owned })
    if q.indexAddr = 0 then s
    else s.postAt q.fn q.slot q.indexAddr 8 (fun a => .writeback q.fn a (q.owned % q.entries) (s.clk.tick % 2 ^ 32))

/-- R216: a wake is due: an entry lies beyond INDEX, or the consumer index has reached it. -/
def Queue.wakeDue (q : Queue) (t : Nat) : Bool := if q.hostProduced then decide (t ≤ q.cons) else decide (t < q.prod)

/-- R216: the messages a queue's wakes owe. -/
def State.issueWakes (s : State) (q : Queue) : State :=
  if q.wakes.any q.wakeDue then
    (s.modQueue q.fn q.slot (fun q => { q with wakes := q.wakes.filter (fun t => !q.wakeDue t) })).oweMsix q.fn q.vector
  else s

/-- R237: the mirror of a clasp whose value changed, where a window takes it (R184). -/
def State.issueMirror (s : State) (c : Clasp) : State :=
  let s := s.modClasp c.id (fun c => { c with changed := false })
  if c.changed && c.mirror != 0 && s.mayIssue c.fn then
    s.postAt c.fn 0xFFFF c.mirror 8 (fun a => .mirror c.fn a c.value)
  else s

/-- R238: an armed clasp at or above its threshold. -/
def State.fireThreshold (s : State) (c : Clasp) : State :=
  match c.threshold with
  | some t =>
    if t ≤ c.value then (s.modClasp c.id (fun c => { c with threshold := none })).oweMsix c.fn c.vector else s
  | none => s

/-- R404: some stream of the function is in its safe state. -/
def State.fnSafe (s : State) (f : Fn) : Bool := s.work.streams.any (fun x => x.fn == f && (s.safeCause x).isSome)

/-- R404: the heartbeat of a function. -/
def State.heartbeatOf (s : State) (f : Fn) : Heartbeat :=
  let x := s.fnSt f
  { timeState := s.clk.stateByte,
    flags := boolNat (s.fnSafe f) + 2 * boolNat s.safety.stale + 4 * boolNat (decide (0 < s.safety.throttle)) +
      8 * boolNat (!s.safety.retired.isEmpty),
    safetyEvents := x.safetyEvents, tick := s.clk.tick, devTime := s.clk.devTime, uDev := encodeUnc s.clk.uDev,
    lastSafety := x.lastSafety }

/-- R176, R184, R185, R187: a function's heartbeat, omitted where no window takes it. -/
def State.issueHeartbeat (s : State) (f : Fn) : State :=
  let x := s.fnSt f
  if x.sealed && x.hbEnable && s.mayIssue f then
    s.postAt f 0xFFFF x.heartbeatAddr.toNat 32 (fun a => .heartbeat f a (s.heartbeatOf f))
  else s

/-- R172, R173: one owed message is sent, which clears the vector's pending bit, or sets that bit. -/
def State.issueMsix (s : State) (m : Fn × Nat) : State :=
  let e := (s.fnSt m.1).msixOf m.2
  if e.masked || !(s.fnSt m.1).msixEnable || !s.mayIssue m.1 then s.modFn m.1 (fun x => x.setMsix { e with pending := true })
  else
    let s := s.modFn m.1 (fun x => x.setMsix { e with pending := false })
    s.withHost { s.host with issue := s.host.issue ++ [.msix m.1 m.2] }

/-- Index writebacks, mirrors, heartbeats and messages, in the order of Table 2.3 and R237. -/
def State.issueRest (s : State) (heartbeats : Bool) : State :=
  let s := s.host.queues.foldl State.issueWriteback s
  let s := s.host.clasps.foldl State.issueMirror s
  let s := s.host.clasps.foldl State.fireThreshold s
  let s := if heartbeats then allFns.foldl State.issueHeartbeat s else s
  let s := s.host.queues.foldl State.issueWakes s
  let owed := s.host.owedMsix
  owed.foldl State.issueMsix (s.withHost { s.host with owedMsix := [] })

/-- What steps of their own wrote ahead carries the time and time state of the commit that issues it (Tables 6.8, 11.8). -/
def Posted.stamped (c : Clock) : Posted → Posted
  | .event f i a p e => .event f i a p { e with devTime := c.devTime, tstate := c.stateByte }
  | .record f q i a (.gap g n _ t) => .record f q i a (.gap g n c.stateByte t)
  | .record f q i a (.retraction r n _ t) => .record f q i a (.retraction r n c.stateByte t)
  | p => p

/-- The stream and first frame that a record written ahead concerns. -/
def Record.concerns : Record → Nat × Nat
  | .frame h _ _ => (h.stream, h.frameSeq)
  | .alert h _ => (h.stream, h.frameSeq)
  | .gap g _ _ _ => (g.stream, g.firstFrame)
  | .retraction r _ _ _ => (r.stream, r.firstFrame)

/-- One write made ahead takes its place in the issue step; R541 holds for a record. -/
def State.postAhead (s : State) (bad : List Nat) (p : Posted) : State :=
  match p with
  | .record f q i a r =>
    if bad.contains s.postedRecords then
      (s.withHost { s.host with issue := s.host.issue ++ [.record f q i a r.replaced] }).crcFault r.concerns.1 r.concerns.2
    else s.withHost { s.host with issue := s.host.issue ++ [p] }
  | _ => s.withHost { s.host with issue := s.host.issue ++ [p] }

/-- The issue step begins: what its own rows have written stands first, and the audit counters count this commit's writes (16:R563). -/
def State.issueStart (s : State) (bad : List Nat) : State :=
  let ahead := s.host.ahead.map (Posted.stamped s.clk)
  let s := s.withHost { s.host with
    issue := [], ahead := [],
    queues := s.host.queues.map (fun q => { q with audit := q.auditNext, auditNext := RingAudit.zero }) }
  ahead.foldl (fun s p => s.postAhead bad p) s

/-- R65, R66: the issue step; what it writes replaces what the step before wrote. -/
def State.issueStep (s : State) (bad : List Nat) (heartbeats : Bool) : State :=
  (((((s.issueStart bad).issueRecords bad).issueEvents).issueData).issueCompletions).issueRest heartbeats

/-! ### Bytes in host memory (R398-R404, Tables 6.7, 6.8) -/

/-- Table 11.7. -/
def Detection.bytes (d : Detection) : List Byte :=
  le 2 d.cls ++ le 2 d.score ++ le 2 d.box.x0 ++ le 2 d.box.y0 ++ le 2 d.box.x1 ++ le 2 d.box.y1 ++ le 4 d.trackId ++
    leS 2 d.vx ++ leS 2 d.vy ++ le 2 d.zones ++ le 1 d.head ++ le 1 d.flags ++ le 2 d.attrClass ++ le 2 d.attrScore ++
    le 1 d.lines ++ le 1 d.trackState ++ le 2 0

/-- R400. -/
def Summary.bytes (x : Summary) : List Byte :=
  le 1 x.head ++ le 1 x.zone ++ le 2 0 ++ le 4 x.cells ++ (List.range 12).flatMap (fun c => le 2 (nth 0 x.shares c))

/-- Table 11.6 with a given CRC. -/
def RecordHead.bytes (h : RecordHead) (entries dets sums crc : Nat) : List Byte :=
  le 1 h.recordType ++ le 1 h.timeState.toNat ++ le 2 h.stream ++ le 4 h.recordSeq ++ le 8 h.frameSeq ++ le 8 h.capture ++
    le 8 h.tick ++ le 4 h.tableEpoch ++ le 4 h.quantEpoch ++ le 2 h.uncertainty ++ le 1 h.outcome ++ le 1 h.cause ++
    le 1 h.deferTicks ++ le 1 h.flags ++ le 2 entries ++ le 2 dets ++ le 1 sums ++ le 1 h.concealKind ++
    le 2 h.concealedBlocks ++ le 2 h.totalDetections ++ fit 4 h.specific ++ le 4 crc

/-- Table 11.8 with a given CRC. -/
def gapBytes (g : Gap) (seq : Nat) (t : Byte) (tick crc : Nat) : List Byte :=
  le 1 3 ++ le 1 t.toNat ++ le 2 g.stream ++ le 4 seq ++ le 8 g.firstFrame ++ le 8 g.lastFrame ++ le 8 tick ++
    le 4 g.firstMissed ++ le 4 g.lastMissed ++ le 4 g.missed ++ le 4 g.missedAlerts ++ le 12 0 ++ le 4 crc

def retractionBytes (r : Retraction) (seq : Nat) (t : Byte) (tick crc : Nat) : List Byte :=
  le 1 4 ++ le 1 t.toNat ++ le 2 r.stream ++ le 4 seq ++ le 8 r.firstFrame ++ le 8 r.lastFrame ++ le 8 tick ++
    le 4 r.first ++ le 4 r.last ++ le 2 r.event ++ le 18 0 ++ le 4 crc

/-- A record with a given CRC, filled to whole ring entries. -/
def Record.raw (r : Record) (crc : Nat) : List Byte :=
  let body := match r with
    | .frame h ds ss => h.bytes r.entries ds.length ss.length crc ++ ds.flatMap Detection.bytes ++ ss.flatMap Summary.bytes
    | .alert h d => h.bytes r.entries 1 0 crc ++ d.bytes
    | .gap g q t n => gapBytes g q t n crc
    | .retraction x q t n => retractionBytes x q t n crc
  fit (64 * r.entries) body

/-- R398: a record as its ring holds it. -/
def Record.bytes (r : Record) : List Byte := r.raw (crc32c (r.raw 0))

/-- R404: the heartbeat's 32 bytes. -/
def Heartbeat.bytes (h : Heartbeat) : List Byte :=
  withCrc (le 1 6 ++ le 1 h.timeState.toNat ++ le 2 h.flags ++ le 4 h.safetyEvents ++ le 8 h.tick ++ leS 8 h.devTime ++
    le 2 h.uDev ++ le 2 h.lastSafety)

/-- Table 6.7. -/
def Completion.bytes (c : Completion) (phase : Bool) : List Byte :=
  withCrc (le 1 c.opcode.toNat ++ le 1 (boolNat phase) ++ le 2 c.commandId.toNat ++ le 2 c.status ++ le 2 c.sqSlot.toNat ++
    le 2 c.sqHead ++ le 2 c.fieldOffset ++ le 4 c.tableEpoch ++ le 8 c.tick ++ fit 32 c.result ++ le 4 0)

/-- Table 6.8, R651. -/
def Event.bytes (e : Event) (phase : Bool) : List Byte :=
  withCrc (le 2 e.code ++ le 1 (boolNat phase + 2 * boolNat (decide (0x400 ≤ e.code) && decide (e.code ≤ 0x40F))) ++
    le 1 e.severity ++ le 2 e.slot ++ le 2 e.stream ++ le 8 e.tick ++ leS 8 e.devTime ++ le 1 e.tstate.toNat ++ le 1 e.node ++
    le 2 0 ++ le 4 e.seq ++ fit 28 e.detail)

end Sys2Proof.Machine
end

