-- ==== Sys2Proof/Machine/Plan.lean ====
section
/-! DEFINITION. The lead cluster's plan of a tick (15_admission_latency.md, R526-R529; 02_tick_commit.md, R90-R96): what each
stage needs, what the units have room for, which stages run, which frames wait and which end SKIPPED. -/

namespace Sys2Proof.Machine

/-! ### Needs (R526, Table 15.2) -/

/-- What one stage needs of the coming tick; memory, port and chain amounts in 64ths. `engines` are charged `decode` cycles each, and the
picture is decoded on the lowest `runs` of them (R277). `jobs` are facet jobs: tiles, array cycles and vector cycles per tile; `boxes` are
crop-and-resize cycles by box; `control` are cycles of the control clusters, of which Table 15.2 charges none
(notes/assumptions/56.md). -/
structure Need where
  part : Nat
  engines : Nat
  runs : Nat
  decode : Nat
  jobs : List (Nat × Nat × Nat)
  prepare : Nat
  boxes : List Nat
  motion : Nat
  post : Nat
  mem : Nat
  portA : Nat
  portB : Nat
  chain : Nat
  control : Nat
  deriving DecidableEq, Repr

def Need.none (p : Nat) : Need :=
  { part := p, engines := 0, runs := 0, decode := 0, jobs := [], prepare := 0, boxes := [], motion := 0, post := 0, mem := 0,
    portA := 0, portB := 0, chain := 0, control := 0 }

/-- The module serves a stage group of a stream itself (14:R509). -/
def State.decodesHere (s : State) (x : Stream) : Bool := match x.remote with
  | some r => r.1 == s.boot.moduleNo
  | none => true
def State.infersHere (s : State) (x : Stream) : Bool := match x.remote with
  | some r => r.2 == s.boot.moduleNo
  | none => true

/-- R277: the engines a picture is decoded on: by the area of its active SPS, where that is known. -/
def Stream.enginesOf (x : Stream) (d : Decoding) : Nat :=
  match x.goodSps d with
  | some q => enginesFor (q.width * q.height)
  | none => enginesFor (codedPixels x.codec x.width x.height)

/-- T+0: the larger of the admission charge and 9/4 cycles per byte of the largest slice segment. -/
def State.decodeNeed (s : State) (x : Stream) (chunks : List Chunk) (discontinuity : Bool) : Need :=
  let p := s.profileOf x
  let g := p.engines
  let d := x.readPicture chunks discontinuity false
  let n := Need.none (s.partOf x.fn)
  if s.decodesHere x then
    { n with engines := g, runs := min g (x.enginesOf d),
             decode := ceilDiv (max (decodeCharge p.coded) (ceilDiv (9 * d.largestSlice) 4)) (max 1 g),
             mem := memDecode64 p, portA := 16 * (x.width * x.height) }
  else { n with portA := 16 * (x.width * x.height) }

/-- The models of a frame's epoch vector with how often a frame runs each. -/
def EpochVector.runs (ev : EpochVector) : List (BindEntry × ModelImage × Nat) :=
  ev.binding.filterMap (fun b => (ev.images.find? (fun x => x.1 == b.model)).map (fun x =>
    (b, x.2, if b.role = 0 then 1 else b.maxBoxes)))

/-- T+1. -/
def State.prepareNeed (s : State) (x : Stream) (f : Frame) : Need :=
  let b := pictureBytes x.codec x.width x.height
  let n := Need.none (s.partOf x.fn)
  match f.ev.primary, f.picture with
  | some i, some pic =>
    { n with prepare := prepareCycles pic.width pic.height i.input, motion := motionCycles f.ev.motionMode pic.width pic.height,
             mem := 72 * (b + i.input.tensorBytes), chain := if s.decodesHere x then 0 else 64 * b }
  | _, _ => n

/-- R296: post-engine cycles of T+2: the boxes of each distinct source head of the second stages are decoded and suppressed there. -/
def EpochVector.earlyPost (ev : EpochVector) : Nat :=
  match ev.primary with
  | some i =>
    let heads := ((ev.binding.filter (fun b => b.role != 0)).map (·.sourceHead)).eraseDups.filterMap (fun k => i.heads[k]?)
    sumOf (heads.map (fun h => ceilDiv (h.gridW * h.gridH * h.pixelStride) 64 + 40 * h.topK))
  | none => 0

/-- T+2. -/
def State.inferNeed (s : State) (x : Stream) (f : Frame) : Need :=
  let rs := f.ev.runs
  { Need.none (s.partOf x.fn) with
    post := f.ev.earlyPost,
    jobs := rs.flatMap (fun r => List.replicate r.2.2 (r.2.1.tiles, r.2.1.arrayCycles, r.2.1.vectorCycles)),
    boxes := rs.flatMap (fun r => if r.1.role = 0 then [] else List.replicate r.2.2 (cropCycles r.2.1.input)),
    mem := 72 * sumOf (rs.map (fun r => r.2.2 * r.2.1.dramBytes)) }

/-- T+3: what T+2 has not been charged of Table 15.2. -/
def State.postNeed (s : State) (x : Stream) (f : Frame) : Need :=
  match f.ev.primary with
  | some i => { Need.none (s.partOf x.fn) with post := postCharge i - f.ev.earlyPost, mem := 72 * i.outputBytes + 64 * 262144 }
  | none => Need.none (s.partOf x.fn)

/-- Bytes of the records a frame will have for one receiver, at the sizes T+3 formed. -/
def State.recordBytes (s : State) (e : Ended) (r : Receiver) : Nat :=
  match s.queue? r.fn r.slot with
  | some q => 64 * (recordEntries ((r.listed e q.entries).length + (r.summaries e).length) + 2 * (r.alerts e).length)
  | none => 0

/-- T+4. -/
def State.emitNeed (s : State) (x : Stream) (f : Frame) : Need :=
  let e := f.served x
  { Need.none (s.partOf x.fn) with portB := 64 * sumOf ((s.receivers x.fn x.metadataSlot f.ev).map (s.recordBytes e)) }

/-- What the stage a frame is at needs; a frame that yields an INVALID record is carried without inference. -/
def State.frameNeed (s : State) (x : Stream) (f : Frame) : Need :=
  match f.stage with
  | .decode => s.decodeNeed x f.chunks f.discontinuity
  | .prepare => s.prepareNeed x f
  | .infer => if (s.mark x f).invalid.isSome then Need.none (s.partOf x.fn) else s.inferNeed x f
  | .post => if (s.mark x f).invalid.isSome then Need.none (s.partOf x.fn) else s.postNeed x f
  | .emit => s.emitNeed x f

/-! ### Room (R518, R530) -/

/-- What the units of one partition have left: unit number and cycles; tiles have array and vector cycles, vision engines cycles and boxes,
DRAM channels 64ths of raw bytes; `links` holds by row what each ring link and direction of the row has left, in 64ths of bytes. -/
structure PartRoom where
  decode : List (Nat × Nat)
  tiles : List (Nat × Nat × Nat)
  vision : List (Nat × Nat × Nat)
  motion : List (Nat × Nat)
  post : List (Nat × Nat)
  channels : List (Nat × Nat)
  links : List (Nat × Nat)
  control : List (Nat × Nat)
  deriving DecidableEq, Repr

structure Rooms where
  parts : List PartRoom
  portA : Nat
  portB : Nat
  chain : Nat
  deriving DecidableEq, Repr

/-- The room of a partition at a facet clock and refresh rates; `arrays` says that facet arrays run (R619). -/
def State.partRoom (s : State) (p mhz : Nat) (hot : Nat → Bool) (arrays : Bool) : PartRoom :=
  let each (k : UnitKind) (c : Nat) : List (Nat × Nat) := (s.workUnits p k).map (fun u => (u, c))
  { decode := each .decodeEngine 1299088,
    tiles := if arrays then (s.workUnits p .facetTile).map (fun t => (t, tileCapacity mhz, tileCapacity mhz)) else [],
    vision := (s.workUnits p .visionEngine).map (fun u => (u, 1623860, 512)),
    motion := each .motionEngine 1623860, post := each .postEngine 1623860,
    channels := (s.unitsOf p .dramChannel).map (fun c => (c, 64 * channelForeground (hot c))),
    links := (s.usableRows p).map (fun r => (r, 64 * 185584000)), control := each .controlCluster 1491300 }

def State.rooms (s : State) (mhz : Nat) (hot : Nat → Bool) (arrays : Bool) : Rooms :=
  let caps := s.admitCaps 0
  { parts := (List.range (partCount s.work.startMask)).map (fun p => s.partRoom p mhz hot arrays),
    portA := nth 0 caps 8, portB := nth 0 caps 9, chain := nth 0 caps 10 }

/-- The capacities of the coming tick (R450, R530). -/
def State.roomsNow (s : State) : Rooms :=
  s.rooms (facetMHz s.safety.throttle) (fun c => if h : c < 16 then (s.channel ⟨c, h⟩).hot else false) (!s.safety.arraysStopped)

/-- R529: the capacities at 1,250 MHz and the doubled refresh rate. -/
def State.roomsCool (s : State) : Rooms := s.rooms 1250 (fun _ => false) true

/-! ### Placing (R526, R529) -/

/-- The lowest unit with room for `n` cycles. -/
def takeUnit : List (Nat × Nat) → Nat → Option (Nat × List (Nat × Nat))
  | [], _ => none
  | (u, c) :: us, n => if n ≤ c then some (u, (u, c - n) :: us) else (takeUnit us n).map (fun r => (r.1, (u, c) :: r.2))

/-- The `g` lowest engines with room for `n` cycles each. -/
def takeUnits : Nat → List (Nat × Nat) → Nat → Option (List Nat × List (Nat × Nat))
  | 0, us, _ => some ([], us)
  | _ + 1, [], _ => none
  | g + 1, (u, c) :: us, n =>
    if n ≤ c then (takeUnits g us n).map (fun r => (u :: r.1, (u, c - n) :: r.2))
    else (takeUnits (g + 1) us n).map (fun r => (r.1, (u, c) :: r.2))

/-- Cycles shared by vision engines from the lowest up (notes/assumptions/29.md). -/
def takeShared : List (Nat × Nat × Nat) → Nat → Option (List Nat × List (Nat × Nat × Nat))
  | us, 0 => some ([], us)
  | [], _ + 1 => none
  | (u, c, b) :: us, n + 1 =>
    if c = 0 then (takeShared us (n + 1)).map (fun r => (r.1, (u, c, b) :: r.2))
    else if n + 1 ≤ c then some ([u], (u, c - (n + 1), b) :: us)
    else (takeShared us (n + 1 - c)).map (fun r => (u :: r.1, (u, 0, b) :: r.2))

/-- One box on the lowest vision engine with cycles and one of its 512 boxes left. -/
def takeBox : List (Nat × Nat × Nat) → Nat → Option (Nat × List (Nat × Nat × Nat))
  | [], _ => none
  | (u, c, b) :: us, n =>
    if n ≤ c && 0 < b then some (u, (u, c - n, b - 1) :: us) else (takeBox us n).map (fun r => (r.1, (u, c, b) :: r.2))

def takeBoxes : List Nat → List (Nat × Nat × Nat) → Option (List Nat × List (Nat × Nat × Nat))
  | [], us => some ([], us)
  | n :: ns, us => match takeBox us n with
    | some (u, us) => (takeBoxes ns us).map (fun r => (u :: r.1, r.2))
    | none => none

/-- A facet job on the lowest tile, or the lowest row with both its tiles (R351), that has room. -/
def takeTiles (ts : List (Nat × Nat × Nat)) (j : Nat × Nat × Nat) : Option (List Nat × List (Nat × Nat × Nat)) :=
  let fits (t : Nat) : Bool := ts.any (fun x => x.1 == t && decide (j.2.1 ≤ x.2.1) && decide (j.2.2 ≤ x.2.2))
  let use (us : List Nat) : List (Nat × Nat × Nat) :=
    updWhere (fun (x : Nat × Nat × Nat) => us.contains x.1) (fun x => (x.1, x.2.1 - j.2.1, x.2.2 - j.2.2)) ts
  if j.1 = 2 then
    ((List.range 8).find? (fun r => fits (2 * r) && fits (2 * r + 1))).map (fun r => ([2 * r, 2 * r + 1], use [2 * r, 2 * r + 1]))
  else (ts.find? (fun x => fits x.1)).map (fun x => ([x.1], use [x.1]))

def takeJobs : List (Nat × Nat × Nat) → List (Nat × Nat × Nat) → Option (List Nat × List (Nat × Nat × Nat))
  | [], ts => some ([], ts)
  | j :: js, ts => match takeTiles ts j with
    | some (us, ts) => (takeJobs js ts).map (fun r => (us ++ r.1, r.2))
    | none => none

/-- An amount shared by units from the lowest up: what each takes, and what is left. -/
def takeSpread : List (Nat × Nat) → Nat → Option (List (Nat × Nat) × List (Nat × Nat))
  | us, 0 => some ([], us)
  | [], _ + 1 => none
  | (u, c) :: us, n + 1 =>
    let t := min c (n + 1)
    (takeSpread us (n + 1 - t)).map (fun r => (if t = 0 then r.1 else (u, t) :: r.1, (u, c - t) :: r.2))

/-- Table 15.2, Filigree: what a row's memory node moves passes each ring link of the row; `taken` is by channel. -/
def takeLinks (links taken : List (Nat × Nat)) : Option (List (Nat × Nat)) :=
  let load (r : Nat) : Nat := sumOf ((taken.filter (fun t => t.1 / 2 == r)).map (·.2))
  if links.all (fun l => decide (load l.1 ≤ l.2)) then some (links.map (fun l => (l.1, l.2 - load l.1))) else none

/-- Memory traffic placed on channels and on their rows' links: the channels, and what those and the links have left. -/
def PartRoom.takeMem (r : PartRoom) (n : Nat) : Option (List Nat × List (Nat × Nat) × List (Nat × Nat)) :=
  (takeSpread r.channels n).bind (fun m => (takeLinks r.links m.1).map (fun l => (m.1.map (·.1), m.2, l)))

def refs (k : UnitKind) (us : List Nat) : List UnitRef := us.map (fun u => ⟨k, u⟩)

/-- One unit of a kind, when any cycles are needed. -/
def takeSome (us : List (Nat × Nat)) (n : Nat) : Option (List Nat × List (Nat × Nat)) :=
  if n = 0 then some ([], us) else (takeUnit us n).map (fun r => ([r.1], r.2))

/-- R526: places a need in a partition's room: the units it runs on and the room left, or the cause of R529: decode engines,
then facet tiles, then everything else. -/
def PartRoom.place (r : PartRoom) (n : Need) : Except Nat (List UnitRef × PartRoom) :=
  match takeUnits n.engines r.decode n.decode with
  | none => .error 1
  | some (ds, decode) =>
    match takeJobs n.jobs r.tiles with
    | none => .error 2
    | some (ts, tiles) =>
      match (takeShared r.vision n.prepare).bind (fun a => (takeBoxes n.boxes a.2).map (fun b => (a.1 ++ b.1, b.2))),
            takeSome r.motion n.motion, takeSome r.post n.post, r.takeMem n.mem, takeSome r.control n.control with
      | some (vs, vision), some (ms, motion), some (ps, post), some (cs, channels, links), some (ks, control) =>
        .ok ((refs .decodeEngine (ds.take n.runs) ++ refs .facetTile ts ++ refs .visionEngine vs ++ refs .motionEngine ms ++
               refs .postEngine ps ++ refs .dramChannel cs ++ refs .controlCluster ks),
             { decode := decode, tiles := tiles, vision := vision, motion := motion, post := post, channels := channels, links := links,
               control := control })
      | _, _, _, _, _ => .error 3

def Rooms.place (r : Rooms) (n : Need) : Except Nat (List UnitRef × Rooms) :=
  match r.parts[n.part]? with
  | some p =>
    match p.place n with
    | .error c => .error c
    | .ok (us, p) =>
      if n.portA ≤ r.portA && n.portB ≤ r.portB && n.chain ≤ r.chain then
        .ok (us, { parts := r.parts.set n.part p, portA := r.portA - n.portA, portB := r.portB - n.portB,
                   chain := r.chain - n.chain })
      else .error 3
  | none => .error 3

/-! ### Pictures that end before T+0 (R426-R428, R527) -/

/-- The frame a picture makes, with the versions and the time of the current commit, and the commits for which it waited (R93). -/
def State.frameOf (s : State) (x : Stream) (p : Pending) : Frame :=
  let ready := p.readyTick.getD s.clk.tick
  { seq := p.seq, t0 := s.clk.tick, ready := ready, bellTime := p.bellTime,
    stage := .decode, ev := s.epochVector x, timeState := s.clk.stateByte, uDev := s.clk.uDev, capture := none,
    uncertainty := 0xFFFF, deferTicks := p.waited, cause := p.firstCause.getD 0, repeated := false,
    withdrawn := none, idle := false, starts := [0, 0, 0, 0, 0], buffer := none, invalid := s.safeCause x, units := [],
    extraChunks := p.extraChunks, noFirst := p.noFirst, discontinuity := p.discontinuity, truncated := p.truncated,
    lastPos := p.lastPos, chunks := p.chunks, picture := none, motion := [], conceal := [], concealKind := 0,
    concealedBlocks := 0, input := [], field := none, map := default, outputs := [], dets := [], summaries := [], alerts := [],
    suppressed := 0, totalDets := 0, staged := none }

/-- A picture before T+0 is gone from its stream. One that is still open takes its frame sequence and stays as one that has ended, until its
last descriptor has passed; a DISCONTINUITY takes the motion reference with it (R309). -/
def Stream.dropPicture (x : Stream) (p : Pending) : Stream :=
  let x := { x with motionRef := if p.discontinuity then none else x.motionRef }
  match x.openPic with
  | some q =>
    if q.seq == p.seq && !q.ended then { x with openPic := some { q with ended := true, chunks := [] }, nextSeq := x.nextSeq + 1 }
    else { x with waiting := x.waiting.filter (fun q => q.seq != p.seq) }
  | none => { x with waiting := x.waiting.filter (fun q => q.seq != p.seq) }

/-- The pictures of a stream that have not entered T+0. -/
def Stream.pictures (x : Stream) : List Pending := x.waiting ++ x.openPic.toList.filter (fun p => !p.ended)

/-- A picture ends SKIPPED without entering T+0: its buffers are released, its descriptors consumed, its record is due. -/
def State.skipPicture (s : State) (x : Stream) (p : Pending) (cause : Nat) : State :=
  let f := x.undecoded (s.frameOf x p)
  let s := (s.endChunks x f).modStream x.handle (fun x => (x.noteCapture f (x.captureOf f none)).dropPicture p)
  s.withWork { s.work with ended := s.work.ended ++ [f.skip x cause] }

/-- R426: best-effort pictures of a partition that hold a buffer of a class, by earliest doorbell; the last doorbell of a picture that is
open has yet to come. -/
def State.shedList (s : State) (p cls : Nat) : List (Nat × Nat × Nat) :=
  let holds (q : Pending) : Bool := (chunkBuffers q.chunks).any (fun h => bitsOf h 31 29 == cls)
  let all := (s.work.streams.filter (fun x => s.partOf x.fn == p && x.cls == .bestEffort)).flatMap (fun x =>
    (x.pictures.filter holds).map (fun q => (q.readyTick.getD (s.clk.tick + 1), x.handle, q.seq)))
  sortBy (fun (a b : Nat × Nat × Nat) => decide (a.1 < b.1)) all

/-- R426: sheds pictures until a class has 12 % free again. -/
def State.shedClass (s : State) (p cls : Nat) : State :=
  if s.level p cls == .red || s.level p cls == .reserve then
    (s.shedList p cls).foldl (fun s k =>
      if 12 * s.poolCapacity p cls ≤ 100 * s.poolFree p cls then s
      else match s.stream? k.2.1 with
        | some x => match x.pictures.find? (fun (q : Pending) => q.seq == k.2.2) with
          | some q => s.skipPicture x q 4
          | none => s
        | none => s) s
  else s

def State.shed (s : State) : State :=
  (List.range (partCount s.work.startMask)).foldl (fun s p => (List.range 6).foldl (fun s c => s.shedClass p c) s) s

/-! ### Frames that lose a stage (R94, R96, R528) -/

/-- A frame leaves the pipeline before T+4: what it holds goes with it. -/
def State.leaveEarly (s : State) (x : Stream) (f : Frame) (e : Ended) : State :=
  let s := if f.stage == .decode then
      (s.endChunks x f).modStream x.handle (fun x => x.noteCapture f (x.captureOf f none)) else s
  (s.endFrame x.handle f.seq e).dropPictures x.handle x.pictureBuffers

/-- A frame ends SKIPPED before T+4. -/
def State.endEarly (s : State) (x : Stream) (f : Frame) (cause : Nat) : State :=
  let f := s.mark x (if f.stage == .decode then x.undecoded f else f)
  s.leaveEarly x f (f.skip x cause)

/-- R94, R96: the stage of a frame is withdrawn: repeated once, unless the frame is urgent or was repeated before. -/
def State.withdraw (s : State) (x : Stream) (f : Frame) (cause : Nat) : State :=
  if isUrgent f.ev.cls || f.repeated then s.endEarly x f cause
  else s.modStream x.handle (fun x => x.setFrame
    { f with repeated := true, idle := true, withdrawn := none, deferTicks := f.deferTicks + 1,
             cause := if f.deferTicks = 0 then cause else f.cause })

/-- The stages that overran in the tick that ends. -/
def State.withdrawOverruns (s : State) : State :=
  s.work.streams.foldl (fun s x => x.frames.foldl (fun s f => match f.withdrawn, s.stream? x.handle with
    | some c, some y => s.withdraw y f c
    | _, _ => s) s) s

/-! ### Which stages may run (R90, R91, R95, R564) -/

def stageIndex : Stage → Nat
  | .decode => 0
  | .prepare => 1
  | .infer => 2
  | .post => 3
  | .emit => 4

/-- R95: a frame's stage may start at tick `n` behind the frames before it: none of them is still at that stage or behind it, and the last one
that ran it started it 2 ticks before, whatever became of that frame since. -/
def Stream.mayFollow (x : Stream) (seq stage n : Nat) : Bool :=
  !x.frames.any (fun g => decide (g.seq < seq) && decide (stageIndex g.stage ≤ stage)) &&
    x.started.all (fun e => e.1 != stage || e.2.1 == seq || decide (e.2.2 + 2 ≤ n))

/-- A stage of a frame of the stream starts. -/
def Stream.noteStart (x : Stream) (stage seq n : Nat) : Stream :=
  { x with started := (stage, seq, n) :: x.started.filter (fun e => e.1 != stage) }

/-- 14:R510: between the switch commit of a migration and the end of its copy no T+0 starts. -/
def State.copying (s : State) (x : Stream) : Bool := s.chain.migrations.any (fun m => m.handle == x.handle && m.switched)

/-- 14:R514, R515: a module that processes the stream is lost, until the stream is re-homed. -/
def State.orphaned (s : State) (x : Stream) : Bool := match x.remote with
  | some r => [r.1, r.2].any (fun m => if h : m < 8 then (s.chain.peers.get ⟨m, h⟩).lost && m != s.boot.moduleNo else false)
  | none => false

/-- The stream starts T+0 at all: it is not closing, and its partition is not halted. -/
def State.startsFrames (s : State) (x : Stream) : Bool :=
  !x.closing && !s.safety.halts.any (fun h => h.partition == s.partOf x.fn) && !s.copying x && !s.orphaned x

/-- R90, R91, R95, R96: the spacing and the token let the next picture enter T+0. -/
def Stream.spaced (x : Stream) (seq n : Nat) : Bool :=
  decide (1 ≤ x.tokens) && (match x.lastT0 with
    | some t => decide (t + 2 ≤ n)
    | none => true) && (isUrgent x.cls || x.mayFollow seq 0 n)

/-- The pictures of a stream that are ready at a commit. -/
def Stream.ready (x : Stream) (n : Nat) : List Pending := x.waiting.filter (fun p => match p.readyTick with
  | some t => decide (t ≤ n)
  | none => false)

/-! ### Items (R526, R527) -/

/-- A stage that the plan may place. -/
structure Item where
  rank : Nat
  key : Nat
  ready : Nat
  handle : Nat
  seq : Nat
  start : Bool
  deriving DecidableEq, Repr

/-- R527. -/
def deadlineOf (ready rate : Nat) : Nat := ready + 600000 / max 1 rate - 1

/-- The place of an item in the order of R526. -/
def itemOf (cls : ServiceClass) (ready rate handle seq : Nat) (start : Bool) : Item :=
  let base := match cls with
    | .urgent => 0
    | .guaranteed => 2
    | .bestEffort => 4
  let key := match cls with
    | .urgent => 0
    | .guaranteed => deadlineOf ready rate
    | .bestEffort => ready
  { rank := base + boolNat start, key := key, ready := ready, handle := handle, seq := seq, start := start }

def itemBefore (a b : Item) : Bool :=
  if a.rank != b.rank then decide (a.rank < b.rank)
  else if a.key != b.key then decide (a.key < b.key)
  else if a.ready != b.ready then decide (a.ready < b.ready)
  else if a.handle != b.handle then decide (a.handle < b.handle)
  else decide (a.seq < b.seq)

/-- A frame whose stages other modules run waits for their records (14:R511). -/
def State.elsewhere (s : State) (x : Stream) (f : Frame) : Bool := f.stage != .decode && !s.infersHere x

/-- The stages in flight that may run in the coming tick. -/
def State.flightItems (s : State) (x : Stream) : List Item :=
  (x.frames.filter (fun f => !s.elsewhere x f && (isUrgent f.ev.cls || x.mayFollow f.seq (stageIndex f.stage) s.clk.tick))).map
    (fun f => itemOf f.ev.cls f.ready f.ev.frameRate x.handle f.seq false)

/-- The next picture of a stream, if it may enter T+0. -/
def State.startItems (s : State) (x : Stream) : List Item :=
  match x.ready s.clk.tick with
  | p :: _ => if s.startsFrames x && x.spaced p.seq s.clk.tick && !p.noBuffer then
      [itemOf x.cls (p.readyTick.getD 0) x.frameRate x.handle p.seq true] else []
  | [] => []

def State.planItems (s : State) : List Item :=
  sortBy itemBefore (s.work.streams.flatMap (fun x => s.flightItems x ++ s.startItems x))

/-! ### Running the plan -/

/-- A plan as it is filled: the state, the room left, and the room left if nothing were throttled (R529). -/
structure Planning where
  st : State
  room : Rooms
  cool : Rooms
  deriving DecidableEq, Repr

/-- R552: the plan log. -/
def State.logPlan (s : State) (x : Stream) (seq : Nat) (us : List UnitRef) : State :=
  let es : List PlanEntry := us.eraseDups.map (fun u => { unit := u, tick := s.clk.tick, handle := x.handle, seq := seq })
  s.withSafety { s.safety with planLog := s.safety.planLog ++ es }

/-- A frame that infers or post-processes while its stream is in its safe state yields no valid result (R539). -/
def State.markRun (s : State) (x : Stream) (f : Frame) : Frame :=
  match f.stage with
  | .infer => s.mark x f
  | .post => s.mark x f
  | .decode => f
  | .prepare => f
  | .emit => f

/-- A stage runs on its units in the coming tick. -/
def Frame.run (f : Frame) (n : Nat) (us : List UnitRef) : Frame :=
  { f with idle := false, withdrawn := none, units := us, starts := f.starts.set (stageIndex f.stage) n }

/-- R529: the cause of an item that was not placed. -/
def causeOf (c : Nat) (cool : Except Nat (List UnitRef × Rooms)) : Nat :=
  match cool with
  | .ok _ => 6
  | .error _ => c

def roomAfter (old : Rooms) (r : Except Nat (List UnitRef × Rooms)) : Rooms :=
  match r with
  | .ok (_, r) => r
  | .error _ => old

/-- A stage in flight. -/
def Planning.flight (pl : Planning) (x : Stream) (f : Frame) : Planning :=
  let n := pl.st.frameNeed x f
  let cool := pl.cool.place n
  match pl.room.place n with
  | .ok (us, room) =>
    let n := pl.st.clk.tick
    { st := (pl.st.modStream x.handle (fun y =>
        (y.setFrame ((pl.st.markRun x f).run n us)).noteStart (stageIndex f.stage) f.seq n)).logPlan x f.seq us,
      room := room, cool := roomAfter pl.cool cool }
  | .error c => { st := pl.st.withdraw x f (causeOf c cool), room := pl.room, cool := roomAfter pl.cool cool }

/-- Notes on a waiting picture why it waited at this commit. -/
def Pending.wait (p : Pending) (cause : Nat) : Pending :=
  { p with waited := p.waited + 1, firstCause := p.firstCause <|> some cause,
           lastCause := if cause = 0 then p.lastCause else some cause }

def State.noteWait (s : State) (x : Stream) (seq cause : Nat) : State :=
  s.modStream x.handle (fun x => { x with waiting := updWhere (fun p => p.seq == seq) (fun p => p.wait cause) x.waiting })

/-- Bytes of a picture as its active SPS has it (Table 7.5); where none is known, as the declared size has it. -/
def Stream.storedBytes (x : Stream) (p : Pending) : Nat :=
  match x.goodSps (x.readPicture p.chunks p.discontinuity false) with
  | some q => q.pictureBytes
  | none => pictureBytes x.codec x.width x.height

/-- The row of the lowest decode engine among units: the unit that asks for the picture's buffer (12:R416). -/
def decodeRow (us : List UnitRef) : Option Row :=
  (us.find? (fun u => u.kind == .decodeEngine)).bind (fun u => if h : u.num / 3 < 8 then some ⟨u.num / 3, h⟩ else none)

/-- The pool buffer of a picture in pool mode that units decode (07:R281); none needed in compressed mode. -/
def State.pictureBuffer (s : State) (x : Stream) (p : Pending) (us : List UnitRef) : Option (Option Nat) × State :=
  match x.poolMode, decodeRow us with
  | true, some row =>
    match s.allocFor x row (x.storedBytes p) with
    | (some h, s) => (some (some h), s)
    | (none, s) => (none, s)
  | _, _ => (some none, s)

/-- A picture enters T+0. -/
def State.startFrame (s : State) (x : Stream) (p : Pending) (buffer : Option Nat) (us : List UnitRef) : State :=
  let f := { (s.frameOf x p).run s.clk.tick us with buffer := buffer, invalid := none }
  (s.modStream x.handle (fun x =>
    { x.noteStart 0 p.seq s.clk.tick with
        tokens := x.tokens - 1, lastT0 := some s.clk.tick, waiting := x.waiting.filter (fun q => q.seq != p.seq),
        frames := x.frames ++ [f] })).logPlan x p.seq us

/-- R428: a T+0 whose picture buffer cannot be had: best effort ends as the pool rules end it, the others wait or are
skipped with the class rules. -/
def Planning.start (pl : Planning) (x : Stream) (p : Pending) : Planning :=
  let n := pl.st.decodeNeed x p.chunks p.discontinuity
  let cool := pl.cool.place n
  match pl.room.place n with
  | .ok (us, room) =>
    match pl.st.pictureBuffer x p us with
    | (some b, s) => { st := s.startFrame x p b us, room := room, cool := roomAfter pl.cool cool }
    | (none, s) =>
      { st := if x.cls == .guaranteed then s.noteWait x p.seq 4 else s.skipPicture x p 4, room := pl.room,
        cool := roomAfter pl.cool cool }
  | .error c => { st := pl.st.noteWait x p.seq (causeOf c cool), room := pl.room, cool := roomAfter pl.cool cool }

/-- Places one item. -/
def Planning.item (pl : Planning) (i : Item) : Planning :=
  match pl.st.stream? i.handle with
  | some x =>
    if i.start then
      match x.waiting.find? (fun (p : Pending) => p.seq == i.seq) with
      | some p => pl.start x p
      | none => pl
    else
      match x.frames.find? (fun (f : Frame) => f.seq == i.seq) with
      | some f => pl.flight x f
      | none => pl
  | none => pl

/-! ### Frames and pictures the plan does not try -/

/-- R95: a stage held back by the frame before it: the frame idles for the tick. -/
def Stream.holdFrames (x : Stream) (elsewhere : Frame → Bool) (n : Nat) : Stream :=
  { x with frames := x.frames.map (fun f =>
      if elsewhere f then { f with idle := true }
      else if isUrgent f.ev.cls || x.mayFollow f.seq (stageIndex f.stage) n then f
      else { f with idle := true, deferTicks := f.deferTicks + 1, cause := if f.deferTicks = 0 then 0 else f.cause }) }

/-- R428: a picture of a stream that found no buffer for a chunk tries again. -/
def State.retryPicture (s : State) (x : Stream) (p : Pending) : State :=
  let step (acc : State × List Chunk) (c : Chunk) : State × List Chunk :=
    if c.buffer.isNone && c.lost.isNone && c.data.isNone then
      let r := acc.1.allocChunk x c.desc.length
      (r.2, acc.2 ++ [{ c with buffer := r.1 }])
    else (acc.1, acc.2 ++ [c])
  let r := p.chunks.foldl step (s, [])
  let short := r.2.any (fun c => c.buffer.isNone && c.lost.isNone && c.data.isNone)
  let set (q : Pending) : Pending := if q.seq == p.seq then { q with chunks := r.2, noBuffer := short } else q
  r.1.modStream x.handle (fun x => { x with openPic := x.openPic.map set, waiting := x.waiting.map set })

def State.retryBuffers (s : State) : State :=
  s.work.streams.foldl (fun s x =>
    if x.cls == .guaranteed then
      ((x.openPic.toList ++ x.waiting).filter (·.noBuffer)).foldl (fun s p => s.retryPicture x p) s
    else s) s

/-- Whether a picture is one the plan tries at this commit. -/
def State.tried (s : State) (x : Stream) (seq : Nat) : Bool := (s.startItems x).any (fun i => i.seq == seq)

/-- The cause under which a picture that the plan does not try waits: POOL_RED for want of a buffer; a value the spec leaves
open while a migration's copy runs; else NONE (R90, R91, R95). -/
def State.holdCause (s : State) (x : Stream) (p : Pending) : Nat × State :=
  if p.noBuffer then (4, s)
  else if s.copying x then
    let d := s.draw
    (d.1 % 8, d.2)
  else (0, s)

/-- The waits of the pictures the plan does not try. -/
def State.holdPictures (s : State) : State :=
  s.work.streams.foldl (fun s x =>
    ((x.ready s.clk.tick).filter (fun p => !s.tried x p.seq)).foldl (fun s p =>
      let c := s.holdCause x p
      c.2.noteWait x p.seq c.1) s) s

/-- R527, R96, R427, R564: whether a picture still before T+0 behind the plan ends at this commit. -/
def State.waitOver (s : State) (x : Stream) (p : Pending) : Bool :=
  (p.noBuffer && x.cls == .bestEffort) ||
    match p.readyTick with
    | some t =>
      s.safety.halts.any (fun h => h.partition == s.partOf x.fn) ||
        (decide (t ≤ s.clk.tick) && match x.cls with
          | .urgent => true
          | .guaranteed => decide (deadlineOf t x.frameRate ≤ s.clk.tick)
          | .bestEffort => decide (t + 600 ≤ s.clk.tick))
    | none => false

/-- The cause of a picture that ends so. -/
def waitCause (p : Pending) : Nat := if p.noBuffer then 4 else p.lastCause.getD 1

/-- A picture that ends at this commit does not wait through the tick it opens. -/
def Pending.unwait (p : Pending) (n : Nat) : Pending :=
  { p with waited := if p.readyTick.any (fun t => decide (t ≤ n)) then p.waited - 1 else p.waited }

/-- Ends the pictures whose wait is over. -/
def State.endWaits (s : State) : State :=
  s.work.streams.foldl (fun s x => (x.pictures.filter (s.waitOver x)).foldl (fun s p => match s.stream? x.handle with
    | some y => s.skipPicture y (p.unwait s.clk.tick) (waitCause p)
    | none => s) s) s

/-- R526: the plan of the coming tick. -/
def State.plan (s : State) : State :=
  let s := s.withdrawOverruns.retryBuffers
  let s := s.withWork { s.work with streams := s.work.streams.map (fun x => x.holdFrames (s.elsewhere x) s.clk.tick) }
  let items := s.planItems
  let s := s.holdPictures
  let s := s.withSafety { s.safety with planLog := s.safety.planLog.filter (fun e => decide (s.clk.tick ≤ e.tick + 100)) }
  (items.foldl Planning.item { st := s, room := s.roomsNow, cool := s.roomsCool }).st.endWaits

/-! ### STAGE_OVERRUN (R64) -/

/-- The cause of a stage that a unit did not finish, by the unit's row of Table 15.5. -/
def overrunCause : UnitKind → Nat
  | .decodeEngine => 1
  | .facetTile => 2
  | .visionEngine => 3
  | .motionEngine => 3
  | .postEngine => 3
  | .dramChannel => 3
  | .controlCluster => 3
  | .poolNode => 3
  | .chainLink => 3
  | .row => 3
  | .hostPortA => 3
  | .hostPortB => 3
  | .assayNode => 3
  | .mgmtBridge => 3

/-- STAGE_OVERRUN (R64, R488): the frame's stage of this tick is withdrawn; the commit that closes it treats it (R94, R96). -/
def execStageOverrun (i : OverrunIn) (s : State) : Out :=
  .next (
    let late (f : Frame) : Bool := f.seq == i.seq.toNat && !f.idle
    let mark (f : Frame) : Frame := { f with withdrawn := some (overrunCause i.unit.kind) }
    if s.isReady then s.modStream i.handle.toNat (fun x => { x with frames := updWhere late mark x.frames }) else s)

end Sys2Proof.Machine
end

