-- ==== Sys2Proof/Machine/Chain.lean ====
section
/-! DEFINITION. Chain links, routes, peers, mirroring and re-homing (14_filigree_chain.md, R489-R506, R512-R517). -/

namespace Sys2Proof.Machine

/-! ### Parts of the chain state -/

def State.withChain (s : State) (c : Chain) : State := { s with chain := c }

def State.link (s : State) (k : Link) : LinkSt := s.chain.links.get k

def State.modLink (s : State) (k : Link) (g : LinkSt → LinkSt) : State :=
  s.withChain { s.chain with links := s.chain.links.set k.val (g (s.chain.links.get k)) }

def State.peer (s : State) (m : ModuleNo) : Peer := s.chain.peers.get m

def State.modPeer (s : State) (m : ModuleNo) (g : Peer → Peer) : State :=
  s.withChain { s.chain with peers := s.chain.peers.set m.val (g (s.chain.peers.get m)) }

def allLinks : List Link := List.finRange 4
def allModules : List ModuleNo := List.finRange 8

/-- The chain sends a packet. -/
def State.chainSend (s : State) (o : ChainOut) : State := s.withChain { s.chain with out := o :: s.chain.out }

/-- The link's node (Table 1.2) reports nothing while the module is dead. -/
def LinkSt.isUp (x : LinkSt) : Bool := x.state == .up

/-! ### Routes (R505) -/

/-- R17, R18: the slot and tray that link `k` reaches from a slot of a tray. -/
def wiredTo (k : Link) (slot tray : Nat) : Nat × Nat := if k.val = 3 then (slot, 1 - tray) else (slot ^^^ (k.val + 1), tray)

/-- Two modules have a direct link by R17 or R18. -/
def areWired (a b : Nat) : Bool :=
  allLinks.any (fun k => let w := wiredTo k (a % 4) (a / 4); 4 * w.2 + w.1 == b)

/-- The link whose trained peer is a module. -/
def State.linkOf? (s : State) (m : Nat) : Option Link := allLinks.find? (fun k => (s.link k).peer == some m)

/-- The link to a module is UP. -/
def State.linkUpTo (s : State) (m : Nat) : Bool := match s.linkOf? m with
  | some k => (s.link k).isUp
  | none => false

/-- The lowest module through which another can be reached. -/
def State.alternate? (s : State) (m : Nat) : Option Nat :=
  (List.range 8).find? (fun i => i != m && i != s.boot.moduleNo && s.linkUpTo i && areWired i m &&
    Config.farLinkUp s.clk.tick i m)

/-- The chain route table as the links stand. -/
def State.routesNow (s : State) : List (Nat × Option Nat × Option Nat) :=
  (List.range 8).filterMap (fun m =>
    if m = s.boot.moduleNo then none
    else
      let e := ((s.linkOf? m).map (·.val), s.alternate? m)
      if e.1.isNone && e.2.isNone then none else some (m, e))

/-- R505: the table changes at a commit, with its epoch. -/
def State.routesCommit (s : State) : State :=
  let r := s.routesNow
  if r == s.chain.routes then s else s.withChain { s.chain with routes := r, routeEpoch := s.chain.routeEpoch + 1 }

def State.route? (s : State) (m : Nat) : Option (Option Nat × Option Nat) := (s.chain.routes.find? (fun r => r.1 == m)).map (·.2)

/-- The link of the alternate route to a module, when it is UP. -/
def State.altLink? (s : State) (m : Nat) : Option Link :=
  match ((s.route? m).bind (·.2)).bind s.linkOf? with
  | some k => if (s.link k).isUp then some k else none
  | none => none

/-- The primary link to a module, when it is UP. -/
def State.primaryLink? (s : State) (m : Nat) : Option Link :=
  match s.linkOf? m with
  | some k => if (s.link k).isUp then some k else none
  | none => none

/-- R505: the link by which packets for a module leave. -/
def State.outLink? (s : State) (m : Nat) : Option Link := s.primaryLink? m <|> s.altLink? m

/-- A module has a route that is UP; the module itself has one. -/
def State.routeUp (s : State) (m : Nat) : Bool := m == s.boot.moduleNo || (s.outLink? m).isSome

/-! ### Chain packets (R494, R495) -/

/-- Table 14.2: the 12 bytes of a header. -/
def ChainPacket.header (p : ChainPacket) : List Byte :=
  le 1 (p.type + 16 * p.vc + 64 * boolNat p.fence) ++ le 1 (p.flits + 8 * p.creditVc + 32 * p.creditCount) ++ le 2 p.linkSeq ++
    le 2 p.ackSeq ++ le 2 (p.srcNode + 128 * p.srcModule + 1024 * p.epoch) ++ le 2 (p.dstNode + 128 * p.dstModule) ++ le 2 p.e2eSeq

/-- R494: header, payload and CRC-32C. -/
def ChainPacket.bytes (p : ChainPacket) : List Byte :=
  let body := p.header ++ p.payload
  body ++ le 4 (crc32c body)

/-- R495: the payload flit of PEER_TICK and TRAIN. -/
def flitBytes (f : PeerFlit) : List Byte :=
  fit 64 (le 8 f.tick.toNat ++ le 8 f.deviceTime.toNat ++
    [f.timeState, f.moduleNo, f.tray, f.slot, f.link, f.routeEpoch, f.flags])

/-- R495: the payload flit of CREDIT_RESET. -/
def creditBytes (free : Vector Nat 4) : List Byte := fit 64 (free.toList.flatMap (le 2))

/-- The fields of a received DATA packet's header. -/
def headerOf (i : ChainDataIn) : ChainPacket :=
  { type := 1, vc := i.vc.val, fence := i.fence, flits := i.flits, creditVc := i.creditVc.val, creditCount := i.creditCount,
    linkSeq := i.linkSeq.toNat, ackSeq := i.ackSeq.toNat, srcModule := i.srcModule.val, srcNode := i.srcNode.toNat,
    epoch := i.epoch.toNat, dstModule := i.dstModule.val, dstNode := i.dstNode.toNat, e2eSeq := i.e2eSeq.toNat, payload := i.payload }

/-- R494, R497: the payload has the length FLITS says, and the CRC is correct. -/
def crcOk (i : ChainDataIn) : Bool :=
  i.payload.length == 64 * i.flits && crc32c ((headerOf i).header ++ i.payload) == i.crc.toNat

/-- A DATA packet in the replay buffer as it is sent; the link fills in what belongs to the link. -/
def Replay.packet (r : Replay) : ChainPacket :=
  { type := 1, vc := r.vc, fence := r.fence, flits := r.flits, creditVc := 0, creditCount := 0, linkSeq := r.seq, ackSeq := 0,
    srcModule := r.srcModule, srcNode := r.srcNode, epoch := r.epoch, dstModule := r.dstModule, dstNode := r.dstNode, e2eSeq := r.e2eSeq,
    payload := r.payload }

/-- A link sends a packet: its header acknowledges what has come (R497, R498) and returns at most 7 credits of the lowest VC that owes
some (notes/assumptions/174.md). -/
def LinkSt.emit (x : LinkSt) (p : ChainPacket) : LinkSt :=
  let v := (List.finRange 4).find? (fun v => x.owed.get v != 0)
  let n := (v.map (fun v => min 7 (x.owed.get v))).getD 0
  { x with
    owed := (v.map (fun v => x.owed.set v.val (x.owed.get v - n))).getD x.owed,
    out := { p with ackSeq := x.rxExpect, creditVc := (v.map (·.val)).getD 0, creditCount := n } :: x.out }

/-- A receive buffer is free again: its credit is owed to the peer (R470, R496). -/
def LinkSt.freed (x : LinkSt) (v : Fin 4) : LinkSt := { x with owed := x.owed.set v.val (x.owed.get v + 1) }

/-- A packet between the chain nodes at the ends of a link: NAK, CREDIT_RESET, CREDIT_RESET_ACK, TRAIN. -/
def State.linkPacket (s : State) (k : Link) (type : Nat) (payload : List Byte) : ChainPacket :=
  { type := type, vc := 0, fence := false, flits := payload.length / 64, creditVc := 0, creditCount := 0, linkSeq := 0, ackSeq := 0,
    srcModule := s.boot.moduleNo, srcNode := nodeOfUnit ⟨.chainLink, k.val⟩, epoch := s.chain.routeEpoch % 64,
    dstModule := (s.link k).peer.getD 0, dstNode := nodeOfUnit ⟨.chainLink, k.val⟩, e2eSeq := 0, payload := payload }

/-! ### Sending, acknowledging and replaying DATA (R496-R499) -/

/-- Sends the oldest waiting packets while there are credits and room in the replay buffer. -/
def LinkSt.pump : Nat → LinkSt → LinkSt
  | 0, x => x
  | fuel + 1, x =>
    match x.queue with
    | [] => x
    | r :: rest =>
      if h : r.vc < 4 then
        let c := x.credits.get ⟨r.vc, h⟩
        if c = 0 || 2048 ≤ x.replay.length || !x.isUp then x
        else
          let r := { r with seq := x.txSeq }
          LinkSt.pump fuel ({ x with
            queue := rest, replay := x.replay ++ [r], txSeq := (x.txSeq + 1) % 65536,
            credits := x.credits.set r.vc (c - 1), sent := x.sent.set r.vc ((x.sent.get ⟨r.vc, h⟩ + 1) % 2 ^ 32) }.emit r.packet)
      else LinkSt.pump fuel { x with queue := rest }

def LinkSt.send (x : LinkSt) (r : Replay) : LinkSt :=
  LinkSt.pump (x.queue.length + 1) { x with queue := x.queue ++ [r] }

/-- R498: drops the replay buffer's packets that an ACK_SEQ has passed; progress clears the count of R499. -/
def LinkSt.acked (x : LinkSt) (ackSeq : Nat) : LinkSt :=
  let before (r : Replay) : Bool := let d := (ackSeq + 65536 - r.seq) % 65536; decide (1 ≤ d) && decide (d ≤ 32768)
  let rest := x.replay.dropWhile before
  { x with replay := rest, noProgress := if rest.length < x.replay.length then 0 else x.noProgress }

/-- R496: credits the peer returns. -/
def LinkSt.credited (x : LinkSt) (vc : Fin 4) (n : Nat) : LinkSt :=
  { x with credits := x.credits.set vc.val (x.credits.get vc + n), back := x.back.set vc.val ((x.back.get vc + n) % 2 ^ 32) }

/-- Everything in the replay buffer is sent again. -/
def LinkSt.replayAll (x : LinkSt) : LinkSt :=
  x.replay.foldl (fun x r => x.emit r.packet) { x with noProgress := x.noProgress + 1 }

/-- What any packet's header does at an UP link: it acknowledges and returns credits, and what waited for them goes. -/
def LinkSt.takeHeader (x : LinkSt) (ackSeq : Nat) (vc : Fin 4) (n : Nat) : LinkSt :=
  if x.isUp then
    let y := (x.acked ackSeq).credited vc n
    LinkSt.pump y.queue.length y
  else x

/-! ### Link down (R499, R500) -/

/-- CAUSE of CHAIN_LINK_STATE (R499 order, from 1). -/
def downCode : LinkDownCause → Nat
  | .alignmentLost => 1
  | .uncorrectableCodewords => 2
  | .replaysNoProgress => 3
  | .peerTrain => 4

/-- The link goes DOWN: its unacknowledged and waiting packets return to their sources, and the event is due at the next commit
(`cause` is its CAUSE). -/
def State.linkDown (s : State) (k : Link) (cause : Nat) : State :=
  let x := s.link k
  if x.state == .down then s
  else
    let s := s.withChain { s.chain with nacks := s.chain.nacks ++ x.replay ++ x.queue }
    let s := s.modLink k (fun x => { x with state := .down, replay := [], queue := [], noProgress := 0, gotReset := false, gotAck := false })
    if x.isUp then s.atNext (fun s => s.raise pfFn 0x0500 (le 1 k.val ++ le 1 0 ++ le 1 cause)) else s

/-- A replay; the eighth without progress takes the link down. -/
def State.replayLink (s : State) (k : Link) : State :=
  let x := (s.link k).replayAll
  let s := s.modLink k (fun _ => x)
  if 8 ≤ x.noProgress then s.linkDown k (downCode .replaysNoProgress) else s

/-- NAK (R498): replay from the packet it names. -/
def execNak (i : NakIn) (s : State) : Out :=
  .next (if s.dead || !(s.link i.link).isUp then s
    else (s.modLink i.link (fun x => x.acked i.ackSeq.toNat)).replayLink i.link)

/-- REPLAY_TIMEOUT (R498): 4 us without an acknowledgement. -/
def execReplayTimeout (i : LinkIn) (s : State) : Out :=
  .next (if s.dead || !(s.link i.link).isUp || (s.link i.link).replay.isEmpty then s else s.replayLink i.link)

/-- CHAIN_LINK_STATE (R499, R500). -/
def execChainLinkState (i : LinkDownIn) (s : State) : Out :=
  .next (if s.dead then s else s.linkDown i.link (downCode i.cause))

/-- R493, R495: the PEER_TICK of this commit. -/
def State.peerFlit (s : State) (k : Link) : PeerFlit :=
  { tick := BitVec.ofNat 64 s.clk.tick, deviceTime := BitVec.ofInt 64 s.clk.devTime, timeState := s.clk.stateByte,
    moduleNo := BitVec.ofNat 8 s.boot.moduleNo, tray := BitVec.ofNat 8 s.boot.tray, slot := BitVec.ofNat 8 s.boot.slot,
    link := BitVec.ofNat 8 k.val, routeEpoch := BitVec.ofNat 8 s.chain.routeEpoch,
    flags := BitVec.ofNat 8 (boolNat s.isReady + 2 * boolNat s.work.evacuating) }

/-- R493: a PEER_TICK goes to a module, on VC3, over the primary link or the alternate route. -/
def State.sendTick (s : State) (src dst : Nat) (f : PeerFlit) : State :=
  match s.outLink? dst with
  | some k => s.modLink k (fun x => x.emit
      { s.linkPacket k 6 (flitBytes f) with vc := 3, srcModule := src, dstModule := dst, epoch := f.routeEpoch.toNat % 64 })
  | none => s

/-! ### Training and the credit reset (R491, R492, R503, R504) -/

/-- R491: a TRAIN packet shows a wrong identity or wiring. -/
def State.miswired (s : State) (i : TrainIn) : Bool :=
  i.flit.moduleNo.toNat == s.boot.moduleNo || i.flit.link.toNat != i.link.val ||
    i.flit.slot.toNat != (wiredTo i.link s.boot.slot s.boot.tray).1

/-- 17:R580: the training record holds this link with this peer, so that the link is trained from it. -/
def State.recorded (s : State) (i : TrainIn) : Bool :=
  s.nor.training0.any (fun r => r.data.links.any (fun t =>
    t.link == i.link && t.moduleNo == i.flit.moduleNo && t.tray == i.flit.tray && t.slot == i.flit.slot && t.peerLink == i.flit.link))

/-- The module a flit names, if it can be one. -/
def flitModule (f : PeerFlit) : Option ModuleNo := if h : f.moduleNo.toNat < 8 then some ⟨f.moduleNo.toNat, h⟩ else none

/-- TRAIN: the peer trains: an UP link goes DOWN (R499); a miswired one stays DOWN; else the handshake of R503 begins. -/
def execTrain (i : TrainIn) (s : State) : Out :=
  .next (
    if s.dead || !s.available .chainLink i.link.val then s
    else
      let s := s.linkDown i.link (downCode .peerTrain)
      match flitModule i.flit with
      | some m =>
        if s.miswired i then miswire s
        else
          let s := s.modLink i.link (fun x => { x with
            state := .handshake, peer := some m.val, fromRecord := s.recorded i, txSeq := 0, rxExpect := 0, gotReset := false, gotAck := false,
            owed := Vector.replicate 4 0 })
          let s := s.modLink i.link (fun x => (x.emit (s.linkPacket i.link 7 (flitBytes (s.peerFlit i.link)))).emit
            (s.linkPacket i.link 4 (creditBytes (Vector.replicate 4 64))))
          s.modPeer m (fun p => { p with offset := (i.flit.tick.toNat : Int) - s.clk.tick, heard := false })
      | none => miswire s)
where
  miswire (s : State) : State :=
    s.atNext (fun s => s.raise pfFn 0x0501 (le 1 i.link.val ++ le 1 i.flit.moduleNo.toNat ++ le 1 i.flit.tray.toNat ++
      le 1 i.flit.slot.toNat ++ le 1 i.flit.link.toNat))

/-- CREDIT_RESET (R503): the peer's free buffers are this end's credits; it is acknowledged. -/
def execCreditReset (i : CreditResetIn) (s : State) : Out :=
  .next (if s.dead || (s.link i.link).state != .handshake then s
    else s.modLink i.link (fun x => { x with
      credits := i.free, back := x.sent, gotReset := true, txSeq := 0, rxExpect := 0 }.emit
        (s.linkPacket i.link 5 (List.replicate 64 0))))

/-- CREDIT_RESET_ACK (R503). -/
def execCreditResetAck (i : LinkIn) (s : State) : Out :=
  .next (if s.dead || (s.link i.link).state != .handshake then s else s.modLink i.link (fun x => { x with gotAck := true }))

/-- CHAIN_LINK_UP (R504): the coming commit is the first one after the handshake. -/
def execChainLinkUp (i : LinkIn) (s : State) : Out :=
  .next (
    let x := s.link i.link
    if s.dead || x.state != .handshake || !x.gotReset || !x.gotAck then s
    else (s.modLink i.link (fun x => { x with state := .up })).atNext (fun s =>
      s.raise pfFn 0x0500 (le 1 i.link.val ++ le 1 1 ++ le 1 0)))

/-! ### Receiving DATA (R497, R502, R506) -/

/-- R502: the values accepted from a source, the newest first. -/
def State.e2eOf (s : State) (src : Nat) : List Nat := ((s.chain.e2eSeen.find? (fun e => e.1 == src)).map (·.2)).getD []

/-- R502: a value already accepted, or older than the window of 4,096. -/
def e2eStale (seen : List Nat) (v : Nat) : Bool :=
  seen.contains v || match seen.head? with
    | some newest => let d := (newest + 65536 - v) % 65536; decide (4096 ≤ d) && decide (d < 32768)
    | none => false

/-- The window after a value is accepted. -/
def e2eAdd (seen : List Nat) (v : Nat) : List Nat :=
  match seen with
  | [] => [v]
  | newest :: rest =>
    let all := if (v + 65536 - newest) % 65536 < 32768 then v :: newest :: rest else newest :: v :: rest
    all.filter (fun w => decide ((all.headD v + 65536 - w) % 65536 < 4096))

/-- R506: a packet of the source's current chain route epoch, or the one before it (or one not yet reported). -/
def epochFresh (current epoch : Nat) : Bool :=
  let d := (current % 64 + 64 - epoch) % 64
  decide (d < 2) || decide (32 ≤ d)

/-- A packet for this module: a duplicate is discarded, another is delivered to its node. -/
def State.takeData (s : State) (i : ChainDataIn) : State :=
  let src := i.srcModule.val
  let seen := s.e2eOf src
  if e2eStale seen i.e2eSeq.toNat then s
  else
    s.withChain { s.chain with
      e2eSeen := (src, e2eAdd seen i.e2eSeq.toNat) :: s.chain.e2eSeen.filter (fun e => e.1 != src),
      accepted := (src, i.e2eSeq.toNat, i.dstNode.toNat) :: s.chain.accepted,
      incoming := s.chain.incoming ++ i.mirror.toList }

/-- R506: a packet for another module goes on by its route; without one it returns as a NACK. -/
def State.forward (s : State) (i : ChainDataIn) : State :=
  let r : Replay := { seq := 0, vc := 3, fence := i.fence, flits := i.flits, srcModule := i.srcModule.val, srcNode := i.srcNode.toNat,
                      epoch := i.epoch.toNat, dstModule := i.dstModule.val, dstNode := i.dstNode.toNat, e2eSeq := i.e2eSeq.toNat,
                      payload := i.payload }
  match s.outLink? i.dstModule.val with
  | some k => s.modLink k (fun x => x.send r)
  | none => s.withChain { s.chain with nacks := s.chain.nacks ++ [r] }

/-- CHAIN_DATA (R497): accepted when its CRC is correct and its LINK_SEQ is the one expected, else answered with a NAK. -/
def execChainData (i : ChainDataIn) (s : State) : Out :=
  .next (
    let x := s.link i.link
    if s.dead || !x.isUp then s
    else if !crcOk i || i.linkSeq.toNat != x.rxExpect then s.modLink i.link (fun x => x.emit (s.linkPacket i.link 3 []))
    else
      let s := s.modLink i.link (fun x => ({ x with rxExpect := (x.rxExpect + 1) % 65536 }.freed i.vc).takeHeader i.ackSeq.toNat
        i.creditVc i.creditCount)
      if !epochFresh (s.peer i.srcModule).epoch i.epoch.toNat then s
      else if i.dstModule.val = s.boot.moduleNo then s.takeData i
      else s.forward i)

/-- NACK (R501): re-sent over the alternate route; without a route to the destination the job faults. -/
def execNack (i : NackIn) (s : State) : Out :=
  .next (
    let mine (r : Replay) : Bool := r.dstModule == i.dstModule.val && r.e2eSeq == i.e2eSeq.toNat && r.srcNode == i.srcNode.toNat
    let r : Replay := (s.chain.nacks.find? mine).getD
      { seq := 0, vc := 0, fence := false, flits := 1, srcModule := s.boot.moduleNo, srcNode := i.srcNode.toNat,
        epoch := s.chain.routeEpoch % 64, dstModule := i.dstModule.val, dstNode := i.dstNode.toNat, e2eSeq := i.e2eSeq.toNat,
        payload := List.replicate 64 0 }
    if s.dead then s
    else
      let s := s.withChain { s.chain with nacks := s.chain.nacks.filter (fun r => !mine r) }
      match s.altLink? i.dstModule.val <|> s.primaryLink? i.dstModule.val with
      | some k => s.modLink k (fun x => x.send r)
      | none => s.jobFault i.job none ⟨.chainLink, ((s.linkOf? i.dstModule.val).map (·.val)).getD 0⟩)

/-! ### The buddy (R512) -/

/-- R512: a module of the tray qualifies. -/
def State.mayBuddy (s : State) (m : ModuleNo) : Bool :=
  let p := s.peer m
  p.ready && !p.evacuating && !p.lost && p.heard && s.routeUp m.val

/-- The first qualifying module, in the order of the slot numbers' exclusive or with 1, 2 and 3. -/
def State.buddyNow (s : State) : Option Nat :=
  ((List.range 3).map (fun k => 4 * s.boot.tray + (s.boot.slot ^^^ (k + 1)))).find? (fun m =>
    if h : m < 8 then s.mayBuddy ⟨m, h⟩ else false)

/-- R512: a change of buddy: the event of this commit, a mirror of every stream owed from the next one, the former buddy to be released. -/
def State.reviseBuddy (s : State) : State :=
  let b := s.buddyNow
  if b == s.chain.buddy || !s.isReady then s
  else
    let s := s.raise pfFn 0x0507 (le 1 (s.chain.buddy.getD 0xFF) ++ le 1 (b.getD 0xFF))
    s.withChain { s.chain with
      buddy := b, mirrorDue := b.map (fun _ => s.clk.tick + 1), capturing := none,
      formerBuddy := if b.isSome then s.chain.buddy <|> s.chain.formerBuddy else s.chain.formerBuddy }

/-- PEER_TICK (R492, R493): the peer's flags, its offset when the link is direct, and the buddy they decide. One for another module goes on by
its route (R506). -/
def execPeerTick (i : PeerTickIn) (s : State) : Out :=
  .next (
    match flitModule i.flit with
    | some m =>
      if s.dead || (s.link i.link).state == .down || m.val = s.boot.moduleNo then s
      else
        let s := s.modLink i.link (fun x => x.takeHeader i.ackSeq.toNat i.creditVc i.creditCount)
        if i.dstModule.val ≠ s.boot.moduleNo then s.sendTick m.val i.dstModule.val i.flit
        else
        let s := s.modPeer m (fun p => { p with
          lastSeen := some s.clk.tick, ready := i.flit.flags.getLsbD 0, evacuating := i.flit.flags.getLsbD 1, heard := true,
          lost := false, epoch := i.flit.routeEpoch.toNat,
          offset := if i.direct then (i.flit.tick.toNat : Int) - s.clk.tick else p.offset })
        s.atNext State.reviseBuddy
    | none => s)

/-! ### Mirrors (R513) -/

/-- What a mirror of a stream holds. -/
def State.mirrorOf (s : State) (x : Stream) : Mirror :=
  { home := s.boot.moduleNo, handle := x.handle, fn := x.fn, ingestSlot := x.ingestSlot, metadataSlot := x.metadataSlot,
    cls := x.cls, codec := x.codec, seiSource := x.seiSource, poolMode := x.poolMode, width := x.width, height := x.height,
    frameRate := x.frameRate, timeCodeOffset := x.timeCodeOffset, baseUncertainty := x.baseUncertainty,
    motionMode := x.motionMode, binding := x.binding, tracker := x.tracker, zones := x.zones, lines := x.lines,
    rules := x.rules, frameSeq := x.nextSeq, tokens := x.tokens,
    tableEpoch := (match tenantOf x.fn with
      | some t => (s.tenantSt t).tableEpoch
      | none => 0),
    quant := x.binding.filterMap (fun b => (s.model? x.fn b.model).map (fun m => (m.id, m.qepoch))) }

/-- MIRROR_CAPTURE (R513): behind a commit whose tick number is a multiple of 30, or the one after a change of buddy, the state that commit
left is captured, and sent in the tick that follows. -/
def execMirrorCapture (s : State) : Out :=
  .next (
    match s.chain.buddy with
    | some b =>
      if !s.isReady || !(s.chain.mirrorDue.any (fun n => decide (n ≤ s.clk.tick)) || s.clk.tick % 30 == 0) then s
      else
        let xs := s.work.streams.filter s.infersHere
        let s := xs.foldl (fun s x => s.chainSend (.mirrorOf b (s.mirrorOf x))) s
        s.withChain { s.chain with capturing := some (s.clk.tick, xs.map (·.handle)), mirrorDue := none }
    | none => s)

/-- MIRROR_ABANDONED (R513): the mirrors of the last capture are not acknowledged by the coming commit. -/
def execMirrorAbandoned (i : ModuleIn) (s : State) : Out :=
  .next (
    match s.chain.capturing with
    | some (t, hs) =>
      if s.dead || s.chain.buddy != some i.moduleNo.val then s
      else (s.withChain { s.chain with capturing := none }).atNext (fun s => s.raise pfFn 0x0506
        (le 1 i.moduleNo.val ++ le 3 0 ++ le 4 hs.length ++ le 8 t))
    | none => s)

/-- BUDDY_RELEASE (R512): a former buddy discards its copies. -/
def execBuddyRelease (i : ModuleIn) (s : State) : Out :=
  .next (if s.dead then s
    else (s.withChain { s.chain with
      mirrors := s.chain.mirrors.filter (fun m => m.home != i.moduleNo.val),
      incoming := s.chain.incoming.filter (fun m => m.home != i.moduleNo.val) }).atNext State.reviseBuddy)

/-- A mirror takes the place of the one before it. -/
def keepMirror (ms : List Mirror) (m : Mirror) : List Mirror := ms.filter (fun x => !(x.home == m.home && x.handle == m.handle)) ++ [m]

/-- What a commit does for mirrors: the buddy is the one that qualifies, mirrors that arrived become current, and a former buddy is released
once the mirrors at the new one are current (R512, R513). -/
def State.mirrorCommit (s : State) : State :=
  let s := s.reviseBuddy
  let s := s.withChain { s.chain with mirrors := s.chain.incoming.foldl keepMirror s.chain.mirrors, incoming := [] }
  match s.chain.capturing, s.chain.formerBuddy with
  | some (t, _), some b =>
    if t + 2 ≤ s.clk.tick then (s.chainSend (.releaseBuddy b)).withChain
      { (s.chainSend (.releaseBuddy b)).chain with formerBuddy := none, capturing := none }
    else s
  | _, _ => s

def State.sendPeerTicks (s : State) : State :=
  if s.isReady then s.chain.routes.foldl (fun s r => match s.outLink? r.1 with
    | some k => s.sendTick s.boot.moduleNo r.1 (s.peerFlit k)
    | none => s) s
  else s

/-- The output of the tick before makes room for this commit's. -/
def State.chainFresh (s : State) : State :=
  s.withChain { s.chain with out := [], accepted := [], links := s.chain.links.map (fun x => { x with out := [] }) }

/-! ### Loss of a peer and re-homing (R514-R517) -/

/-- A stream is processed, in part, on a module. -/
def Stream.runsOn (x : Stream) (m : Nat) : Bool := match x.remote with
  | some r => r.1 == m || r.2 == m
  | none => false

/-- A frame whose records another module forms ends at the coming commit, with the records it has sent, or without them (R511, R517). -/
def State.remoteDue (s : State) (e : RemoteEnd) : State :=
  s.withWork { s.work with remoteEnds := s.work.remoteEnds ++ [e] }

/-- R517: the frames of a stream whose records had not been delivered at the loss. -/
def State.endRemoteFrames (s : State) (x : Stream) : State :=
  x.frames.foldl (fun s f => s.remoteDue { handle := x.handle, seq := f.seq, records := none }) s

/-- Ends the migrations that name a lost module: the stream stays where it was. -/
def State.dropMigrations (s : State) (m : Nat) : State :=
  let gone := s.chain.migrations.filter (fun g => g.target == m || g.decode == m)
  let s := s.withChain { s.chain with migrations := s.chain.migrations.filter (fun g => !(g.target == m || g.decode == m)) }
  gone.foldl (fun s g => match s.workOf? (.streamMigrate g.handle) with
    | some w => s.finishWork w (failWith .unitUnavailable)
    | none => s) s

/-- The mirrors to re-home after a loss: those the lost module sent, and for own streams that it processed without one, what this
module still holds. -/
def State.lostMirrors (s : State) (m : Nat) : List Mirror :=
  let held := s.chain.mirrors.filter (fun x => x.home == m)
  held ++ ((s.work.streams.filter (fun x => x.runsOn m && !held.any (fun h => h.handle == x.handle))).map s.mirrorOf)

/-- R514-R517: a peer is lost at a commit: its streams are to be re-homed at the one after. -/
def State.losePeer (s : State) (m : ModuleNo) : State :=
  let s := (s.modPeer m (fun p => { p with lost := true, ready := false })).raise pfFn 0x0502 (le 1 m.val)
  let due := (s.lostMirrors m.val).map (fun x => (s.clk.tick + 1, m.val, x))
  let s := s.withChain { s.chain with
    rehoming := s.chain.rehoming ++ due, mirrors := s.chain.mirrors.filter (fun x => x.home != m.val),
    incoming := s.chain.incoming.filter (fun x => x.home != m.val),
    grants := s.chain.grants.filter (fun g => g.home != m.val) }
  let s := (s.work.streams.filter (fun x => x.runsOn m.val)).foldl State.endRemoteFrames s
  (s.dropMigrations m.val).reviseBuddy

/-- R514: at the coming commit no PEER_TICK has come for 3 ticks, since one has come after the peer's last TRAIN. -/
def State.silent (s : State) (m : ModuleNo) : Bool :=
  let p := s.peer m
  p.heard && !p.lost && match p.lastSeen with
    | some t => decide (t + 3 ≤ s.clk.tick)
    | none => false

/-- CHAIN_PEER_LOST (R514). -/
def execChainPeerLost (i : ModuleIn) (s : State) : Out :=
  .next (if s.dead || !s.silent i.moduleNo then s else s.atNext (fun s => s.losePeer i.moduleNo))

/-- A stream opened from its mirror (R515, R92). -/
def streamOfMirror (m : Mirror) (tick : Nat) : Stream :=
  { handle := m.handle, fn := m.fn, ingestSlot := m.ingestSlot, metadataSlot := m.metadataSlot, cls := m.cls, codec := m.codec,
    seiSource := m.seiSource, poolMode := m.poolMode, width := m.width, height := m.height, frameRate := m.frameRate,
    timeCodeOffset := m.timeCodeOffset, baseUncertainty := m.baseUncertainty, motionMode := m.motionMode,
    binding := m.binding, zones := m.zones, lines := m.lines, rules := m.rules, filter := none, subscribers := [],
    tokens := min 2 m.tokens, refillBase := tick, refillCount := 0, nextSeq := m.frameSeq + 64, openPic := none, waiting := [],
    frames := [], lastT0 := none, started := [], fetchDebt := 0, dpb := [], paramSets := [], activeSps := none, motionRef := none,
    prevField := none, tracker := m.tracker, lastCapture := none, lastCaptureUnc := 0, lastCaptureSeq := 0, closing := false,
    closeDue := false, safe := none, safeUntil := none, remote := none, lastMoved := tick }

/-- The stream's own record when this module is its home: it comes back from the lost module. -/
def State.homeStream? (s : State) (lost : Nat) (m : Mirror) : Option Stream :=
  s.work.streams.find? (fun x => x.handle == m.handle && x.fn == m.fn && x.runsOn lost)

/-- R516: why a stream cannot be re-homed: the reason and, for admission, its refusal reason. -/
def State.rehomeFault (s : State) (lost : Nat) (m : Mirror) : Option (Nat × Nat) :=
  let own := s.homeStream? lost m
  let x := streamOfMirror m s.clk.tick
  if own.isNone && s.handleTaken m.handle then some (1, 0)
  else if own.isNone && (!s.queueIs m.fn m.ingestSlot .ingest || s.ingestBound m.fn m.ingestSlot ||
      !s.queueIs m.fn m.metadataSlot .metadata) then some (2, 0)
  else if m.binding.any (fun b => (s.image? m.fn b.model).isNone) then some (3, 0)
  else if s.work.evacuating then some (4, 1)
  else match s.admitReason (s.loadsWithout (some m.handle)) (s.profileOf x) with
    | some r => some (4, r)
    | none => if s.host.autoRehome then none else some (5, 0)

/-- R515: the stream is restored, without references. -/
def State.rehome (s : State) (lost : Nat) (m : Mirror) : State :=
  match s.homeStream? lost m with
  | some x =>
    let seq := max x.nextSeq (m.frameSeq + 64)
    let s := s.freeBuffers (s.partOf x.fn) x.pictureBuffers
    (s.modStream x.handle (fun x => { x with
      remote := none, tracker := m.tracker, nextSeq := seq, dpb := [], paramSets := [], activeSps := none, motionRef := none,
      prevField := none, tokens := min 2 m.tokens, refillBase := s.clk.tick, refillCount := 0,
      lastMoved := s.clk.tick })).raiseStream m.fn 0x0203 m.handle (le 8 seq ++ le 1 lost)
  | none =>
    (s.addStream (streamOfMirror m s.clk.tick)).raiseStream m.fn 0x0203 m.handle (le 8 (m.frameSeq + 64) ++ le 1 lost)

/-- R515, R516: a stream of a lost module is restored, or its re-homing fails; its home module then closes it. -/
def State.takeRehoming (s : State) (lost : Nat) (m : Mirror) : State :=
  match s.rehomeFault lost m with
  | none => s.rehome lost m
  | some (reason, refusal) =>
    let s := s.raiseStream pfFn 0x0204 m.handle (le 1 reason ++ le 1 0 ++ le 2 refusal)
    match s.homeStream? lost m with
    | some x => s.removeStream x
    | none => s

/-- STREAM_REHOMED (R515, R516): the coming commit is the one after the loss. -/
def execStreamRehomed (i : RehomeIn) (s : State) : Out :=
  .next (
    let mine (e : Nat × Nat × Mirror) : Bool := e.2.2.handle == i.handle.toNat && decide (e.1 ≤ s.clk.tick + 1)
    match s.chain.rehoming.find? mine with
    | some (due, lost, m) =>
      if !s.isReady then s
      else (s.withChain { s.chain with rehoming := s.chain.rehoming.erase (due, lost, m) }).atNext (fun s => s.takeRehoming lost m)
    | none => s)

/-- EQUALISATION_RETUNE (15:R518): once every 600 ticks a link pauses to retune its equalisation. -/
def execEqualisationRetune (i : LinkIn) (s : State) : Out :=
  .next (
    let due := match (s.link i.link).eqTick with
      | some t => decide (t + 600 ≤ s.clk.tick)
      | none => true
    if s.dead || !(s.link i.link).isUp || !due then s
    else s.modLink i.link (fun x => { x with eqTick := some s.clk.tick }))

end Sys2Proof.Machine
end

