-- ==== Sys2Proof/Machine/Migrate.lean ====
section
/-! DEFINITION. Migration of streams (14_filigree_chain.md, R508-R511), tray load balancing (15_admission_latency.md, R533-R536) and
evacuation (18_management_power.md, R607-R610). -/

namespace Sys2Proof.Machine

/-! ### Starting a migration (R509, R510) -/

def State.migrating (s : State) (handle : Nat) : Bool := s.chain.migrations.any (fun m => m.handle == handle)

/-- The module that runs T+1 to T+4 of a stream. -/
def State.servedBy (s : State) (x : Stream) : Nat := match x.remote with
  | some r => r.2
  | none => s.boot.moduleNo

/-- The remote pair of a stream once it is moved: none when everything runs at home. -/
def State.remotePair (s : State) (decode target : Nat) : Option (Nat × Nat) :=
  if decode = s.boot.moduleNo && target = s.boot.moduleNo then none else some (decode, target)

/-- R509, condition 4, for this module's own share of a stream: the reason it is refused. -/
def State.ownShare (s : State) (x : Stream) (target decode : Nat) : Option Nat :=
  if target = s.boot.moduleNo || decode = s.boot.moduleNo then
    s.admitReason (s.loadsWithout (some x.handle)) (s.profileOf { x with remote := s.remotePair decode target })
  else none

/-- R509, conditions 1 and 2 of Table 14.4, and condition 4 where no other module is named. -/
def State.migrationFault (s : State) (x : Stream) (target decode : Nat) : Option Answer :=
  let named := [target, decode].eraseDups
  if isUrgent x.cls || s.migrating x.handle then some (failWith .invalidState)
  else if !named.all s.routeUp then some (failWith .unitUnavailable)
  else if named == [s.boot.moduleNo] then (s.ownShare x target decode).map admissionRefused
  else none

/-- Table 14.5, commit c: admission requests go to the named modules. -/
def State.startMigration (s : State) (x : Stream) (target decode : Nat) (head : Option CmdHead) (balancer : Bool) : State :=
  let m : Migration := { handle := x.handle, target := target, decode := decode, head := head, balancer := balancer,
                         start := s.clk.tick, switched := false, previous := s.servedBy x,
                         ownRefusal := s.ownShare x target decode }
  let s := s.withChain { s.chain with migrations := s.chain.migrations ++ [m] }
  ([target, decode].eraseDups.filter (· != s.boot.moduleNo)).foldl (fun s n => s.chainSend (.admissionRequest n x.handle)) s

def applyStreamMigrate (h : CmdHead) (pos : Option RingPos) (p : StreamMigrateP) : CmdEffect := fun s =>
  let target := p.targetModule.toNat
  let decode := if p.decodeModule.toNat = 0xFF then target else p.decodeModule.toNat
  match s.liveStream? h.fn p.handle.toNat with
  | none => refuse s .notFound
  | some x => match s.migrationFault x target decode with
    | some a => (s, some a)
    | none => ((s.startMigration x target decode (some h) false).beginWork h 0x33 pos (.streamMigrate x.handle), none)

/-- STREAM_MIGRATE (R509). -/
def execStreamMigrate (h : CmdHead) (p : StreamMigrateP) (s : State) : Out :=
  s.ringRow h (.streamMigrate p) (applyStreamMigrate h none p)

def State.migration? (s : State) (handle : Nat) : Option Migration := s.chain.migrations.find? (fun m => m.handle == handle)

def State.modMigration (s : State) (handle : Nat) (g : Migration → Migration) : State :=
  s.withChain { s.chain with migrations := updWhere (fun m => m.handle == handle) g s.chain.migrations }

/-- A migration ends; its command, if it has one, completes at the coming commit. -/
def State.endMigration (s : State) (m : Migration) (a : Answer) : State :=
  let s := s.withChain { s.chain with migrations := s.chain.migrations.erase m }
  match s.workOf? (.streamMigrate m.handle) with
  | some w => s.finishWork w a
  | none => s

/-- MIGRATION_SWITCH (R510): the coming commit is c + 3 or later: home T+0 stops, and reference pictures, the motion reference and the
concealment bitmaps go to the named modules. Once those have met the conditions of Table 14.4, a refusal of this module's own share ends the
migration. -/
def execMigrationSwitch (i : HandleP) (s : State) : Out :=
  .next (
    match s.migration? i.handle.toNat with
    | some m =>
      if !s.isReady || m.switched || s.clk.tick + 1 < m.start + 3 then s
      else match m.ownRefusal with
      | some r => s.endMigration m (admissionRefused r)
      | none =>
        let s := s.modMigration m.handle (fun m => { m with switched := true })
        ([m.decode, m.target].eraseDups.filter (· != s.boot.moduleNo)).foldl (fun s n => s.chainSend (.migrationCopy n m.handle)) s
    | none => s)

/-- R536: STREAM_BALANCED or BALANCE_ADVICE, for the PF and the owner. -/
def State.tellBalance (s : State) (code : Nat) (x : Stream) (previous new : Nat) : State :=
  let d := le 1 previous ++ le 1 new
  (s.raiseStream pfFn code x.handle d).raiseStream x.fn code x.handle d

/-- R510: remote T+0 begins, and the balancer's migrations are reported (R536). -/
def State.moveStream (s : State) (m : Migration) (x : Stream) : State :=
  let s := s.modStream x.handle (fun x => { x with remote := s.remotePair m.decode m.target, lastMoved := s.clk.tick })
  let s := s.endMigration m ok
  if m.balancer then s.tellBalance 0x0205 x m.previous m.target else s

/-- MIGRATION_COPY_COMPLETE (R510): the coming commit is the first one at which the copy is complete, behind the last home frame; or a named
module's refusal (Table 14.4). -/
def execMigrationCopyComplete (i : MigrationCopyIn) (s : State) : Out :=
  .next (
    match s.migration? i.handle.toNat, s.stream? i.handle.toNat with
    | some m, some x =>
      if !s.isReady then s
      else match i.refused with
        | some r => s.endMigration m (admissionRefused r.toNat)
        | none =>
          if !m.switched || !x.frames.isEmpty then s else s.atNext (fun s => s.moveStream m x)
    | some m, none => if s.isReady then s.endMigration m (failWith .notFound) else s
    | none, _ => s)

/-! ### Shares of other modules' streams (R508, R510) -/

def grantOf (i : MigrationRequestIn) : Grant :=
  { home := i.home.val, handle := i.handle.toNat, decodeHere := i.decodeHere, inferHere := i.inferHere, cls := classOf i.cls.toNat,
    codec := i.codec.toNat, poolMode := i.poolMode, width := i.width.toNat, height := i.height.toNat,
    frameRate := i.frameRate.toNat, motionMode := i.motionMode.toNat,
    binding := i.models.map (fun m => { model := m.model.toNat, role := m.role.toNat, sourceHead := m.sourceHead.toNat,
                                        maxBoxes := m.maxBoxes.toNat }) }

/-- Table 14.4, condition 3: the tenant of the same number holds every bound model with the same package CRC. -/
def State.holdsModels (s : State) (i : MigrationRequestIn) : Bool :=
  let f := fnOfHandle i.handle.toNat
  (match tenantOf f with
   | some t => (s.tenantSt t).configured
   | none => false) &&
    i.models.all (fun m => match s.image? f m.model.toNat with
      | some im => im.crc == m.crc
      | none => false)

/-- The reason for which a share is refused; 0 when it is admitted. -/
def State.shareReason (s : State) (i : MigrationRequestIn) : Nat :=
  let g := grantOf i
  let others := { s.chain with grants := s.chain.grants.filter (fun x => !(x.home == g.home && x.handle == g.handle)) }
  if !s.holdsModels i then 0x13
  else if s.work.evacuating then 0x01
  else ((s.withChain others).admitReason ((s.withChain others).loadsWithout none) g.profile).getD 0

/-- MIGRATION_ADMISSION_REQUEST (R510): the share is admitted and reserved, or refused with its reason. -/
def execMigrationAdmissionRequest (i : MigrationRequestIn) (s : State) : Out :=
  .next (
    if !s.isReady then s
    else
      let r := s.shareReason i
      let g := grantOf i
      let s := s.chainSend (.admissionReply g.home g.handle r)
      if r != 0 then s
      else s.withChain { s.chain with
        grants := s.chain.grants.filter (fun x => !(x.home == g.home && x.handle == g.handle)) ++ [g] })

/-! ### Records formed elsewhere (R511) -/

/-- The home module's number of a tick of the module that serves a stream. -/
def State.homeTick (s : State) (m t : Nat) : Nat :=
  if h : m < 8 then ((t : Int) - (s.peer ⟨m, h⟩).offset).toNat else t

/-- A frame's end as the target module formed it. -/
def State.remoteEnd (s : State) (x : Stream) (f : Frame) (i : RemoteRecordsIn) : Ended :=
  { f.short x i.outcome.toNat i.cause.toNat false with
    t0 := s.homeTick (s.servedBy x) i.t0.toNat, timeState := i.timeState, capture := i.capture.toNat,
    uncertainty := i.uncertainty.toNat, deferTicks := i.deferTicks.toNat, concealKind := i.concealKind.toNat,
    concealedBlocks := i.concealedBlocks.toNat, dets := i.dets, summaries := i.summaries, alerts := i.alerts,
    suppressed := i.suppressed.toNat, totalDets := i.totalDets.toNat }

/-- R511, R517: one frame of a stream that runs elsewhere ends. -/
def State.takeRemoteEnd (s : State) (e : RemoteEnd) : State :=
  match s.stream? e.handle with
  | some x => match x.frames.find? (fun (f : Frame) => f.seq == e.seq) with
    | some f => match e.records with
      | some i => s.leaveEarly x f (s.remoteEnd x f i)
      | none => s.endEarly x f 7
    | none => s
  | none => s

/-- Among its frame results a commit takes the ends of frames that other modules have sent, and of those that a loss has cut off. -/
def State.remoteResults (s : State) : State :=
  s.work.remoteEnds.foldl State.takeRemoteEnd (s.withWork { s.work with remoteEnds := [] })

/-- REMOTE_RECORDS (R511): the frame ends at the coming commit, which writes its records. -/
def execRemoteRecords (i : RemoteRecordsIn) (s : State) : Out :=
  .next (
    match s.stream? i.handle.toNat with
    | some x => if s.isReady && !s.infersHere x && x.frames.any (fun f => f.seq == i.seq.toNat) then
        s.remoteDue { handle := x.handle, seq := i.seq.toNat, records := some i } else s
    | none => s)

/-! ### The tray load balancer (R534-R536) -/

/-- The load this module reports: the greatest of its partitions'. -/
def State.ownLoad (s : State) : Nat :=
  let all := s.loadsWithout none
  maxOf ((List.range (partCount s.work.startMask)).map (fun p => s.loadPercent p all))

/-- LOAD_EXCHANGE (R534): another module's load arrives, and this module's goes out. -/
def execLoadExchange (i : LoadIn) (s : State) : Out :=
  .next (if !s.isReady || i.moduleNo.val = s.boot.moduleNo then s
    else (s.modPeer i.moduleNo (fun p => { p with load := some i.load })).chainSend (.loadReport i.moduleNo.val s.ownLoad))

/-- CLASSES bit of Table 15.7. -/
def classBit : ServiceClass → Nat
  | .urgent => 0
  | .guaranteed => 1
  | .bestEffort => 2

/-- The percentage of a partition's capacity that a stream's charge on a resource takes, rounded up. -/
def State.percentOf (s : State) (p k : Nat) (l : Load) : Nat := ceilDiv (100 * (l.at_ k * l.rate)) (600000 * max 1 (nth 0 (s.admitCaps p) k))

/-- The allowed module of the lowest load that stays at or below LOW_WATER with the stream; `given` is what this evaluation has
already moved, by module. -/
def State.balanceTarget (s : State) (add : Nat) (given : List (Nat × Nat)) : Option Nat :=
  let loadOn (m : ModuleNo) : Option Nat := (s.peer m).load.map (fun l => l + sumOf ((given.filter (fun g => g.1 == m.val)).map (·.2)))
  let fits := allModules.filterMap (fun m => match loadOn m with
    | some l => if s.work.balance.modules.testBit m.val && m.val != s.boot.moduleNo && s.routeUp m.val &&
        decide (l + add ≤ s.work.balance.lowWater) then some (l, m.val) else none
    | none => none)
  ((sortBy (fun (a b : Nat × Nat) => decide (a.1 < b.1) || (a.1 == b.1 && decide (a.2 < b.2))) fits).head?).map (·.2)

/-- What an evaluation has done so far: the state, what it moved, and how many migrations it started. -/
structure Balancing where
  st : State
  given : List (Nat × Nat)
  moves : Nat
  deriving DecidableEq, Repr

/-- One candidate: it moves to its target, or the advice is given. -/
def Balancing.take (b : Balancing) (advise balancer : Bool) (p k : Nat) (x : Stream) : Balancing :=
  let add := b.st.percentOf p k (b.st.loadOf (b.st.profileOf x))
  if b.st.work.balance.maxMoves ≤ b.moves then b
  else match b.st.balanceTarget add b.given with
    | some m =>
      if (b.st.migrationFault x m m).isSome then b
      else
        { st := if advise then b.st.tellBalance 0x0206 x (b.st.servedBy x) m else b.st.startMigration x m m none balancer,
          given := (m, add) :: b.given, moves := b.moves + 1 }
    | none => b

/-- The streams of a partition that are processed here, by falling charge on a resource. -/
def State.byCharge (s : State) (p k : Nat) (allowed : Stream → Bool) : List Stream :=
  let c (x : Stream) : Nat := (s.loadOf (s.profileOf x)).at_ k
  sortBy (fun (a b : Stream) => decide (c b < c a))
    (s.work.streams.filter (fun x => s.partOf x.fn == p && s.infersHere x && !x.closing && allowed x))

/-- R535: a stream that the policy lets the balancer move. -/
def State.movable (s : State) (x : Stream) : Bool :=
  s.work.balance.classes.testBit (classBit x.cls) && s.work.balance.tenants.testBit x.fn.val && !isUrgent x.cls &&
    !s.migrating x.handle && decide (x.lastMoved + s.work.balance.minDwell ≤ s.clk.tick)

/-- One partition's part of an evaluation. -/
def Balancing.partition (b : Balancing) (advise : Bool) (p : Nat) : Balancing :=
  let all := b.st.loadsWithout none
  if b.st.loadPercent p all ≤ b.st.work.balance.highWater then b
  else
    let k := b.st.bindingResource p all
    (b.st.byCharge p k b.st.movable).foldl (fun b x => b.take advise true p k x) b

/-- R535, R536: an evaluation of every partition. -/
def State.balanceAll (s : State) : State :=
  ((List.range (partCount s.work.startMask)).foldl (fun b p => Balancing.partition b (s.work.balance.mode == 1) p)
    { st := s, given := [], moves := 0 }).st

/-- BALANCE_EVALUATION (R535, R536): the coming commit is one of an evaluation. -/
def execBalanceEvaluation (s : State) : Out :=
  .next (
    let pol := s.work.balance
    if !s.isReady || pol.mode = 0 || (s.clk.tick + 1) % max 1 pol.interval != s.boot.moduleNo * pol.interval / 8 then s
    else s.atNext State.balanceAll)

/-! ### Evacuation (R607-R610) -/

/-- EVACUATION_MIGRATE (R608): migrations that a commit of an evacuation starts in AUTO mode. -/
def State.evacuate (s : State) : State :=
  if s.work.evacuating && s.work.balance.mode == 2 && s.isReady then
    ((List.range (partCount s.work.startMask)).foldl (fun (b : Balancing) p =>
      let k := b.st.bindingResource p (b.st.loadsWithout none)
      (b.st.byCharge p k (fun x => !isUrgent x.cls && !b.st.migrating x.handle)).foldl (fun b x => b.take false false p k x) b)
      { st := s, given := [], moves := 0 }).st
  else s

/-- EVACUATION_REQUESTED (R607): EVAC_REQ_N is asserted; in force from the next commit. -/
def execEvacuationRequested (s : State) : Out :=
  .next (if s.dead || s.work.evacuating then s
    else
      let s := s.withWork { s.work with evacuating := true, evacDone := false }
      s.atNext (fun s => s.raiseAll (pfFn :: s.sealedFns.filter (fun f => !isPf f)) 0x0503 []))

/-- EVACUATION_COMPLETE (R609): no open stream, no migration, and no mirror that a peer depends on. -/
def execEvacuationComplete (s : State) : Out :=
  .next (
    if s.isReady && s.work.evacuating && !s.work.evacDone && s.work.streams.isEmpty && s.chain.migrations.isEmpty &&
        s.chain.mirrors.isEmpty && s.chain.incoming.isEmpty then
      (s.withWork { s.work with evacDone := true }).atNext (fun s => s.raise pfFn 0x0504 [])
    else s)

/-- EVACUATION_CANCELLED (R610): EVAC_REQ_N is released before EVAC_DONE_N was asserted. -/
def execEvacuationCancelled (s : State) : Out :=
  .next (
    if s.dead || !s.work.evacuating || s.work.evacDone then s
    else
      let s := s.withWork { s.work with evacuating := false }
      s.atNext (fun s => s.raise pfFn 0x0505 (le 2 s.chain.migrations.length)))

end Sys2Proof.Machine
end

