-- ==== Sys2Proof/Machine/Samples.lean ====
section
/-! DEFINITION. The sample channel (08_vision_motion.md, R312-R318): sessions, candidates, the permutation, the rates, the
entries and their data. -/

namespace Sys2Proof.Machine

/-! ### permute (R315) -/

/-- The number of bits after which 2^bits is no longer below `n`. -/
def permuteBits : Nat → Nat → Nat → Nat
  | 0, b, _ => b
  | fuel + 1, b, n => if 2 ^ b < n then permuteBits fuel (b + 1) n else b

def permuteHalf (n : Nat) : Nat := max 1 ((permuteBits 64 0 n + 1) / 2)

/-- The four rounds of one walk: `l` and `r` are the halves. -/
def permuteRounds : Nat → Nat → Nat → Nat → Nat × Nat → Nat × Nat
  | 0, _, _, _, x => x
  | k + 1, round, key, h, (l, r) =>
    let f := mix64 (key ^^^ (round <<< 32) ^^^ r) % 2 ^ h
    permuteRounds k (round + 1) key h (r, l ^^^ f)

def permuteOnce (key h x : Nat) : Nat :=
  let p := permuteRounds 4 0 key h (x / 2 ^ h, x % 2 ^ h)
  p.1 * 2 ^ h + p.2

/-- Cycle-walking: at most 2^(2h) walks reach a value below `n`. -/
def permuteWalk : Nat → Nat → Nat → Nat → Nat → Nat
  | 0, _, _, _, x => x
  | fuel + 1, key, h, n, x =>
    let y := permuteOnce key h x
    if y < n then y else permuteWalk fuel key h n y

def permute (c n seed epoch : Nat) : Nat :=
  let h := permuteHalf n
  permuteWalk (2 ^ (2 * h)) (w64 (seed ^^^ mix64 epoch)) h n c

/-! ### Candidates (R314) -/

/-- A candidate: the frame's stream and sequence, a box and its index for KIND 1, and what an entry says of it. -/
structure SampleCand where
  stream : Nat
  seq : Nat
  index : Nat
  box : Option Box
  picture : Picture
  concealed : Bool
  t0 : Nat
  capture : Nat
  deriving DecidableEq, Repr

/-- A frame's stage closed at the current commit, and the frame went on. -/
def Frame.passed (f : Frame) (stage : Stage) (closed n : Nat) : Bool :=
  f.stage == stage && f.invalid.isNone && f.withdrawn.isNone && nth 0 f.starts closed + 1 == n && n != 0

/-- KIND 0: the picture of a frame whose T+1 closes. -/
def Stream.pictureCands (x : Stream) (n : Nat) : List SampleCand :=
  (x.frames.filter (fun f => f.passed .infer 1 n)).map (fun f =>
    { stream := x.handle, seq := f.seq, index := 0xFFFF, box := none, picture := f.picture.getD default,
      concealed := f.conceal.any (· == true), t0 := f.t0, capture := f.capture.getD 0 })

/-- KIND 1: the boxes that a frame whose T+2 closes passed to crop-and-resize, each once, with the index of its detection. -/
def Frame.cropBoxes (f : Frame) : List (Cand × Nat) :=
  let pic := f.picture.getD default
  match f.ev.primary with
  | some i =>
    let kept := keptAll i (f.tensors i.heads.length) f.map
    let boxes := (f.ev.binding.filter (fun b => b.role == 1)).flatMap (fun b => stageBoxes kept b pic.width pic.height)
    kept.zipIdx.filter (fun c => boxes.contains c.1)
  | none => []

def Stream.boxCands (x : Stream) (n : Nat) : List SampleCand :=
  (x.frames.filter (fun f => f.passed .post 2 n)).flatMap (fun f =>
    let pic := f.picture.getD default
    f.cropBoxes.map (fun (c, k) =>
      { stream := x.handle, seq := f.seq, index := k, box := some c.box, picture := pic,
        concealed := meetsConcealed f.conceal pic.width c.box, t0 := f.t0, capture := f.capture.getD 0 }))

/-- A session's candidates of a commit, by stream handle, frame sequence and box index. -/
def State.sampleCands (s : State) (x : Session) : List SampleCand :=
  (s.work.streams.filter (fun y => y.fn == x.fn && (x.stream == 0xFFFF || x.stream == y.handle))).flatMap (fun y =>
    if x.kind = 0 then y.pictureCands s.clk.tick else y.boxCands s.clk.tick)

/-! ### Data and entries (R317) -/

/-- One output pixel's bytes: Y8 or RGB888. -/
def samplePixel (format : Nat) (pic : Picture) (v : Nat × Nat × Nat) : List Byte :=
  (channelValues (if format = 1 then 0 else 2) pic v.1 v.2.1 v.2.2).flatMap (le 1)

/-- The whole picture resampled to the output size, as prepare resamples it. -/
def sampleWhole (x : Session) (pic : Picture) : List Byte :=
  let shrink (p : List (List Nat)) := halveToH 13 x.outHeight (halveToW 13 x.outWidth p)
  let yp := shrink pic.luma
  let bp := shrink pic.cb
  let rp := shrink pic.cr
  let at_ (p : List (List Nat)) (i j : Nat) : Nat :=
    bilinear p ((2 * i + 1) * planeW p - x.outWidth) (2 * x.outWidth) ((2 * j + 1) * p.length - x.outHeight) (2 * x.outHeight)
  (List.range x.outHeight).flatMap (fun j => (List.range x.outWidth).flatMap (fun i =>
    samplePixel x.format pic (at_ yp i j, at_ bp i j, at_ rp i j)))

/-- A box resampled to the output size, as crop-and-resize does. -/
def sampleBox (x : Session) (pic : Picture) (b : Box) : List Byte :=
  let b := clipBox b pic.width pic.height
  (List.range x.outHeight).flatMap (fun j => (List.range x.outWidth).flatMap (fun i =>
    samplePixel x.format pic (cropSample pic b x.outWidth x.outHeight i j)))

def Session.dataOf (x : Session) (c : SampleCand) : List Byte :=
  match c.box with
  | some b => sampleBox x c.picture b
  | none => sampleWhole x c.picture

/-- R315: the position of candidate number `c` of a session's epoch; none when it is not eligible. -/
def Session.position (x : Session) (c : Nat) : Option Nat :=
  if x.order = 0 then some c
  else if c < x.setSize then
    let p := permute c x.setSize x.seed x.epoch
    if p < x.quota then some p else none
  else none

/-- Table 8.6, SAMPLE. -/
def Session.entry (x : Session) (c : SampleCand) (position bytes : Nat) : SampleEntry :=
  let ident := x.order == 0
  { type := 1, order := x.order, stream := if ident then c.stream else 0xFFFF, epoch := x.epoch,
    frameSeq := if ident then c.seq else 2 ^ 64 - 1, boxIndex := if ident then c.index else 0xFFFF, width := x.outWidth,
    height := x.outHeight, flags := boolNat c.concealed, position := position, dataBytes := bytes, tick := c.t0,
    capture := if ident then c.capture else 0, candidates := 0, delivered := 0, dropped := 0 }

/-- Table 8.6, SUMMARY. -/
def Session.summary (x : Session) (tick : Nat) : SampleEntry :=
  { type := 2, order := x.order, stream := 0xFFFF, epoch := x.epoch, frameSeq := 2 ^ 64 - 1, boxIndex := 0xFFFF, width := 0,
    height := 0, flags := 0, position := 0, dataBytes := 0, tick := tick, capture := 0, candidates := x.counter,
    delivered := x.delivered, dropped := x.dropped }

/-- The bytes of Table 8.6. -/
def SampleEntry.bytes (e : SampleEntry) : List Byte :=
  withCrc (le 1 e.type ++ le 1 e.order ++ le 2 e.stream ++ le 4 e.epoch ++ le 8 e.frameSeq ++ le 2 e.boxIndex ++
    le 2 e.width ++ le 2 e.height ++ le 1 e.flags ++ le 1 0 ++ le 4 e.position ++ le 4 e.dataBytes ++ le 8 e.tick ++
    le 8 e.capture ++ le 4 e.candidates ++ le 4 e.delivered ++ le 4 e.dropped)

def State.modSession (s : State) (x : Session) (g : Session → Session) : State :=
  s.withWork { s.work with sessions := updWhere (fun y => y.fn == x.fn && y.slot == x.slot) g s.work.sessions }

def State.session? (s : State) (f : Fn) (slot : Nat) : Option Session :=
  s.work.sessions.find? (fun x => x.fn == f && x.slot == slot)

/-- R317, R183: where the data of a session's next entry goes on the bus; nowhere when no window takes it. -/
def State.sampleAddr (s : State) (x : Session) (q : Queue) (n : Nat) : Option Nat :=
  s.translate x.fn (x.dataBase + q.prod % q.entries * slotBytes x.outWidth x.outHeight x.format) n true

/-- What a session's write puts in the issue step: data, then the entry. -/
def State.samplePosts (s : State) (x : Session) (q : Queue) (data : List Byte) (e : SampleEntry) : List Posted :=
  (if e.type = 1 then ((s.sampleAddr x q data.length).map (fun a => Posted.sampleData x.fn a data)).toList else []) ++
    [.sample x.fn x.slot (q.prod % q.entries) (s.entryAddr q q.prod) e]

/-- R184: data that no window takes is not written, and faults. -/
def State.sampleFault (s : State) (x : Session) (q : Queue) (n : Nat) : State :=
  if (s.sampleAddr x q n).isSome then s
  else s.addressFault x.fn x.slot (x.dataBase + q.prod % q.entries * slotBytes x.outWidth x.outHeight x.format) true

/-- Sample entries formed at this commit by a tenant's sessions, and by all. -/
def State.samplesOf (s : State) (f : Option Fn) : Nat := (s.host.sampleOut.filter (isSample f)).length
where
  isSample (f : Option Fn) : Posted → Bool
    | .sample g _ _ _ e => e.type == 1 && (f == none || f == some g)
    | .record _ _ _ _ _ => false
    | .event _ _ _ _ _ => false
    | .auditOut _ _ _ => false
    | .sampleData _ _ _ => false
    | .completion _ _ _ _ _ _ => false
    | .writeback _ _ _ _ => false
    | .mirror _ _ _ => false
    | .heartbeat _ _ _ => false
    | .msix _ _ => false

/-- R316: neither rate is exceeded: 2 samples of a tenant and 8 of the module at a commit. -/
def State.sampleInRate (s : State) (f : Fn) : Bool := decide (s.samplesOf (some f) < 2) && decide (s.samplesOf none < 8)

/-- R316: the vision engines have time left for one more sample, behind the tick's planned work (notes/assumptions/91.md). -/
def State.sampleTimeLeft (s : State) : Bool := Config.sampleTime s.clk.tick (s.samplesOf none)

/-- R316: an eligible candidate is written, else it is dropped and counted. -/
def State.sampleFits (s : State) (x : Session) (q : Queue) : Bool :=
  s.sampleInRate x.fn && s.sampleTimeLeft && decide (0 < s.writable q)

/-- One candidate of one session. -/
def State.sampleOne (s : State) (x : Session) (c : SampleCand) : State :=
  match s.session? x.fn x.slot with
  | none => s
  | some x =>
    let s := s.modSession x (fun y => { y with counter := y.counter + 1 })
    match x.position x.counter, s.queue? x.fn x.slot with
    | some p, some q =>
      if s.sampleFits x q then
        let d := x.dataOf c
        let out := s.samplePosts x q d (x.entry c p d.length)
        let s := ((s.sampleFault x q d.length).modQueue x.fn x.slot (fun q => { q with prod := q.prod + 1 })).modSession x
          (fun y => { y with delivered := y.delivered + 1 })
        s.withHost { s.host with sampleOut := s.host.sampleOut ++ out }
      else s.modSession x (fun y => { y with dropped := y.dropped + 1 })
    | _, _ => s

/-- R314-R317: the samples of a commit. -/
def State.sampleCommit (s : State) : State :=
  s.work.sessions.foldl (fun s x => (s.sampleCands x).foldl (fun s c => s.sampleOne x c) s) s

/-! ### Sessions (R313, R317, R318) -/

/-- R317, R318: a session's summary entry, when the ring has room. -/
def State.writeSummary (s : State) (x : Session) : State :=
  match s.queue? x.fn x.slot with
  | some q =>
    if s.writable q = 0 then s
    else
      let out := s.samplePosts x q [] (x.summary s.clk.tick)
      let s := s.modQueue x.fn x.slot (fun q => { q with prod := q.prod + 1 })
      s.withHost { s.host with sampleOut := s.host.sampleOut ++ out }
  | none => s

/-- R318, R424: a session ends, with a summary of its unfinished epoch, and closes the sample service's buffers of its own. -/
def State.endSession (s : State) (x : Session) : State :=
  let s := s.writeSummary x
  (s.withWork { s.work with sessions := s.work.sessions.filter (fun y => !(y.fn == x.fn && y.slot == x.slot)) }).closeOwner
    (s.partOf x.fn) .sample (some (x.fn, x.slot))

/-- R54: the PF allows a tenant samples. -/
def State.sampleAllowed (s : State) (f : Fn) : Bool := !isPf f && s.host.sampleAllow.getLsbD f.val

/-- R313, KIND 1: a named stream has a second stage. -/
def State.kindSuits (s : State) (f : Fn) (p : SampleStartP) : Bool :=
  p.kind != 1 || p.stream == 0xFFFF ||
    match s.liveStream? f p.stream.toNat with
    | some x => x.binding.any (fun b => b.role == 1)
    | none => true

def newSession (f : Fn) (p : SampleStartP) (tick : Nat) : Session :=
  { fn := f, slot := p.sampleSlot.toNat, order := p.order.toNat, seed := p.seed.toNat, dataBase := p.dataBase.toNat,
    stream := p.stream.toNat, kind := p.kind.toNat, format := p.format.toNat, outWidth := p.outWidth.toNat,
    outHeight := p.outHeight.toNat, epochTicks := p.epochTicks.toNat, setSize := p.setSize.toNat, quota := p.quota.toNat,
    start := tick, epoch := 0, counter := 0, delivered := 0, dropped := 0, epochDue := false }

def applySampleStart (h : CmdHead) (p : SampleStartP) : CmdEffect := fun s =>
  let slot := p.sampleSlot.toNat
  if !s.sampleAllowed h.fn then refuse s .notPermitted
  else match s.queue? h.fn slot with
    | none => refuse s .notFound
    | some q =>
      if q.qtype != .sample || !(p.stream == 0xFFFF || (s.liveStream? h.fn p.stream.toNat).isSome) then refuse s .notFound
      else if (s.session? h.fn slot).isSome then refuse s .queueBusy
      else if 4 ≤ (s.work.sessions.filter (fun x => x.fn == h.fn)).length then refuse s .quotaExceeded
      else if !s.kindSuits h.fn p then (s, some (failAt .invalidField 0x22))
      else s.cmdAddress h.fn slot p.dataBase.toNat
        (q.entries * slotBytes p.outWidth.toNat p.outHeight.toNat p.format.toNat) true 0x18 (fun s =>
          (s.withWork { s.work with sessions := s.work.sessions ++ [newSession h.fn p s.clk.tick] }, some ok))

/-- SAMPLE_START (R313). -/
def execSampleStart (h : CmdHead) (p : SampleStartP) (s : State) : Out :=
  s.ringRow h (.sampleStart p) (applySampleStart h p)

def applySampleStop (h : CmdHead) (p : SlotP) : CmdEffect := fun s =>
  match s.session? h.fn p.slot.toNat with
  | some x => (s.endSession x, some ok)
  | none => refuse s .notFound

/-- SAMPLE_STOP (R318). -/
def execSampleStop (h : CmdHead) (p : SlotP) (s : State) : Out :=
  s.ringRow h (.sampleStop p) (applySampleStop h p)

/-- R317: the last commit of a session's current epoch. -/
def Session.lastCommit (x : Session) : Nat := x.start + (x.epoch + 1) * x.epochTicks - 1

/-- R317: the epochs whose last commit is this one end behind its samples. -/
def State.endEpochs (s : State) : State :=
  (s.work.sessions.filter (fun x => x.epochDue && decide (x.lastCommit ≤ s.clk.tick))).foldl (fun s x => match s.session? x.fn x.slot with
    | some x => (s.writeSummary x).modSession x (fun y =>
        { y with epoch := y.epoch + 1, counter := 0, delivered := 0, dropped := 0, epochDue := false })
    | none => s) s

/-- SAMPLE_EPOCH_END (R317): the coming commit is the last one of the session's epoch. -/
def execSampleEpochEnd (i : RingIn) (s : State) : Out :=
  .next (if s.isReady then s.withWork { s.work with
    sessions := updWhere (fun x => x.fn == i.fn && x.slot == i.slot.toNat && decide (x.lastCommit ≤ s.clk.tick + 1))
      (fun x => { x with epochDue := true }) s.work.sessions } else s)

end Sys2Proof.Machine
end

