-- ==== Sys2Proof/Machine/Reset.lean ====
section
/-! DEFINITION. Function resets (05_pcie_setup_registers.md, R188-R197): what a commit does when a reset begins (R182, R191, R193), and
RESET_END (R194, R196, 16:R565). -/

namespace Sys2Proof.Machine

/-! ### The tenant's streams (R191) -/

/-- Each other subscriber to a closed stream is told of the reset. -/
def State.tellClosed (s : State) (x : Stream) : State :=
  ((x.audience.filter (fun f => f != x.fn)).eraseDups).foldl (fun s f => s.raiseStream f 0x0200 x.handle (le 1 x.fn.val)) s

/-- What else names a stream that a reset closes: nothing further of its frames is written, and its migration ends. -/
def State.forgetStream (s : State) (x : Stream) : State :=
  let s := s.withWork { s.work with
    streams := s.work.streams.filter (fun y => y.handle != x.handle),
    freedHandles := (x.handle, s.clk.tick) :: s.work.freedHandles.filter (fun y => decide (s.clk.tick ≤ y.2 + 600)),
    ended := s.work.ended.filter (fun e => e.handle != x.handle),
    remoteEnds := s.work.remoteEnds.filter (fun e => e.handle != x.handle),
    retained := s.work.retained.filter (fun r => r.handle != x.handle) }
  let s := s.withHost { s.host with
    retractions := s.host.retractions.filter (fun r => r.stream != x.handle),
    delivered := s.host.delivered.filter (fun d => d.stream != x.handle) }
  let s := s.withSafety { s.safety with restarts := s.safety.restarts.filter (fun r => r.1 != x.handle) }
  s.withChain { s.chain with migrations := s.chain.migrations.filter (fun m => m.handle != x.handle) }

def State.closeStreamsOf (s : State) (f : Fn) : State :=
  (s.work.streams.filter (fun x => x.fn == f)).foldl (fun s x => (s.tellClosed x).forgetStream x) s

/-- The tenant leaves every subscription list; each owner whose list changes advances its epoch. -/
def State.unsubscribe (s : State) (t : Tenant) : State :=
  (s.work.streams.filter (fun x => x.subscribers.contains t.val)).foldl (fun s x =>
    (s.modStream x.handle (fun x => { x with subscribers := x.subscribers.filter (· != t.val) })).touchEpoch x.fn) s

/-! ### Buffers (R192, R193, 12:R424, R433) -/

/-- R192: bytes of DRAM regions outside the pools that hold a tenant's data: its models' and its streams'. -/
def State.regionsOf (s : State) (f : Fn) : Nat :=
  sumOf ((s.work.models.filter (fun m => m.fn == f)).map Model.heldBytes) +
    sumOf ((s.work.streams.filter (fun x => x.fn == f)).map (fun x => regionCharge x.codec x.poolMode x.width x.height))

/-- A buffer that holds a tenant's data: one of its streams' buffers (R246), or one that serves a sample session of the tenant. -/
def heldFor (t : Tenant) (b : Buffer) : Bool :=
  match b.owner with
  | .stream h => h.toNat / 0x1000 == t.val
  | .sample => b.session.any (fun k => k.1 == fnOf t)
  | .unit _ _ => false
  | .scrub => false
  | .touchstone => false
  | .firmware => false

def bufKey (b : Buffer) : Nat × Nat × Nat := (b.row.val, b.cls, b.index)

/-- The tenant's buffers pass to the scrub owner, which is no forced reclaim. -/
def State.scrubTenant (s : State) (t : Tenant) : State :=
  let mine := s.pools.bufs.filter (heldFor t)
  let s := s.modFn (fnOf t) (fun x => { x with scrubs := mine.map bufKey })
  let due (c : ClosedOwner) : Bool := match c.owner with
    | .stream h => h.toNat / 0x1000 == t.val
    | .sample => c.session.any (fun k => k.1 == fnOf t)
    | .unit _ _ => false
    | .scrub => false
    | .touchstone => false
    | .firmware => false
  { s with pools := { s.pools with
    bufs := updWhere (heldFor t) (fun b => { b with owner := .scrub, releasing := false, session := none }) s.pools.bufs,
    closed := s.pools.closed.filter (fun c => !due c) } }

/-! ### The function's rings and work (R190, R191) -/


/-- The firmware component that work is done on. -/
def workComponent : WorkKind → Option Nat
  | .fwChunk c => some c
  | .fwVerify c => some c
  | .fwActivate c => some c
  | .fwConfirm c => some c
  | .modelLoad _ _ => none
  | .streamClose _ => none
  | .streamMigrate _ => none
  | .timeSet => none

/-- The function's queues, its clasps but for the retirement clasp, its work and its unwritten output go; commands accepted before the
trigger stay to take effect at their commit. -/
def State.dropFunction (s : State) (f : Fn) : State :=
  let gone := s.host.queues.filter (fun q => q.fn == f)
  s.withHost { s.host with
    queues := s.host.queues.filter (fun q => q.fn != f),
    freedIds := gone.map (fun q => (q.id, s.clk.tick)) ++ s.host.freedIds.filter (fun x => decide (s.clk.tick ≤ x.2 + 600)),
    works := s.host.works.filter (fun w => w.head.fn != f),
    ending := s.host.ending.filter (fun e => e.1.head.fn != f),
    completions := s.host.completions.filter (fun c => c.fn != f),
    ahead := s.host.ahead.filter (fun p => p.fn != f),
    auditOut := s.host.auditOut.filter (fun p => p.fn != f),
    sampleOut := s.host.sampleOut.filter (fun p => p.fn != f),
    clasps := s.host.clasps.filter (fun c => c.fn != f || c.retire),
    retractions := s.host.retractions.filter (fun r => r.fn != f),
    delivered := s.host.delivered.filter (fun d => d.fn != f),
    owedMsix := s.host.owedMsix.filter (fun m => m.1 != f) }

/-- What commands accepted before the trigger began when they took effect: output and completions, which need the function's requests
(R190), work, and models it would load, do not come about. -/
def State.dropBegun (s : State) (f : Fn) : State :=
  let s := s.withHost { s.host with
    works := s.host.works.filter (fun w => w.head.fn != f),
    completions := s.host.completions.filter (fun c => c.fn != f),
    auditOut := s.host.auditOut.filter (fun p => p.fn != f) }
  s.withWork { s.work with models := s.work.models.filter (fun m => !(m.fn == f && m.image.isNone)) }

/-! ### Beginning a reset (R182, R191, R196) -/

/-- The class filter and the record format return to their defaults; a change counts for the epoch. -/
def TenantSt.defaults (x : TenantSt) : TenantSt :=
  { x with filter := TenantSt.reset.filter, format := TenantSt.reset.format,
           epochTouched := x.epochTouched || x.filter != TenantSt.reset.filter || x.format != TenantSt.reset.format }

/-- R191 for one tenant. -/
def State.beginTenant (s : State) (t : Tenant) : State :=
  let f := fnOf t
  let held := s.regionsOf f
  let s := (s.closeStreamsOf f).modFn f (fun x => { x with scrubBytes := x.scrubBytes + held, windowLock := false })
  let s := s.withWork { s.work with sessions := s.work.sessions.filter (fun x => x.fn != f),
                                    models := s.work.models.filter (fun m => m.fn != f) }
  let s := ((s.unsubscribe t).scrubTenant t).modTenant t TenantSt.defaults
  let bit := ~~~ (1 <<< t.val : U16)
  s.withHost { s.host with sampleAllow := s.host.sampleAllow &&& bit, sampleAllowWritten := s.host.sampleAllowWritten &&& bit }

/-- The functions whose reset begins at this commit. -/
def State.resetsDue (s : State) : List Fn := allFns.filter (fun f => (s.fnSt f).resetTrigger)

def State.beginReset (s : State) (f : Fn) : State :=
  let s := match tenantOf f with
    | some t => s.beginTenant t
    | none => { s with nor := { s.nor with die := s.nor.die.abandon .ring, mmc := s.nor.mmc.abandon .ring } }
  (s.dropFunction f).modFn f (fun x => { x with resetTrigger := false, resetCommit := some s.clk.tick })

/-- R191: the resets that begin at a commit; what was raised for their event rings is gone with the rings. -/
def State.beginResets (s : State) : State :=
  let fs := s.resetsDue
  let s := fs.foldl State.beginReset s
  fs.foldl (fun s f => s.modFn f (fun x => { x with eventHeld := [], eventDropped := 0, rejects := [] })) s

/-! ### RESET_END (R192, R194, R196) -/

/-- R192: the tile SRAM that programs of a function's models wrote last reads zero. -/
def Dram.zeroTiles (d : Dram) (f : Fn) : Dram :=
  let mine (t : Nat) : Bool := d.sramUsers.any (fun u => u.1 == t && u.2 == f)
  { d with sram := d.sram.filter (fun b => !mine (b.1 / 2 ^ 23)), sramUsers := d.sramUsers.filter (fun u => u.2 != f) }

/-- R192: what a reset's scrubbing has not returned yet is zeroed and free: pool buffers, DRAM regions and tile SRAM. -/
def State.endScrub (s : State) (f : Fn) : State :=
  let mine (b : Buffer) : Bool := (s.fnSt f).scrubs.contains (bufKey b) && b.owner == .scrub
  let s' := (s.pools.bufs.filter mine).foldl State.zeroBuffer s
  { s' with pools := { s'.pools with bufs := s'.pools.bufs.filter (fun b => !mine b) }, dram := s'.dram.zeroTiles f }

/-- R33, R196: the module returns to one partition of rows 0-7, which holds every tenant. -/
def State.onePartition (s : State) : State :=
  let old := s.work.startMask
  let kept (l : Nat × Nat × Level) : Bool := old == 1 && l.1 == 0
  { s with
    work := { s.work with startMask := 1, tenants := s.work.tenants.map (fun x => { x with partition := 0 }),
                          overcommitted := s.work.overcommitted.filter (fun x => old == 1 && x.1 == 0) },
    pools := { s.pools with levels := s.pools.levels.filter kept,
                            closed := s.pools.closed.map (fun c => { c with partition := 0 }) },
    safety := { s.safety with halts := s.safety.halts.map (fun h => { h with partition := 0 }) } }

/-- R196: a time-of-day that TIME_SET armed is discarded; one already loaded is applied without a completion. -/
def State.dropTimeSet (s : State) : State :=
  let armed := s.clk.armed.filter (fun a => a.head.isNone)
  { s with clk := { s.clk with armed := armed, loaded := s.clk.loaded.map (fun l => { l with head := none }) } }

/-- R565: a halted partition resumes: its pools are free, and its ring links hold their credits. -/
def State.resume (s : State) (h : Halt) : State :=
  let rows := s.rowsOf h.partition
  let there (node : Nat) : Bool := rows.contains (node / 9)
  let s := { s with
    pools := { s.pools with bufs := s.pools.bufs.filter (fun b => !rows.contains b.row.val),
                            closed := s.pools.closed.filter (fun c => c.partition != h.partition) },
    fab := { s.fab with packets := s.fab.packets.filter (fun p => !there p.at_),
                        credits := s.fab.credits.filter (fun c => !there c.node),
                        unassigned := s.fab.unassigned.filter (fun r => !rows.contains r) },
    safety := { s.safety with halts := s.safety.halts.filter (fun x => x.partition != h.partition) } }
  s.raiseAll (pfFn :: s.fnsOfPart h.partition) 0x0411 (le 1 h.partition)

/-- R565: the end of a tenant's reset counts for the halt of its partition when it began after the halt; the last one ends it. -/
def State.countReset (s : State) (t : Tenant) (began : Nat) : State :=
  let p := (s.tenantSt t).partition
  let hit (h : Halt) : Bool := h.partition == p && decide (h.commit < began)
  let s := s.withSafety { s.safety with
    halts := updWhere hit (fun h => { h with resetDone := h.resetDone ||| (1 <<< t.val) }) s.safety.halts }
  let done (h : Halt) : Bool := hit h && allTenants.all (fun u =>
    (s.tenantSt u).partition != p || h.resetDone.getLsbD u.val)
  (s.safety.halts.filter done).foldl State.resume s

/-- R194: RESET_BUSY clears; the commit updates the function's view. -/
def State.clearBusy (s : State) (f : Fn) : State :=
  s.modFn f (fun x => { x with resetBusy := false, resetCommit := none, scrubs := [], scrubBytes := 0 })

/-- A tenant's reset ends. -/
def State.endTenant (s : State) (t : Tenant) : State :=
  match (s.fnSt (fnOf t)).resetCommit with
  | some c => ((s.endScrub (fnOf t)).countReset t c).clearBusy (fnOf t)
  | none => s

/-- R196: the PF's reset, begun at commit `began`, ends, with those of every tenant (R195) and every halt before it (R565). -/
def State.endPf (s : State) (began : Nat) : State :=
  let s := allTenants.foldl State.endTenant s
  let s := (s.safety.halts.filter (fun h => decide (h.commit < began))).foldl State.resume s
  (s.onePartition.dropTimeSet).clearBusy pfFn

/-- RESET_END (R194): scrubbing of a reset function has ended; its reset ends at the coming commit, first of that commit's effects (R70). -/
def execResetEnd (i : FnIn) (s : State) : Out :=
  .next (match (s.fnSt i.fn).resetCommit with
    | some c =>
      if s.dead then s
      else s.atNext (fun s => match tenantOf i.fn with
        | some t => if (s.fnSt pfFn).resetBusy then s else s.endTenant t
        | none => s.endPf c)
    | none => s)

end Sys2Proof.Machine
end

