-- ==== Sys2Proof/Machine/Fabric.lean ====
section
/-! DEFINITION. The Filigree network (14_filigree_chain.md, R468-R488; 01_module_tray_die.md, R21, R22, R35, R36): routes, credits, hops
with the bubble rule, multicast copies and misses, acknowledgements, fences, and the hand-over of ring segments. -/

namespace Sys2Proof.Machine

/-! ### The grid -/

def nodeRow (n : Nat) : Nat := n / 9
def nodeCol (n : Nat) : Nat := n % 9

def isRowPort : Port → Bool
  | .rowPlus => true
  | .rowMinus => true
  | .colPlus => false
  | .colMinus => false

def oppositePort : Port → Port
  | .rowPlus => .rowMinus
  | .rowMinus => .rowPlus
  | .colPlus => .colMinus
  | .colMinus => .colPlus

/-- PORT codes of Table 16.6. -/
def portCode : Port → Nat
  | .rowPlus => 0
  | .rowMinus => 1
  | .colPlus => 2
  | .colMinus => 3

/-- The next node in a direction. -/
def stepNode (n : Nat) : Port → Nat
  | .rowPlus => 9 * nodeRow n + (nodeCol n + 1) % 9
  | .rowMinus => 9 * nodeRow n + (nodeCol n + 8) % 9
  | .colPlus => 9 * ((nodeRow n + 1) % 8) + nodeCol n
  | .colMinus => 9 * ((nodeRow n + 7) % 8) + nodeCol n

/-- R475: the direction with fewer hops on a row ring. -/
def rowWay (src dst : Nat) : Port := if (nodeCol dst + 9 - nodeCol src) % 9 ≤ 4 then .rowPlus else .rowMinus

/-- The shorter direction on a column ring; a tie goes to ascending rows. -/
def shortCol (src dst : Nat) : Port := if (nodeRow dst + 8 - nodeRow src) % 8 ≤ 4 then .colPlus else .colMinus

/-- R476: system traffic, and data of a partition of all 8 rows, go the shorter way; other data stays in its partition's rows. -/
def State.colWay (s : State) (p : FilPacket) : Port :=
  if p.vc.val = 3 || (s.rowsOf p.partition).length = 8 then shortCol p.src.toNat p.dst.toNat
  else if nodeRow p.src.toNat ≤ nodeRow p.dst.toNat then .colPlus else .colMinus

/-! ### Credits (R470, R471) -/

def idleCredit (node : Nat) (port : Port) (vc : Nat) : LinkCredit :=
  { node := node, port := port, vc := vc, held := 4, returning := 0 }

def sameLink (node : Nat) (port : Port) (vc : Nat) (c : LinkCredit) : Bool := c.node == node && c.port == port && c.vc == vc

/-- The credits of one link and VC: the link that leaves `node` by `port`. -/
def Fabric.credit (x : Fabric) (node : Nat) (port : Port) (vc : Nat) : LinkCredit :=
  (x.credits.find? (sameLink node port vc)).getD (idleCredit node port vc)

def Fabric.setCredit (x : Fabric) (c : LinkCredit) : Fabric :=
  let rest := x.credits.filter (fun d => !sameLink c.node c.port c.vc d)
  { x with credits := if c == idleCredit c.node c.port c.vc then rest else c :: rest }

/-- The sender spends a credit. -/
def Fabric.spend (x : Fabric) (node : Nat) (port : Port) (vc : Nat) : Fabric :=
  let c := x.credit node port vc
  x.setCredit { c with held := c.held - 1 }

/-- The receiver frees a buffer: the credit is on its way back. -/
def Fabric.free (x : Fabric) (node : Nat) (port : Port) (vc : Nat) : Fabric :=
  let c := x.credit node port vc
  x.setCredit { c with returning := c.returning + 1 }

/-- Packets held in the input buffer that a link of `node` feeds. -/
def Fabric.queued (x : Fabric) (node : Nat) (port : Port) (vc : Nat) : Nat :=
  (x.packets.filter (fun f => f.at_ == stepNode node port && f.inPort == some port && f.pkt.vc.val == vc)).length

/-! ### Packets on their way -/

/-- The port by which a packet goes on; none at its destination (R474). -/
def Flying.next (f : Flying) : Option Port :=
  if nodeCol f.at_ != nodeCol f.pkt.dst.toNat then some f.rowPort
  else if nodeRow f.at_ != nodeRow f.pkt.dst.toNat then some f.colPort
  else none

/-- R472: a hop that enters a ring: injection, or the turn from a row ring into a column ring. -/
def Flying.enters (f : Flying) (p : Port) : Bool :=
  match f.inPort with
  | none => true
  | some q => isRowPort q && !isRowPort p

/-- R470, R472: the hop may be made. -/
def Fabric.mayHop (x : Fabric) (f : Flying) (p : Port) : Bool :=
  decide ((if f.enters p then 2 else 1) ≤ (x.credit f.at_ p f.pkt.vc.val).held)

/-! ### Which VC a link serves (R469) -/

def idleLink (node : Nat) (port : Port) : LinkUse := { node := node, port := port, recent := [], last := 3 }

/-- A link as it stands after cycles without a flit. -/
def Fabric.link (x : Fabric) (node : Nat) (port : Port) (idle : Nat) : LinkUse :=
  let u := (x.links.find? (fun u => u.node == node && u.port == port)).getD (idleLink node port)
  { u with recent := (List.replicate (min idle 8) none ++ u.recent).take 8 }

/-- R469: VC3 comes first when it is ready and has used none of the last 8 cycles. -/
def LinkUse.systemFirst (u : LinkUse) (ready : List Nat) : Bool := ready.contains 3 && !u.recent.contains (some 3)

/-- R469: the VC a link serves among those with a flit ready. -/
def LinkUse.grant (u : LinkUse) (ready : List Nat) : Option Nat :=
  if u.systemFirst ready then some 3 else ([1, 2, 3, 4].map (fun k => (u.last + k) % 4)).find? ready.contains

/-- The link sends the flits of a packet of a VC (notes/assumptions/172.md). -/
def LinkUse.send (u : LinkUse) (ready : List Nat) (vc flits : Nat) : LinkUse :=
  { u with recent := (List.replicate (min flits 8) (some vc) ++ u.recent).take 8,
           last := if u.systemFirst ready then u.last else vc }

def Fabric.setLink (x : Fabric) (u : LinkUse) : Fabric :=
  { x with links := u :: x.links.filter (fun v => !(v.node == u.node && v.port == u.port)) }

/-- VCs with a packet that may leave a node by a port now. -/
def Fabric.readyVcs (x : Fabric) (node : Nat) (port : Port) : List Nat :=
  (x.packets.filter (fun f => f.at_ == node && f.next == some port && x.mayHop f port)).map (·.pkt.vc.val)

/-- The input buffer a packet holds at its node becomes free. -/
def Fabric.leave (x : Fabric) (f : Flying) : Fabric :=
  match f.inPort with
  | some q => x.free (stepNode f.at_ (oppositePort q)) q f.pkt.vc.val
  | none => x

def samePacket (p : FilPacket) (f : Flying) : Bool := f.pkt.id == p.id && f.pkt.vc == p.vc

/-! ### Delivery (R473, R482, R484-R487) -/

/-- Bit of a node in a multicast's bitmaps. -/
def mcastBit (m : Mcast) (node : Nat) : Nat := if m.columnRing then nodeRow node else nodeCol node

/-- A node on the ring of a multicast. -/
def mcastNode (src : Nat) (m : Mcast) (bit : Nat) : Nat := if m.columnRing then 9 * bit + nodeCol src else 9 * nodeRow src + bit

/-- R487: a node has delivered an MSEQ of a source. -/
def Fabric.hasSeen (x : Fabric) (node src mseq : Nat) : Bool :=
  x.seen.any (fun e => e.node == node && e.source == src && e.mseqs.contains mseq)

def Fabric.see (x : Fabric) (node src mseq : Nat) : Fabric :=
  let same (e : Seen) : Bool := e.node == node && e.source == src
  let old := ((x.seen.find? same).map (·.mseqs)).getD []
  { x with seen := { node := node, source := src, mseqs := (mseq :: old).take 64 } :: x.seen.filter (fun e => !same e) }

def Fabric.deliver (x : Fabric) (id node : Nat) : Fabric := { x with deliveries := (id, node) :: x.deliveries }

/-- A copy of a multicast, or its re-send, reaches a node: delivered once per MSEQ. -/
def Fabric.deliverCopy (x : Fabric) (p : FilPacket) (m : Mcast) (node : Nat) : Fabric :=
  if x.hasSeen node p.src.toNat m.mseq.toNat then x else (x.see node p.src.toNat m.mseq.toNat).deliver p.id node

/-- R484: what a node on a multicast's ring does as the packet passes: copy, or set its missed bit. -/
def Fabric.passBy (x : Fabric) (f : Flying) : Fabric × Flying :=
  match f.pkt.mcast with
  | some m =>
    let bit := mcastBit m f.at_
    if f.pkt.vc.val = 2 && m.bitmap.getLsbD bit then
      if Config.ejection f.at_ x.deliveries.length then (x.deliverCopy f.pkt m f.at_, f)
      else (x, { f with pkt := { f.pkt with mcast := some { m with missed := m.missed ||| BitVec.ofNat 16 (2 ^ bit) } } })
    else (x, f)
  | none => (x, f)

/-- R485: the trailing acknowledgement sets out from the last destination, against the ring's direction. -/
def trailingAck (f : Flying) (m : Mcast) : Flying :=
  { f with
    pkt := { f.pkt with vc := 1, src := f.pkt.dst, dst := f.pkt.src, flits := 1, fence := false, isRead := false, mcast := some m },
    inPort := none, rowPort := oppositePort f.rowPort, colPort := oppositePort f.colPort }

/-- What a VC1 packet acknowledges (R482): the request of the same number, or the missed bit of a re-sent multicast's node. -/
def Unacked.answer (p : FilPacket) (u : Unacked) : Unacked :=
  match u.pkt.mcast with
  | some m => { u with missed := u.missed - (if u.missed.testBit (mcastBit m p.src.toNat) then 2 ^ mcastBit m p.src.toNat else 0) }
  | none => { u with trailing := true }

/-- Everything a packet waited for has come. -/
def Unacked.done (u : Unacked) : Bool := u.trailing && u.missed == 0

/-- R473: a response reaches its node. -/
def Fabric.respond (x : Fabric) (p : FilPacket) : Fabric :=
  let mine (u : Unacked) : Bool := u.pkt.id == p.id && u.pkt.src == p.dst
  { x with unacked := (updWhere mine (Unacked.answer p) x.unacked).filter (fun u => !u.done) }

/-- A packet arrives at its destination. What a trailing acknowledgement (generation 0) does at the source is
TRAILING_ACKNOWLEDGEMENT's. -/
def Fabric.arrive (x : Fabric) (f : Flying) : Fabric :=
  let x := x.leave f
  let p := f.pkt
  match p.mcast with
  | some m =>
    if p.vc.val = 2 then { x with packets := trailingAck f m :: x.packets }
    else if p.vc.val = 1 then
      if m.gen.toNat = 0 then x.deliver p.id f.at_ else (x.respond p).deliver p.id f.at_
    else x.deliverCopy p m f.at_
  | none => if p.vc.val = 1 then (x.respond p).deliver p.id f.at_ else x.deliver p.id f.at_

/-- R469, R470, R472: the hop is made now: the bubble rule lets it in and the link serves its VC. -/
def Fabric.wins (x : Fabric) (f : Flying) (p : Port) (idle : Nat) : Bool :=
  x.mayHop f p && (x.link f.at_ p idle).grant (f.pkt.vc.val :: x.readyVcs f.at_ p) == some f.pkt.vc.val

/-- One hop of a packet over a link that has been idle for some cycles; it may end at its destination. -/
def Fabric.hop (x : Fabric) (f : Flying) (idle : Nat) : Fabric :=
  match f.next with
  | none => { x with packets := x.packets.filter (fun g => !samePacket f.pkt g) }.arrive f
  | some p =>
    if !x.wins f p idle then x
    else
      let vc := f.pkt.vc.val
      let u := (x.link f.at_ p idle).send (vc :: x.readyVcs f.at_ p) vc f.pkt.flits
      let x := ((x.setLink u).leave f).spend f.at_ p vc
      let r := x.passBy { f with at_ := stepNode f.at_ p, inPort := some p }
      let rest := { r.1 with packets := r.1.packets.filter (fun g => !samePacket f.pkt g) }
      if r.2.next.isNone then rest.arrive r.2 else { rest with packets := r.2 :: rest.packets }

/-! ### Injection (R22, R35, R36, R468, R477, R478, R481, R482) -/

/-- A packet still unacknowledged counts against a fence to a destination. -/
def Unacked.holds (src dst : Nat) (u : Unacked) : Bool :=
  u.pkt.src.toNat == src && match u.pkt.mcast with
    | some m => (List.range 16).any (fun b => m.bitmap.getLsbD b && mcastNode src m b == dst)
    | none => u.pkt.dst.toNat == dst

def Fabric.fenceOpen (x : Fabric) (p : FilPacket) : Bool := !x.unacked.any (Unacked.holds p.src.toNat p.dst.toNat)

/-- The packet is one the module sends: nodes that exist, 1 to 5 flits, column 8 on VC3 only, data within its partition's rows and
not while a row's segments are changing hands. -/
def State.mayInject (s : State) (p : FilPacket) : Bool :=
  let rs := [nodeRow p.src.toNat, nodeRow p.dst.toNat]
  decide (p.src.toNat < 72) && decide (p.dst.toNat < 72) && decide (1 ≤ p.flits) && decide (p.flits ≤ 5) &&
    (p.vc.val == 3 || (nodeCol p.src.toNat != 8 && nodeCol p.dst.toNat != 8 &&
      rs.all (fun r => (s.rowsOf p.partition).contains r && !s.fab.draining.contains r && !s.fab.unassigned.contains r))) &&
    (p.vc.val != 2 || match p.mcast with
      | some m => if m.columnRing then nodeCol p.src.toNat == nodeCol p.dst.toNat else nodeRow p.src.toNat == nodeRow p.dst.toNat
      | none => false)

/-- The packet at its source, with its path. -/
def State.flyingOf (s : State) (p : FilPacket) : Flying :=
  { pkt := p, at_ := p.src.toNat, inPort := none, rowPort := rowWay p.src.toNat p.dst.toNat, colPort := s.colWay p,
    route := s.work.routeEpoch % 16 }

/-- A request joins the packets waiting for acknowledgement; a re-send leaves the ones owed. -/
def Fabric.sent (x : Fabric) (p : FilPacket) : Fabric :=
  if x.resends.contains p then { x with resends := x.resends.filter (· != p) }
  else if p.vc.val = 1 then x
  else { x with unacked := x.unacked ++ [{ pkt := p, trailing := false, missed := 0, gen := 0 }] }

/-- A packet leaves its source, when the bubble rule lets it in and its first link serves it. -/
def State.inject (s : State) (p : FilPacket) (idle : Nat) : State :=
  let f := s.flyingOf p
  let go : Bool := match f.next with
    | some q => s.fab.wins f q idle
    | none => true
  if s.mayInject p && go then { s with fab := (s.fab.sent p).hop f idle } else s

/-- FILIGREE_PACKET_HOP (R469, R470): the packet advances one hop; a packet not yet in the network is injected. -/
def execFiligreePacketHop (i : HopIn) (s : State) : Out :=
  .next (if s.dead then s
    else match s.fab.packets.find? (samePacket i.packet) with
      | some f => { s with fab := s.fab.hop f i.idle }
      | none => if i.packet.fence && !s.fab.fenceOpen i.packet then s else s.inject i.packet i.idle)

/-- CREDIT_RETURN (R470): a credit in transit reaches the sender. -/
def execCreditReturn (i : CreditIn) (s : State) : Out :=
  .next (
    let c := s.fab.credit i.node.toNat i.port i.vc.val
    if s.dead || c.returning = 0 then s
    else { s with fab := s.fab.setCredit { c with held := c.held + 1, returning := c.returning - 1 } })

/-- R486: the re-sends of a multicast, one per missed node. -/
def Unacked.resends (u : Unacked) (missed gen : Nat) : List FilPacket :=
  match u.pkt.mcast with
  | some m => ((List.range 16).filter (fun b => missed.testBit b)).map (fun b =>
      { u.pkt with vc := 0, dst := BitVec.ofNat 7 (mcastNode u.pkt.src.toNat m b),
                   mcast := some { m with bitmap := BitVec.ofNat 16 (2 ^ b), missed := 0, gen := BitVec.ofNat 8 gen } })
  | none => []

/-- TRAILING_ACKNOWLEDGEMENT (R485, R486). -/
def execTrailingAcknowledgement (i : TrailAckIn) (s : State) : Out :=
  .next (
    let mine (u : Unacked) : Bool := u.pkt.src == i.source && match u.pkt.mcast with
      | some m => m.mseq == i.mseq
      | none => false
    match s.fab.unacked.find? mine with
    | some u =>
      if s.dead then s
      else
        let m := i.missed.toNat
        let set (u : Unacked) : Unacked := { u with trailing := true, missed := m, gen := u.gen + boolNat (m != 0) }
        { s with fab := { s.fab with
            unacked := (updWhere mine set s.fab.unacked).filter (fun u => !u.done),
            resends := s.fab.resends ++ u.resends m (u.gen + 1) } }
    | none => s)

/-- FENCED_INJECTION (R481, R482). -/
def execFencedInjection (i : HopIn) (s : State) : Out :=
  .next (if s.dead || !i.packet.fence || s.fab.packets.any (samePacket i.packet) || !s.fab.fenceOpen i.packet then s
    else s.inject i.packet i.idle)

/-! ### Segments (R478, R479) -/

/-- A VC0-VC2 buffer of a row's segments holds a packet. -/
def Fabric.rowHolds (x : Fabric) (r : Nat) : Bool :=
  x.packets.any (fun f => f.inPort.isSome && nodeRow f.at_ == r && decide (f.pkt.vc.val < 3))

/-- Commits at the coming one since the plan whose segments drain was applied. -/
def State.drainAge (s : State) : Nat := match s.fab.planCommit with
  | some c => s.clk.tick + 1 - c
  | none => 0

/-- SEGMENT_HANDOVER (R478), at the coming commit: from the one after the plan's, rows whose segments latched empty pass to their new partitions. -/
def execSegmentHandover (s : State) : Out :=
  .next (if s.dead || s.drainAge = 0 then s
    else
      let left := s.fab.draining.filter s.fab.rowHolds
      { s with fab := { s.fab with draining := left, planCommit := if left.isEmpty then none else s.fab.planCommit } })

/-- FILIGREE_DRAIN_FAULT (R479): 2 ticks after the plan's commit, the segments that have not drained stay unassigned. -/
def execFiligreeDrainFault (s : State) : Out :=
  .next (if s.dead || s.drainAge < 2 || s.fab.draining.isEmpty then s
    else
      let rows := s.fab.draining
      let note (r : Nat) : FaultNote :=
        { cls := some .filigreeDrainFault, handle := 0xFFFF, seq := 0, unit := ⟨.row, r⟩, stateLost := false, column := none }
      { s with
        fab := { s.fab with draining := [], planCommit := none, unassigned := s.fab.unassigned ++ rows },
        safety := { s.safety with faults := s.safety.faults ++ rows.map note } })

end Sys2Proof.Machine
end

