-- ==== Sys2Proof/Machine/SafetyOps.lean ====
section
/-! DEFINITION. Failures and what a commit does about them (16_safety_recovery.md, R537-R565; 02_tick_commit.md, R85-R89; 01_module_tray_die.md,
R45, R49; 09_facet_tiles.md, R353): conservation audits, discards, retractions, safety events, halts, lockstep, touchstones and
retirement; and AUDIT_READ (R566). -/

namespace Sys2Proof.Machine

/-- Codes of Table 16.1. -/
def failureCode : FaultClass → Nat
  | .lockstepMismatch => 0x400
  | .eccUncorrectable => 0x401
  | .touchstoneMismatch => 0x402
  | .auditMismatch => 0x403
  | .recordCrc => 0x404
  | .heartbeatFault => 0x405
  | .timeIntegrity => 0x406
  | .thermalRunaway => 0x407
  | .filigreeDrainFault => 0x408

/-! ### Conservation audits (R563, Table 16.4) -/

/-- An AUDIT_READ entry: its fields but for FLAGS and reserved ones, in layout order with their sizes, whether it shows a mismatch, and
its 16 bytes. -/
structure AuditEntry where
  key : List Nat
  bad : Bool
  bytes : List Byte
  deriving DecidableEq, Repr

/-- R435: outstanding buffers of a pool node and class, and the free ones: those no buffer record names. -/
def State.poolCounts (s : State) (row cls : Nat) : Nat × Nat :=
  let bs := s.pools.bufs.filter (fun b => b.row.val == row && b.cls == cls)
  (bs.length, poolBuffers cls - ((bs.map (·.index)).filter (fun i => decide (i < poolBuffers cls))).eraseDups.length)

/-- AUDIT 0. -/
def State.poolEntry (s : State) (row cls : Nat) : AuditEntry :=
  let c := s.poolCounts row cls
  let bad := c.1 + c.2 != poolBuffers cls
  { key := [9 * row + 7, cls, poolBuffers cls, c.2, c.1], bad := bad,
    bytes := le 1 (9 * row + 7) ++ le 1 cls ++ le 1 (boolNat bad) ++ le 1 0 ++ le 4 (poolBuffers cls) ++ le 4 c.2 ++ le 4 c.1 }

/-- AUDIT 1, one entry. -/
def creditEntry (kind node port vc depth held queued transit : Nat) (bad : Bool) : AuditEntry :=
  { key := [kind, node, port, vc, depth, held, queued, transit], bad := bad,
    bytes := le 1 kind ++ le 1 node ++ le 1 port ++ le 1 vc ++ le 2 depth ++ le 2 held ++ le 2 queued ++ le 2 transit ++
      le 1 (boolNat bad) ++ le 3 0 }

/-- R471: one Filigree link and VC. -/
def Fabric.creditEntry (x : Fabric) (node : Nat) (port : Port) (vc : Nat) : AuditEntry :=
  let c := x.credit node port vc
  let q := x.queued node port vc
  Machine.creditEntry 0 node (portCode port) vc 4 c.held q c.returning (c.held + q + c.returning != 4)

/-- R496, R504: one chain link and VC, transmit direction; the counter of a link that is not UP is frozen. -/
def State.chainEntry (s : State) (k : Link) (vc : Fin 4) : AuditEntry :=
  let x := s.link k
  let transit := (x.sent.get vc + 2 ^ 32 - x.back.get vc) % 2 ^ 32
  Machine.creditEntry 1 (26 + 9 * k.val) 4 vc.val 64 (x.credits.get vc) 0 transit (x.isUp && x.credits.get vc + transit != 64)

/-- FUNCTION of Table 16.6. -/
def auditFn (f : Fn) : Nat := if isPf f then 0xFF else f.val

/-- Table 16.4, clasps. -/
def State.claspBad (s : State) (c : Clasp) : Bool :=
  decide (c.value < c.latched) || (c.retire && match tenantOf c.fn with
    | some t => decide ((s.tenantSt t).tableEpoch < c.value)
    | none => false)

/-- AUDIT 2. -/
def State.claspEntry (s : State) (c : Clasp) : AuditEntry :=
  { key := [c.id, auditFn c.fn, c.value], bad := s.claspBad c,
    bytes := le 2 c.id ++ le 1 (auditFn c.fn) ++ le 1 (boolNat (s.claspBad c)) ++ le 4 0 ++ le 8 c.value }

/-- Table 16.4, records. -/
def RingAudit.bad (a : RingAudit) : Bool := a.advanced != a.writtenEntries || a.formed != a.written + a.missed

/-- AUDIT 3. -/
def Queue.auditEntry (q : Queue) : AuditEntry :=
  let a := q.audit
  { key := [q.slot, auditFn q.fn, a.advanced, a.writtenEntries, a.formed, a.written, a.missed], bad := a.bad,
    bytes := le 2 q.slot ++ le 1 (auditFn q.fn) ++ le 1 (boolNat a.bad) ++ le 2 a.advanced ++ le 2 a.writtenEntries ++
      le 2 a.formed ++ le 2 a.written ++ le 2 a.missed ++ le 2 0 }

/-- AUDIT 4: one entry per owner and class with buffers outstanding (R430). -/
def State.leakEntries (s : State) : List AuditEntry :=
  let keys := (s.pools.bufs.map (fun b => (b.owner, b.cls))).eraseDups
  keys.map (fun k =>
    let bs := s.pools.bufs.filter (fun b => b.owner == k.1 && b.cls == k.2)
    let age := maxOf (bs.map (fun b => s.clk.tick - b.since.getD s.clk.tick))
    { key := [ownerCode k.1, bs.length, age, k.2], bad := false,
      bytes := le 4 (ownerCode k.1) ++ le 4 bs.length ++ le 4 age ++ le 1 k.2 ++ le 3 0 })

def allPorts : List Port := [.rowPlus, .rowMinus, .colPlus, .colMinus]

/-- The entries of an audit, by its AUDIT number. -/
def State.auditEntries (s : State) (audit : Nat) : List AuditEntry :=
  if audit = 0 then ((List.range 8).filter s.rowUsable).flatMap (fun r => (List.range 6).map (fun c => s.poolEntry r c))
  else if audit = 1 then
    ((List.range 72).flatMap (fun n => allPorts.flatMap (fun p => (List.range 4).map (fun v => s.fab.creditEntry n p v)))) ++
      allLinks.flatMap (fun k => (List.finRange 4).map (fun v => s.chainEntry k v))
  else if audit = 2 then s.host.clasps.map s.claspEntry
  else if audit = 3 then (s.host.queues.filter (fun q => q.qtype == .metadata)).map Queue.auditEntry
  else s.leakEntries

/-- Ascending order of lists of numbers. -/
def listBefore : List Nat → List Nat → Bool
  | [], [] => false
  | [], _ :: _ => true
  | _ :: _, [] => false
  | a :: as, b :: bs => if a = b then listBefore as bs else decide (a < b)

/-- R566, Table 16.5. -/
def State.auditBytes (s : State) (audit : Nat) : List Byte :=
  let es := sortBy (fun (a b : AuditEntry) => listBefore a.key b.key) (s.auditEntries audit)
  le 1 audit ++ le 3 0 ++ le 4 es.length ++ le 8 s.clk.tick ++ le 4 (es.filter (·.bad)).length ++ le 12 0 ++ es.flatMap (·.bytes)

/-- AUDIT_READ's effect: `latched` is the state at the edge of the commit. -/
def applyAuditRead (latched : State) (h : CmdHead) (p : AuditReadP) : CmdEffect := fun s =>
  let bs := latched.auditBytes p.audit.toNat
  if p.bytes.toNat < bs.length then (s, some (failAt .invalidField 0x0C))
  else s.cmdAddress h.fn h.slot.toNat p.dest.toNat bs.length true 0x10 (fun s =>
    (s.withHost { s.host with
        auditOut := s.host.auditOut ++ ((s.translate h.fn p.dest.toNat bs.length true).map (fun a => Posted.auditOut h.fn a bs)).toList },
     some (okWith (le 4 bs.length))))

/-- AUDIT_READ (R566): the counters as the edge of the coming commit latches them. -/
def execAuditRead (h : CmdHead) (p : AuditReadP) (s : State) : Out := s.ringRow h (.auditRead p) (applyAuditRead s.coming h p)

/-! ### Discards (R85-R89) -/

def State.frame? (s : State) (k : Nat × Nat) : Option (Stream × Frame) :=
  (s.stream? k.1).bind (fun x => (x.frames.find? (fun (f : Frame) => f.seq == k.2)).map (fun f => (x, f)))

/-- The pool buffers that hold the inputs of a frame's stage: chunks and reference pictures of a T+0, its picture behind it. -/
def Stream.inputBuffers (x : Stream) (f : Frame) : List Nat :=
  if f.stage == .decode then chunkBuffers f.chunks ++ x.dpb.filterMap (·.buffer) else f.buffer.toList

/-- R89: the inputs of a discarded frame's stage are kept: the frame with its chunks, picture, tensors and versions, and what the stage read
of its stream. -/
def State.retain (s : State) (x : Stream) (f : Frame) : State :=
  s.withWork { s.work with retained := s.work.retained ++
    [{ handle := x.handle, fn := x.fn, commit := s.clk.tick, frame := f, refs := x.dpb, prevField := x.prevField, tracker := x.tracker,
       buffers := x.inputBuffers f }] }

/-- R85, R86: a frame is discarded: what its stage has staged goes, and it ends SKIPPED with cause FAULT_REPLAY. -/
def State.discardFrame (s : State) (x : Stream) (f : Frame) : State :=
  let s := s.retain x f
  if f.stage == .decode then
    let g := x.undecoded f
    let s := (s.freeBuffers (s.partOf x.fn) f.buffer.toList).doneWith x f.positions
    (s.modStream x.handle (fun x => x.noteCapture g (x.captureOf g none))).endFrame x.handle f.seq (g.skip x 7)
  else s.endFrame x.handle f.seq (f.skip x 7)

/-- R85, R86: a frame whose stage ran in the tick just ended is discarded; one that waits, or is found later, is marked (R539).
`mark` is the cause of its INVALID record, none for a fault that is no failure class. -/
def State.discard (s : State) (mark : Option Nat) (k : Nat × Nat) : State :=
  match s.frame? k with
  | some (x, f) =>
    let f := { f with invalid := f.invalid <|> mark }
    if f.idle then s.modStream x.handle (fun x => x.setFrame f) else s.discardFrame x f
  | none => s

/-- R539: frames in flight that lie in a failure's scope yield an INVALID record. -/
def State.markFrames (s : State) (cause : Nat) (ks : List (Nat × Nat)) : State :=
  ks.foldl (fun s k => match s.frame? k with
    | some (x, f) => s.modStream x.handle (fun x => x.setFrame { f with invalid := f.invalid <|> some cause })
    | none => s) s

/-- R89: kept inputs are released, where nothing else holds their buffers, and the event names the frame. -/
def State.releaseInputs (s : State) (r : Retained) : State :=
  let s := s.withWork { s.work with retained := s.work.retained.erase r }
  let held := match s.stream? r.handle with
    | some x => x.buffers
    | none => []
  (s.freeBuffers (s.partOf r.fn) (r.buffers.filter (fun b => !held.contains b))).raiseStream r.fn 0x0008 r.handle
    (le 8 r.frame.seq ++ le 8 r.frame.t0)

/-- REPLAY_INPUTS_RELEASED (R89), at the coming commit, 2 ticks after the discard. -/
def execReplayInputsReleased (i : FrameRef) (s : State) : Out :=
  .next (match s.work.retained.find? (fun (r : Retained) => r.handle == i.handle.toNat && r.frame.seq == i.seq.toNat) with
    | some r => if s.dead || s.clk.tick + 1 < r.commit + 2 then s else s.atNext (fun s => s.releaseInputs r)
    | none => s)

/-! ### Retractions (R559) -/

/-- One RETRACTION per ring and stream that received records of the frames. -/
def State.retractionsFor (s : State) (code : Nat) (ks : List (Nat × Nat)) : List Retraction :=
  let hit := s.host.delivered.filter (fun d => ks.contains (d.stream, d.frameSeq))
  let rings := (hit.map (fun d => (d.fn, d.slot, d.stream))).eraseDups
  rings.filterMap (fun r =>
    let ds := hit.filter (fun d => (d.fn, d.slot, d.stream) == r)
    match ds.head?, ds.getLast? with
    | some a, some b => some { fn := r.1, slot := r.2.1, stream := r.2.2, firstFrame := a.frameSeq, lastFrame := b.frameSeq,
                               first := a.recordSeq, last := b.recordSeq, event := code }
    | _, _ => none)

def State.retract (s : State) (rs : List Retraction) : State := s.withHost { s.host with retractions := s.host.retractions ++ rs }

/-! ### Safety events (R538, R540) -/

/-- R540: the PF, and every tenant that owns or subscribes to a stream in scope. -/
def State.safetyAudience (s : State) (streams : List Nat) : List Fn :=
  (pfFn :: (s.work.streams.filter (fun x => streams.contains x.handle)).flatMap Stream.audience).eraseDups

/-- Table 16.2. -/
def safetyDetail (unit : Option UnitRef) (partition : Option Nat) (scope detect since retractions : Nat) : List Byte :=
  le 1 ((unit.map (fun u => kindCode u.kind)).getD 0) ++ le 1 ((unit.map (·.num)).getD 0xFF) ++ le 1 (partition.getD 0xFF) ++
    le 1 scope ++ le 8 detect ++ le 8 since ++ le 4 retractions

/-- R404: a safety event counts for the function that receives it. -/
def FnState.countSafety (x : FnState) (code : Nat) : FnState :=
  { x with safetyEvents := (x.safetyEvents + 1) % 2 ^ 32, lastSafety := code }

def State.tellSafety (s : State) (fs : List Fn) (x : Failure) (retractions : Nat) : State :=
  let code := failureCode x.cls
  let d := safetyDetail x.unit x.partition x.scope x.detectTick x.suspectFrom retractions
  fs.foldl (fun s f => (s.raiseFull f code 2 0xFFFF (x.stream.getD 0xFFFF) ((x.unit.map nodeOfUnit).getD 0xFF) d).modFn f
    (fun y => y.countSafety code)) s

/-- R538: the reaction to one failure: discards, INVALID marks, retractions, and the safety event. -/
def State.react (s : State) (x : Failure) : State :=
  let cause := if x.cls == .thermalRunaway then 6 else 7
  let s := x.now.foldl (fun s k => s.discard (some cause) k) s
  let s := s.markFrames cause (x.now ++ x.older)
  let rs := s.retractionsFor (failureCode x.cls) (x.now ++ x.older)
  (s.retract rs).tellSafety (s.safetyAudience x.streams) x rs.length

/-! ### Failures of the tick just ended -/

/-- The frames that the plan log names: those of a tick range on units that `on` picks. -/
def State.logged (s : State) (first last : Nat) (on : PlanEntry → Bool) : List (Nat × Nat) :=
  ((s.safety.planLog.filter (fun e => decide (first ≤ e.tick) && decide (e.tick ≤ last) && on e)).map
    (fun e => (e.handle, e.seq))).eraseDups

def State.partOfStream (s : State) (handle : Nat) : Option Nat := (s.stream? handle).map (fun x => s.partOf x.fn)

def State.streamsOfPart (s : State) (p : Nat) : List Nat :=
  (s.work.streams.filter (fun x => s.partOf x.fn == p)).map (·.handle)

def State.partOfUnit (s : State) (u : UnitRef) : Option Nat := (rowOfUnit u).map (partOfRow s.work.startMask)

/-- The tick that the commit closes. -/
def State.closing (s : State) : Nat := s.clk.tick - 1

/-- A failure of one job. -/
def State.jobFailure (s : State) (n : FaultNote) (cls : FaultClass) : Failure :=
  { cls := cls, unit := some n.unit, partition := s.partOfStream n.handle <|> s.partOfUnit n.unit,
    scope := if n.stateLost then 1 else 0, detectTick := s.closing, suspectFrom := s.closing,
    streams := if (s.stream? n.handle).isSome then [n.handle] else [],
    stream := if (s.stream? n.handle).isSome then some n.handle else none, now := [(n.handle, n.seq)], older := [] }

/-- R545: the frames whose stage work the cluster planned or dispatched in the tick of the mismatch. -/
def State.lockstepFailure (s : State) (n : FaultNote) : Failure :=
  let p := (s.partOfUnit n.unit).getD 0
  let m := s.closing
  let lead := (s.usableRows p).head? == some n.unit.num
  let mine (e : PlanEntry) : Bool := if lead then s.partOfStream e.handle == some p else rowOfUnit e.unit == some n.unit.num
  { cls := .lockstepMismatch, unit := some n.unit, partition := some p, scope := 2, detectTick := m, suspectFrom := m,
    streams := s.streamsOfPart p, stream := none, now := s.logged m m mine, older := [] }

/-- Tick after a unit's last passing touchstone. -/
def Safety.suspectFrom (x : Safety) (u : UnitRef) : Nat := ((x.lastPass.find? (fun e => e.1 == u)).map (fun e => e.2 + 1)).getD 0

/-- R550, R552. -/
def State.touchstoneFailure (s : State) (n : FaultNote) : Failure :=
  let m := s.closing
  let since := s.safety.suspectFrom n.unit
  let mine (e : PlanEntry) : Bool := touchUnit e.unit.kind e.unit.num == n.unit
  let now := s.logged m m mine
  let older := s.logged since (m - 1) mine
  { cls := .touchstoneMismatch, unit := some n.unit, partition := s.partOfUnit n.unit, scope := 0, detectTick := s.clk.tick,
    suspectFrom := since, streams := ((now ++ older).map (·.1)).eraseDups, stream := none, now := now, older := older }

def isFacet (e : PlanEntry) : Bool := e.unit.kind == .facetTile

/-- Table 16.1, R619: every stream of the module. -/
def State.runawayFailure (s : State) : Failure :=
  { cls := .thermalRunaway, unit := none, partition := none, scope := 3, detectTick := s.closing, suspectFrom := s.closing,
    streams := s.work.streams.map (·.handle), stream := none, now := s.logged s.closing s.closing isFacet, older := [] }

/-- A failure that halts a partition; the audit covers the two ticks before (Table 16.4, R479). -/
def State.haltFailure (s : State) (cls : FaultClass) (unit : Option UnitRef) (p : Nat) : Failure :=
  let mine (e : PlanEntry) : Bool := s.partOfStream e.handle == some p
  { cls := cls, unit := unit, partition := some p, scope := 2, detectTick := s.clk.tick, suspectFrom := s.clk.tick - 2,
    streams := s.streamsOfPart p, stream := none, now := s.logged s.closing s.closing mine,
    older := s.logged (s.clk.tick - 2) (s.clk.tick - 2) mine }

/-! ### Halts (R563, R564) -/

def State.halted (s : State) (p : Nat) : Bool := s.safety.halts.any (fun h => h.partition == p)

/-- A partition is HALTED, unless it is already, when no further event is raised. -/
def State.haltPartition (s : State) (cls : FaultClass) (unit : Option UnitRef) (p : Nat) : State :=
  if s.halted p then s
  else
    let s := s.react (s.haltFailure cls unit p)
    s.withSafety { s.safety with halts := s.safety.halts ++ [{ partition := p, commit := s.clk.tick, resetDone := 0 }] }

/-- Table 16.4: the partitions whose routes use a Filigree link (R35, R36). -/
def State.linkParts (s : State) (node : Nat) (port : Port) (vc : Nat) : List Nat :=
  if vc = 3 then List.range (partCount s.work.startMask)
  else
    let a := partOfRow s.work.startMask (nodeRow node)
    if a = partOfRow s.work.startMask (nodeRow (stepNode node port)) then [a] else []

/-- A link's event raised by an audit belongs to the commit that found it. -/
def State.retick (s : State) (n : Nat) : State :=
  s.modFn pfFn (fun x => { x with eventHeld := x.eventHeld.map (fun e => if e.code == 0x0500 then { e with tick := n } else e) })

/-- The reaction to the audits of one commit: `l` holds the latched counters. -/
def State.auditCommit (s l : State) : State :=
  let s := (((List.range 8).filter l.rowUsable).flatMap (fun r => (List.range 6).map (fun c => (r, c)))).foldl (fun s k =>
    if (l.poolEntry k.1 k.2).bad then s.haltPartition .auditMismatch (some ⟨.poolNode, k.1⟩) (partOfRow s.work.startMask k.1)
    else s) s
  let vcs : List (Port × Nat) := allPorts.flatMap (fun p => (List.range 4).map (fun v => (p, v)))
  let links := (List.range 72).flatMap (fun n => vcs.map (fun k => (n, k.1, k.2)))
  let s := links.foldl (fun s k =>
    if (l.fab.creditEntry k.1 k.2.1 k.2.2).bad then (s.linkParts k.1 k.2.1 k.2.2).foldl (fun s p => s.haltPartition .auditMismatch none p) s
    else s) s
  let s := (allLinks.flatMap (fun k => (List.finRange 4).map (fun v => (k, v)))).foldl (fun s k =>
    if (l.chainEntry k.1 k.2).bad then chainBad s k.1 else s) s
  let s := l.host.clasps.foldl (fun s c => if l.claspBad c then s.haltPartition .auditMismatch none (s.partOf c.fn) else s) s
  l.host.queues.foldl (fun s q => if q.qtype == .metadata && q.audit.bad then s.haltPartition .auditMismatch none (s.partOf q.fn) else s) s
where
  /-- Chain credits: the link is declared DOWN; R499 gives no CAUSE for it, which is a free value. -/
  chainBad (s : State) (k : Link) : State :=
    if (s.link k).isUp then
      let d := s.draw
      let s := d.2.react { cls := .auditMismatch, unit := some ⟨.chainLink, k.val⟩, partition := none, scope := 0,
                           detectTick := s.clk.tick, suspectFrom := s.clk.tick - 2, streams := [], stream := none, now := [], older := [] }
      let t := s.linkDown k (d.1 % 256)
      t.retick s.clk.tick
    else s

/-! ### Lockstep (R544-R546) -/

/-- Two events lie within 36,000 ticks. -/
def within36000 (now : Nat) (e : Nat) : Bool := decide (now ≤ e + 36000)

def State.lockstepReact (s : State) (n : FaultNote) : State :=
  let m := s.closing
  let r := n.unit.num
  let before := s.safety.lockstepLog.any (fun e => e.1 == r && within36000 m e.2)
  let s := s.react (s.lockstepFailure n)
  let log := (r, m) :: s.safety.lockstepLog.filter (fun e => within36000 m e.2)
  if before then
    let p := (s.partOfUnit n.unit).getD 0
    let s := s.withSafety { s.safety with lockstepLog := log, toRetire := s.safety.toRetire ++ [(n.unit, 0x400)],
                                          reloading := s.safety.reloading.filter (fun x => x.1 != r) }
    let hold (x : Stream) : Stream := { x with safe := some 7, safeUntil := some (m + 4) }
    s.withWork { s.work with streams := updWhere (fun x => s.partOf x.fn == p) hold s.work.streams }
  else s.withSafety { s.safety with lockstepLog := log, reloading := s.safety.reloading ++ [(r, m)] }

/-- LOCKSTEP_MISMATCH (R544): the pair halts, and the assay monitor is told. -/
def execLockstepMismatch (i : ClusterIn) (s : State) : Out :=
  .next (
    let r := i.row.val
    if !s.isReady || !s.available .controlCluster r || s.safety.reloading.any (fun x => x.1 == r) then s
    else s.withSafety { s.safety with faults := s.safety.faults ++
      [{ cls := some .lockstepMismatch, handle := 0xFFFF, seq := 0, unit := ⟨.controlCluster, r⟩, stateLost := false, column := none }] })

/-- CLUSTER_RELOAD (R545): at the coming commit, the fourth after detection, the cluster receives work again. -/
def execClusterReload (i : ClusterIn) (s : State) : Out :=
  .next (if s.dead then s
    else s.withSafety { s.safety with
      reloading := s.safety.reloading.filter (fun x => !(x.1 == i.row.val && decide (x.2 + 4 ≤ s.clk.tick + 1))) })

/-- ASSAY_LOCKSTEP_MISMATCH (R547): a HEARTBEAT_FAULT. -/
def execAssayLockstepMismatch (s : State) : Out :=
  .next (if !s.isReady then s
    else s.withSafety { s.safety with faults := s.safety.faults ++
      [{ cls := some .heartbeatFault, handle := 0xFFFF, seq := 0, unit := ⟨.assayNode, 0⟩, stateLost := false, column := none }] })

/-- FAULT_REPORT (R85, R88, R352): of a failure class, or of a job alone. -/
def execFaultReport (i : FaultIn) (s : State) : Out :=
  .next (if !s.isReady then s
    else s.withSafety { s.safety with faults := s.safety.faults ++
      [{ cls := i.cls, handle := i.handle.toNat, seq := i.seq.toNat, unit := i.unit, stateLost := i.stateLost, column := none }] })

/-! ### Touchstones (R549-R552, R353) -/

/-- Table 16.3: a unit's slot in the 96-tick cycle. -/
def touchSlot (u : UnitRef) : Option Nat :=
  match u.kind with
  | .facetTile => some (6 * u.num)
  | .decodeEngine => some (4 * u.num + 1)
  | .visionEngine => some (12 * u.num + 2)
  | .postEngine => some (12 * u.num + 7)
  | .motionEngine => none
  | .dramChannel => none
  | .controlCluster => none
  | .poolNode => none
  | .chainLink => none
  | .row => none
  | .hostPortA => none
  | .hostPortB => none
  | .assayNode => none
  | .mgmtBridge => none

/-- Runs of a unit's touchstones so far. -/
def Safety.runs (x : Safety) (u : UnitRef) : Nat := ((x.rotation.find? (fun e => e.1 == u)).map (·.2)).getD 0

/-- R550: whether a job's signature is the one of its stored input, and the rotation moved on. -/
def State.touchJob (s : State) (i : TouchstoneIn) : Bool × State :=
  let k := s.safety.runs i.unit
  (i.signature == Config.touchstoneSignature i.unit.kind (k % 8),
   s.withSafety { s.safety with rotation := (i.unit, k + 1) :: s.safety.rotation.filter (fun e => e.1 != i.unit) })

/-- A unit can run a touchstone job: usable, and for a facet tile with the arrays running. -/
def State.touchable (s : State) (u : UnitRef) : Bool :=
  s.isReady && decide (u.num < builtOf u.kind) && s.available u.kind u.num && (u.kind != .facetTile || !s.safety.arraysStopped)

def Safety.pass (x : Safety) (u : UnitRef) (t : Nat) : Safety :=
  { x with lastPass := (u, t) :: x.lastPass.filter (fun e => e.1 != u) }

/-- TOUCHSTONE (R549): in the unit's slot, or 1 tick later; a wrong signature is compared in the coming audit step. -/
def execTouchstone (i : TouchstoneIn) (s : State) : Out :=
  .next (
    let t := s.clk.tick
    match touchSlot i.unit with
    | some slot =>
      if !s.touchable i.unit || s.safety.retests.any (fun r => r.unit == i.unit) || !(t % 96 == slot || (t + 95) % 96 == slot) then s
      else
        let j := s.touchJob i
        if j.1 then j.2.withSafety (j.2.safety.pass i.unit t)
        else j.2.withSafety { j.2.safety with faults := j.2.safety.faults ++
          [{ cls := some .touchstoneMismatch, handle := 0xFFFF, seq := 0, unit := i.unit, stateLost := false, column := i.column }] }
    | none => s)

/-- TOUCHSTONE_RETEST (R551): one of the two retests, in the ticks that follow. -/
def execTouchstoneRetest (i : TouchstoneIn) (s : State) : Out :=
  .next (match s.safety.retests.find? (fun (r : Retest) => r.unit == i.unit) with
    | some r =>
      if !s.touchable i.unit || r.failed || 2 ≤ r.runs || s.clk.tick ≤ r.tick then s
      else
        let j := s.touchJob i
        let set (r : Retest) : Retest :=
          { r with tick := s.clk.tick, runs := r.runs + 1, failed := !j.1, column := if j.1 then r.column else i.column }
        j.2.withSafety { j.2.safety with retests := updWhere (fun r => r.unit == i.unit) set j.2.safety.retests }
    | none => s)

/-- The vision engine is retired with the motion field engine its touchstone covers (Table 16.3). -/
def coveredUnits (u : UnitRef) : List UnitRef := if u.kind == .visionEngine then [u, ⟨.motionEngine, u.num⟩] else [u]

/-- R551: the unit is withdrawn for its retests; a third mismatch within 36,000 ticks retires it at this commit, without them. -/
def State.touchstoneReact (s : State) (n : FaultNote) : State :=
  let m := s.closing
  let s := s.react (s.touchstoneFailure n)
  let log := (n.unit, s.clk.tick) :: s.safety.mismatches.filter (fun e => within36000 s.clk.tick e.2)
  let s := s.withSafety { s.safety with mismatches := log }
  if 3 ≤ (log.filter (fun e => e.1 == n.unit)).length then
    s.withSafety { s.safety with toRetire := s.safety.toRetire ++ (coveredUnits n.unit).map (fun u => (u, 0x402)) }
  else s.withSafety { s.safety with retests := s.safety.retests ++
    [{ unit := n.unit, tick := m, runs := 0, failed := false, column := n.column }] }

/-! ### Retirement (R45, R49, R353, R588) -/

/-- The unit owners that a retirement closes: the unit itself, and every unit of a row that is lost with it. -/
def State.unitOwners (s : State) (u : UnitRef) (lostRow : Option Nat) : List Owner :=
  ((s.pools.bufs.map (·.owner)).filter (fun o => match o with
    | .unit n k => (n.toNat == nodeOfUnit u && k.toNat == u.num) || lostRow == rowOfNode n.toNat
    | .stream _ => false
    | .scrub => false
    | .touchstone => false
    | .firmware => false
    | .sample => false)).eraseDups

/-- R424: what a retired unit holds on its own account is due for reclaim. -/
def State.closeUnit (s : State) (u : UnitRef) (lostRow : Option Nat) : State :=
  match rowOfUnit u with
  | some r => (s.unitOwners u lostRow).foldl (fun s o => s.closeOwner (partOfRow s.work.startMask r) o none) s
  | none => s

/-- A frame holds a buffer of a row's pool node. -/
def State.holdsInRow (s : State) (r : Nat) (x : Stream) (f : Frame) : Bool :=
  let own := chunkBuffers f.chunks ++ f.buffer.toList
  s.pools.bufs.any (fun b => b.row.val == r && (b.job.any (fun j => j.handle.toNat == x.handle && j.seq.toNat == f.seq) ||
    (partOfRow s.work.startMask r == s.partOf x.fn && own.contains (s.bufHandle b))))

/-- R436: the frames that hold buffers of a retired row are discarded. -/
def State.dropRow (s : State) (r : Nat) : State :=
  s.work.streams.foldl (fun s x => (x.frames.filter (s.holdsInRow r x)).foldl (fun s f => match s.stream? x.handle with
    | some y => s.discardFrame y f
    | none => s) s) s

/-- A unit enters the ledger and stops being available; its owner closes (R424), and a row that goes with it takes the frames that hold its
buffers (R436). -/
def State.retireUnit (s : State) (u : UnitRef) (code : Nat) : State :=
  if s.safety.retired.contains u then s
  else
    let before := s
    let s := (s.withSafety { s.safety with retired := s.safety.retired ++ [u] }).addLedger 1 (kindCode u.kind) u.num 1 (le 2 code)
    let lost := (rowOfUnit u).filter (fun r => before.rowUsable r && !s.rowUsable r)
    let s := s.closeUnit u lost
    match lost with
    | some r => s.dropRow r
    | none => s


/-- The spare column that a facet tile's localised fault takes (R320, R353). -/
def State.spareFor? (s : State) (u : UnitRef) (column : Option Nat) : Option (Nat × Nat) :=
  if u.kind == .facetTile then
    column.bind (fun c => (spareFor ((s.safety.spares.filter (fun e => e.1 == u.num)).map (·.2)) c 128).map (fun k => (c, k)))
  else none

/-- R353: a facet tile with a localised fault takes a spare column; without one, or otherwise, the unit is retired. -/
def State.endRetest (s : State) (r : Retest) : State :=
  match s.spareFor? r.unit r.column with
  | some (c, k) =>
    (s.withSafety { s.safety with spares := s.safety.spares ++ [(r.unit.num, c, k)] }).addLedger 2 1 r.unit.num 1 (le 1 c ++ le 1 k)
  | none => (coveredUnits r.unit).foldl (fun s u => s.retireUnit u 0x402) s

/-- R551: both retests passed: the unit is returned to work. -/
def State.passRetest (s : State) (r : Retest) : State :=
  let since := s.safety.suspectFrom r.unit
  let found := ((s.safety.mismatches.find? (fun e => e.1 == r.unit)).map (·.2)).getD r.tick
  (s.withSafety (s.safety.pass r.unit r.tick)).raiseNode pfFn 0x0410 (nodeOfUnit r.unit)
    (safetyDetail (some r.unit) (s.partOfUnit r.unit) 0 found since 0)

/-- A retest is decided at the commit that follows its last check. -/
def State.decideRetest (s : State) (r : Retest) : State :=
  if (r.failed || 2 ≤ r.runs) && r.tick + 2 ≤ s.clk.tick then
    let s := s.withSafety { s.safety with retests := s.safety.retests.erase r }
    if r.failed then s.endRetest r else s.passRetest r
  else s

/-! ### Restarted state and the end of a safe state (R561) -/

/-- R561: lost state is deleted, references are dropped, track IDs continue. -/
def State.restart (s : State) (handle : Nat) : State :=
  match s.stream? handle with
  | some x =>
    let before := x.pictureBuffers
    (s.modStream handle (fun x => { x with
      tracker := { x.tracker with tracks := [] }, dpb := [], motionRef := none, prevField := none })).dropPictures handle before
  | none => s

/-- What the firmware decides at a commit (R70, step 5): retirements, retests, restarted state, safe states that end. -/
def State.safetyDecisions (s : State) : State :=
  let n := s.clk.tick
  let due := s.safety.toRetire
  let s := due.foldl (fun s u => s.retireUnit u.1 u.2) (s.withSafety { s.safety with toRetire := [] })
  let s := s.safety.retests.foldl State.decideRetest s
  let s := (s.safety.restarts.filter (fun r => decide (r.2 ≤ n))).foldl (fun s r => s.restart r.1) s
  let s := s.withSafety { s.safety with restarts := s.safety.restarts.filter (fun r => decide (n < r.2)) }
  let done (x : Stream) : Bool := match x.safeUntil with
    | some u => decide (u ≤ n)
    | none => false
  s.withWork { s.work with streams := updWhere done (fun x => { x with safe := none, safeUntil := none }) s.work.streams }

/-! ### FAILED (R542, R543) -/

/-- The module enters FAILED: one safety STATUS to every sealed function, and an Uncorrectable Internal Error of the PF (R186). -/
def State.enterFailed (s : State) (cls : FaultClass) (unit : Option UnitRef) (detect since : Nat) : State :=
  if s.safety.state == .failed then s
  else
    let s := (s.withSafety { s.safety with state := .failed, failCause := some (.safety cls) }).logError pfFn aerInternal
    s.tellSafety s.sealedFns { cls := cls, unit := unit, partition := none, scope := 3, detectTick := detect, suspectFrom := since,
                               streams := [], stream := none, now := [], older := [] } 0

/-! ### The faults reported since the last decision point -/

/-- R542: RECORD_CRC events within 600 ticks. -/
def State.crcReact (s : State) (n : FaultNote) : State :=
  let m := s.closing
  let log := m :: s.safety.crcLog.filter (fun t => decide (m ≤ t + 600))
  let s := s.withSafety { s.safety with crcLog := log }
  if 3 ≤ log.length then s.enterFailed .recordCrc (some n.unit) m m
  else s.react { s.jobFailure n .recordCrc with now := [] }

/-- R561: the stream whose committed state was lost is in its safe state until the state is restarted at the next commit. -/
def State.loseState (s : State) (handle : Nat) : State :=
  if (s.stream? handle).isNone then s
  else
    let s := s.modStream handle (fun x => { x with safe := some 7, safeUntil := some (s.clk.tick + 1) })
    s.withSafety { s.safety with restarts := s.safety.restarts ++ [(handle, s.clk.tick + 1)] }

/-- A job fault that is no failure class (R421, R440): the frame is discarded, or its records retracted under a code that the spec does
not give. -/
def State.plainReact (s : State) (n : FaultNote) : State :=
  let k := (n.handle, n.seq)
  let inFlight := (s.frame? k).isSome
  let s := s.discard none k
  if inFlight || (s.retractionsFor 0 [k]).isEmpty then s
  else
    let d := s.draw
    d.2.retract (s.retractionsFor (d.1 % 65536) [k])

/-- The reaction to one fault (R537, R538). -/
def State.faultReact (s : State) (n : FaultNote) : State :=
  match n.cls with
  | none => s.plainReact n
  | some .lockstepMismatch => s.lockstepReact n
  | some .eccUncorrectable =>
    let s := s.react (s.jobFailure n .eccUncorrectable)
    if n.stateLost then s.loseState n.handle else s
  | some .touchstoneMismatch => s.touchstoneReact n
  | some .auditMismatch => s.react (s.jobFailure n .auditMismatch)
  | some .recordCrc => s.crcReact n
  | some .heartbeatFault => s.enterFailed .heartbeatFault none s.closing s.closing
  | some .timeIntegrity => s.enterFailed .timeIntegrity none s.closing s.closing
  | some .thermalRunaway => s.react s.runawayFailure
  | some .filigreeDrainFault => s.haltPartition .filigreeDrainFault (some n.unit) ((s.partOfUnit n.unit).getD 0)

/-- Faults of a failure class come before the others, which mark no frame INVALID. -/
def faultOrder (ns : List FaultNote) : List FaultNote := ns.filter (·.cls.isSome) ++ ns.filter (·.cls.isNone)

/-- R548: the tick just ended was too short or too long, or the twin counters differ. -/
def State.timeBad (s : State) (measured : Nat) : Bool :=
  measured < 1660000 || 1675000 < measured || s.clk.tick != s.clk.twin

/-- The decision point of a commit (R85, R538, R547, R563): `l` holds the latched counters. -/
def State.decisionPoint (s l : State) (i : CommitIn) : State :=
  let s := s.auditCommit l
  let s := if s.timeBad i.measuredNs then s.enterFailed .timeIntegrity none s.clk.tick s.closing else s
  let s := if i.heartbeatsDiffer then s.enterFailed .heartbeatFault none s.clk.tick s.closing else s
  let ns := faultOrder s.safety.faults
  ns.foldl State.faultReact (s.withSafety { s.safety with faults := [] })

end Sys2Proof.Machine
end

