-- ==== Sys2Proof/Machine/Commit.lean ====
section
/-! DEFINITION. COMMIT (02_tick_commit.md, R65-R71): the tick edge, the audit and decision point, the apply step in the order of R70, the
plan of the coming tick and the issue step. spec/95_what_each_step_holds.md lists what the step holds. -/

namespace Sys2Proof.Machine

/-! ### Commands from the rings (R69-R71, R190, R239) -/

/-- A command's effect. `l` is the state latched at the edge, which AUDIT_READ reports (16:R566). -/
def applyCmd (l : State) (h : CmdHead) (pos : Option RingPos) : RingCmd → CmdEffect
  | .tenantConfigure p => applyTenantConfigure p
  | .partitionPlan p => applyPartitionPlan p
  | .queueCreate p => applyQueueCreate h p
  | .queueDestroy p => applyQueueDestroy h p
  | .modelLoad p => applyModelLoad h pos p
  | .modelUnload p => applyModelUnload h p
  | .streamOpen p => applyStreamOpen h p
  | .streamClose p => applyStreamClose h pos p
  | .streamModify p => applyStreamModify h p
  | .streamMigrate p => applyStreamMigrate h pos p
  | .tableWrite p => applyTableWrite h p
  | .claspCreate p => applyClaspCreate h p
  | .claspSignal p => applyClaspSignal h p
  | .claspDestroy p => applyClaspDestroy h p
  | .calibrationPolicy p => applyCalibration h p
  | .sampleStart p => applySampleStart h p
  | .sampleStop p => applySampleStop h p
  | .timeSet p => applyTimeSet h pos p
  | .fwDownloadChunk p => applyFwDownloadChunk h pos p
  | .fwVerify p => applyFwVerify h pos p
  | .fwActivate p => applyFwActivate h pos p
  | .fwConfirm p => applyFwConfirm h pos p
  | .auditRead p => applyAuditRead l h p
  | .nop => applyNop

/-- PARTITION_PLAN and TENANT_CONFIGURE, which R70 applies first. -/
def Accepted.plansFirst (a : Accepted) : Bool := a.opcode == 0x01 || a.opcode == 0x02

/-- A command's effect and its completion, or its completion as R227 says. -/
def State.runAccepted (s l : State) (a : Accepted) : State :=
  match a.body with
  | .cmd c reserved => s.runRing a.head c reserved (some a.at_) (applyCmd l a.head (some a.at_) c)
  | .unknown => s.complete a.head a.opcode (some a.at_) (failAt .invalidOpcode 0)

/-- One accepted command takes effect, unless an earlier one of this commit has destroyed its ring. -/
def applyAccepted (l s : State) (a : Accepted) : State :=
  if s.host.accepted.contains a then
    (s.withHost { s.host with accepted := s.host.accepted.erase a }).runAccepted l a
  else s

/-- The commands that take effect at a commit: PARTITION_PLAN and TENANT_CONFIGURE, then the others, by ascending queue ID. -/
def State.dueCommands (s : State) : List Accepted :=
  let due := s.host.accepted.filter (fun a => decide (a.due ≤ s.clk.tick))
  let order := sortBy (fun (a b : Accepted) => decide (a.at_.queue < b.at_.queue))
  order (due.filter Accepted.plansFirst) ++ order (due.filter (fun a => !a.plansFirst))

/-- The commands of a commit in order. What a reset function's commands would begin does not come about, and they are not answered. -/
def State.applyCommands (s l : State) : State :=
  let s := s.dueCommands.foldl (applyAccepted l) s
  (allFns.filter (fun f => (s.fnSt f).resetBusy)).foldl State.dropBegun s

/-! ### RWC fields (00:R14, 05:R180, 08:R318) and what the MMC passed (18:R617) -/

/-- The last SAMPLE_ALLOW write that is due takes effect; the sessions of tenants no longer allowed end. AUTO_REHOME follows. -/
def State.applyRwc (s : State) : State :=
  let due := s.host.sampleWrites.filter (fun w => decide (w.due ≤ s.clk.tick))
  let s := s.withHost { s.host with
    autoRehome := s.host.autoRehomeWritten,
    sampleAllow := (due.getLast?.map (·.value)).getD s.host.sampleAllow,
    sampleWrites := s.host.sampleWrites.filter (fun w => decide (s.clk.tick < w.due)) }
  (s.work.sessions.filter (fun x => !s.sampleAllowed x.fn)).foldl State.endSession s

/-- Model keys received by the die are in force. -/
def State.applyKeys (s : State) : State :=
  let set (s : State) (k : Nat × Option (List Byte)) : State :=
    if h : k.1 < 16 then s.modTenant ⟨k.1, h⟩ (fun x => { x with key := k.2 }) else s
  let s' := s.mmc.keysDue.foldl set s
  { s' with mmc := { s'.mmc with keysDue := [] } }

/-! ### Frame results and buffers (R70 step 6, R418, R422, 07:R255) -/

/-- A frame was discarded at this commit (R85). -/
def State.withdrawn (s : State) (j : FrameRef) : Bool :=
  s.work.retained.any (fun r => r.commit == s.clk.tick && r.handle == j.handle.toNat && r.frame.seq == j.seq.toNat)

/-- An allocation of the closing tick that belongs to a frame discarded at this commit and is not retained. -/
def State.undone (s : State) (b : Buffer) : Bool :=
  b.job.any s.withdrawn && !s.keeps (partOfRow s.work.startMask b.row.val) (s.bufHandle b)

/-- R255: a closing stream's ring is consumed once no picture of it is in T+0. -/
def State.drainClosing (s : State) : State :=
  (s.work.streams.filter (fun x => x.closing && !x.frames.any (fun f => f.stage == .decode))).foldl (fun s x =>
    s.modQueue x.fn x.ingestSlot (fun q => { q with cons := q.prod, fetchPos := q.prod, donePos := [], bells := [] })) s

/-- R207, R230: ingest descriptors that belong to no picture are consumed at the head of their rings. -/
def State.passOvers (s : State) : State :=
  s.withHost { s.host with queues := s.host.queues.map (fun q => if q.qtype == .ingest then q.moveOn else q) }

def State.results (s : State) : State :=
  let undo := s.undone
  let gone := s.withdrawn
  let s := { s with pools := s.pools.commit s.clk.tick undo gone }
  (s.frameResults.remoteResults.endClosing).drainClosing.passOvers.sampleCommit.endEpochs

/-! ### Levels, epochs and clasps (R72, R81, 12:R425-R431) -/

/-- R425, R426, R429: each pool's level is set, RED classes shed, and the levels are set again. -/
def State.levelCommit (s : State) : State :=
  let mid := s.setLevels
  (mid.shed.setLevels).raiseLevels s mid

/-- R431: a stream's buffer is referenced while the stream itself names it, the frame that allocated it is in flight, or it is kept under
R89. -/
def State.referenced (s : State) (b : Buffer) : Bool :=
  match b.owner with
  | .stream h =>
    (s.stream? h.toNat).any (fun x => x.buffers.contains (s.bufHandle b) ||
      b.job.any (fun j => x.frames.any (fun f => f.seq == j.seq.toNat))) ||
    s.keeps (partOfRow s.work.startMask b.row.val) (s.bufHandle b)
  | .unit _ _ => true
  | .scrub => true
  | .touchstone => true
  | .firmware => true
  | .sample => true

/-- R72: one advance per tenant whose tables changed. -/
def State.epochCommit (s : State) : State :=
  s.withWork { s.work with tenants := s.work.tenants.map (fun x =>
    if x.epochTouched then { x with tableEpoch := x.tableEpoch + 1, epochTouched := false } else x) }

/-- R81: the lowest table epoch that a frame of the tenant in flight holds, else the current one. -/
def State.heldEpoch (s : State) (t : Tenant) : Nat :=
  let es := (s.work.streams.filter (fun x => x.fn == fnOf t)).flatMap (fun x => x.frames.map (fun f => f.ev.tableEpoch))
  es.foldl min (s.tenantSt t).tableEpoch

def State.retireCommit (s : State) : State :=
  allTenants.foldl (fun s t => match (s.tenantSt t).retireClasp with
    | some id => s.modClasp id (fun c => c.raiseTo (s.heldEpoch t))
    | none => s) s

/-- The clasp values that the next edge's audit compares with (16:R563). -/
def State.latchClasps (s : State) : State :=
  s.withHost { s.host with clasps := s.host.clasps.map (fun c => { c with latched := c.value }) }

/-! ### The commit -/

/-- The edge: the tick counter advances, all counters latch, and time-of-day and the time state are settled (R59, R60, 03:R102, R106). -/
def State.edge (s : State) : State :=
  let s := { s with clk := s.clk.advance }
  let s := s.withWork { s.work with models := s.work.models.map Model.settle, streams := s.work.streams.map Stream.payFetch }
  let s := s.withHost { s.host with retrained := none, lanes := (s.host.retrained.map (·.1)).getD s.host.lanes,
                                    rate10 := (s.host.retrained.map (·.2)).getD s.host.rate10,
                                    fns := s.host.fns.map (fun x => { x with acceptedNow := 0 }) }
  s.chainFresh.timeCommit

/-- The apply step up to the frame results, in the order of R70: resets, commands with the work that has ended, RWC values, firmware
decisions, frame results. -/
def State.applyStep (s l : State) : State :=
  let s := s.beginResets.applyKeys
  let s := (s.applyCommands l).armFromMmc.endWorks.applyRwc.takeSeals
  let s := s.withSafety { s.safety with stale := s.safety.staleNext }
  s.takeRetunes.safetyDecisions.evacuate.results

/-- What the apply step settles behind the frame results. -/
def State.settle (s : State) : State :=
  let s := s.reportRejects.levelCommit
  let refd := s.referenced
  let s := { s with pools := s.pools.age refd }
  let s := s.memoryCommit.overcommitCommit.epochCommit.retireCommit.sealCompletions.latchClasps
  s.mirrorCommit.routesCommit.sendPeerTicks.hallmarkCommit

/-- A FAILED module, or one whose boot ROM has not ended phase 1, keeps time (16:R543, 17:R573, Table 17.6); the Hallmark table of one that
can be read stays current (04:R157, R158). -/
def State.idleTick (s : State) : State :=
  let s := { s with clk := { s.clk.advance.applyLoad.transition with notes := [] } }
  let s := s.withHost { s.host with issue := [], ahead := [] }
  let s := s.withSafety { s.safety with stale := s.safety.staleNext }
  if s.boot.broughtUp then s.hallmarkCommit else s

/-- The heartbeats of this commit are withheld: the two generators differ, or the assay monitor's lockstep failed (16:R553, Table 16.1). -/
def State.withholds (s : State) (i : CommitIn) : Bool :=
  i.heartbeatsDiffer || s.safety.faults.any (fun n => n.cls == some .heartbeatFault)

/-- A whole commit of a module that has not failed. -/
def State.commitTick (s : State) (i : CommitIn) : State :=
  let quiet := s.withholds i
  let s := s.edge
  let s := (s.decisionPoint s i).applyStep s
  let s := s.settle
  let s := if s.isReady then s.plan else s
  s.issueStep i.badCrc (!quiet)

/-- COMMIT (R65). -/
def execCommit (i : CommitIn) (s : State) : Out :=
  .next (if !s.boot.running then s else if s.safety.state == .failed || !s.boot.broughtUp then s.idleTick else s.commitTick i)

end Sys2Proof.Machine
end

