-- ==== Sys2Proof/Machine/Jtag.lean ====
section
/-! DEFINITION. The IEEE 1149.1 port (18_management_power.md, R597): the four instructions it offers, each with one scan of its data
register. Register lengths and scan behaviour are those of the standard (PRESUMED, notes/assumptions/10.md). -/

namespace Sys2Proof.Machine

/-- The IDCODE register, least significant bit first. -/
def idcodeBits : List Bool := (List.range 32).map Config.idcode.getLsbD

def withJtag (s : State) (j : Jtag) : Out := .next { s with jtag := j }

/-- BYPASS: the bits shifted in come out one clock later, behind the 0 that the register captures. -/
def execBypass (i : JtagIn) (s : State) : Out :=
  withJtag s { s.jtag with instr := .bypass, driven := none, out := (false :: i.bits).take i.bits.length }

/-- IDCODE: the identification code is captured and shifted out, followed by the bits shifted in. -/
def execIdcode (i : JtagIn) (s : State) : Out :=
  withJtag s { s.jtag with instr := .idcode, driven := none, out := (idcodeBits ++ i.bits).take i.bits.length }

/-- The pins' values as captured and shifted out: free bits (notes/assumptions/8.md). -/
def State.captured (s : State) (n : Nat) : List Bool := (List.range n).map (Config.free s.safety.draws).testBit

/-- The boundary-scan register after a scan; a scan of no bits leaves it. -/
def Jtag.scanned (x : Jtag) (bits : List Bool) : List Bool := if bits.isEmpty then x.scan else bits

/-- SAMPLE/PRELOAD: the pins are captured and shifted out, the register takes the bits, and no pin is driven. -/
def execSamplePreload (i : JtagIn) (s : State) : Out :=
  withJtag s.draw.2
    { s.jtag with instr := .samplePreload, driven := none, scan := s.jtag.scanned i.bits, out := s.captured i.bits.length }

/-- EXTEST: as SAMPLE/PRELOAD, and the pins are driven from the register. -/
def execExtest (i : JtagIn) (s : State) : Out :=
  withJtag s.draw.2
    { s.jtag with instr := .extest, driven := some (s.jtag.scanned i.bits), scan := s.jtag.scanned i.bits,
                  out := s.captured i.bits.length }

end Sys2Proof.Machine
end

