-- ==== Sys2Proof/Machine/Power.lean ====
section
/-! DEFINITION. Power entry and the hot-swap stage (18_management_power.md, R598-R606, R611, R620). The stage acts on its own hardware
and on EN; its delays of microseconds are not modelled (notes/assumptions/4.md). -/

namespace Sys2Proof.Machine

/-! ### The stage -/

/-- States of the HOTSWAP sensor, in the order of Table 18.5: IDLE, RAMP, ON, FAULT. -/
def Power.sensor (x : Power) : Nat :=
  if x.faultLatched then 3
  else match x.gate with
    | .off => 0
    | .ramp => 1
    | .on => 2

/-- R605: faults of R600 within the last 60 s. -/
def Power.recent (x : Power) : Nat := (x.faultAges.filter (fun a => decide (a ≤ 60000))).length

/-- Time the stage has timed passes. -/
def Power.pass (x : Power) (ms : Nat) : Power := { x with faultAges := x.faultAges.map (· + ms) }

/-- R599: a new ramp. -/
def Power.ramp (x : Power) (retry : Nat) : Power :=
  { x with gate := .ramp, faultLatched := false, noRetry := false, thermtrip := false, retryNo := retry }

/-- Table 18.3: the entry of a turn-off. -/
def Power.tripEntry (x : Power) (cause starts : Nat) (i : TripIn) : HotswapEntry :=
  { cause := cause, phase := if x.gate == .ramp then 1 else 2, timeInPhase := min i.msInPhase 65535, vOut := i.vOut.toNat,
    iPeak := i.iPeak.toNat, startCount := starts, retry := x.retryNo }

/-- Table 18.2, steps 5 and 6: the gate is off, PWRGD falls and the die has no power. -/
def State.gateOff (s : State) : State :=
  { s with power := { s.power with gate := .off, pwrgd := false }, boot := { s.boot with running := false } }

/-- R606: the MMC, when it runs and may write its flash (R611), records the held entry and raises the PLDM event. -/
def State.logTrip (s : State) : State :=
  match s.power.heldTrip with
  | some e =>
    if s.mmc.state == .absent || s.nor.writesStopped then s
    else { s with power := { s.power with heldTrip := none },
                  mmc := { s.mmc with log := (e :: s.mmc.log).take 64, events := s.mmc.events ++ [(44, (s.power.sensor : Int))] } }
  | none => s

/-- A gate turn-off other than by EN: `latch` says whether FAULT_N latches. The stage holds the first entry until it is read. -/
def State.trip (s : State) (cause : Nat) (latch : Bool) (i : TripIn) : State :=
  let e := s.power.tripEntry cause s.mmc.starts i
  let s := s.gateOff
  let s := { s with power := { s.power with faultLatched := s.power.faultLatched || latch,
                                            heldTrip := s.power.heldTrip <|> some e } }
  s.logTrip

/-- R600: a fault that auto-retry may follow. -/
def State.retriableTrip (s : State) (cause : Nat) (i : TripIn) : State :=
  let s := s.trip cause true i
  { s with power := { s.power.pass i.msInPhase with faultAges := 0 :: (s.power.pass i.msInPhase).faultAges } }

/-- R605: a fault that never retries. -/
def State.finalTrip (s : State) (cause : Nat) (i : TripIn) : State :=
  let s := s.trip cause true i
  { s with power := { s.power with noRetry := true } }

/-! ### The rows -/

/-- EN_ASSERT (R598, R599, R604): a latched fault is cleared only after EN was low for 10 ms. -/
def execEnAssert (i : EnIn) (s : State) : Out :=
  .next (
    let x := (s.power.pass i.lowMs)
    if s.power.en then s
    else if (x.faultLatched && i.lowMs < 10) || x.inputBad then { s with power := { x with en := true } }
    else { s with power := { x.ramp 0 with en := true } })

/-- PWRGD (R598): the output has reached 90 % and the MMC has sequenced the rails into regulation. -/
def execPwrgd (s : State) : Out :=
  .next (if s.power.en && s.power.gate != .off && s.mmc.state != .absent then
      { s with power := { s.power with gate := .on, pwrgd := true } }
    else s)

/-- EN_DEASSERT (R598, step 5). -/
def execEnDeassert (s : State) : Out :=
  .next (let s := s.gateOff
         { s with power := { s.power with en := false } })

/-- CURRENT_LIMIT_TIMEOUT (R600). -/
def execCurrentLimitTimeout (i : TripIn) (s : State) : Out :=
  .next (if s.power.gate == .off then s else s.retriableTrip 1 i)

/-- RAMP_TIMEOUT (R600): the output below 90 % 30 ms after EN. -/
def execRampTimeout (i : TripIn) (s : State) : Out :=
  .next (if s.power.gate == .ramp then s.retriableTrip 2 i else s)

/-- OVERCURRENT_COMPARATOR (R601): in every ramp state. -/
def execOvercurrentComparator (i : TripIn) (s : State) : Out :=
  .next (if s.power.gate == .off then s else s.finalTrip 3 i)

/-- P12V_OUT_OF_RANGE (R603, R611): the gate goes off without latching FAULT_N; below 10.2 V no further write to flash or NOR starts. -/
def execP12vOutOfRange (i : InputTripIn) (s : State) : Out :=
  .next (
    let on := s.power.gate != .off
    let s := { s with power := { s.power with inputBad := true },
                      nor := { s.nor with writesStopped := s.nor.writesStopped || i.below } }
    if on then s.trip 4 false i.trip else s)

/-- P12V_RECOVERED (R603): 100 ms within 10.8-13.2 V; with EN asserted a new ramp starts. -/
def execP12vRecovered (s : State) : Out :=
  .next (
    if !s.power.inputBad then s
    else
      let s := { s with power := { s.power with inputBad := false }, nor := { s.nor with writesStopped := false } }
      let s := s.logTrip
      if s.power.en && !s.power.faultLatched && s.power.gate == .off then { s with power := s.power.ramp 0 } else s)

/-- RETRY_RAMP (R605): 1 s after a fault of R600, until the third within 60 s. -/
def execRetryRamp (s : State) : Out :=
  .next (
    let x := s.power
    if s.mmc.autoRetry && x.faultLatched && !x.noRetry && x.en && !x.inputBad && x.recent < 3 then
      { s with power := (x.pass 1000).ramp x.recent }
    else s)

/-- RAIL_OUT_OF_REGULATION (R598, step 6). -/
def execRailOutOfRegulation (s : State) : Out :=
  .next (if s.power.gate == .on then { s with power := { s.power with pwrgd := false } } else s)

/-- THERMTRIP (R620, R602): above 120 degrees the die asserts THERMTRIP_N and the stage removes power. The row carries no electrical
values: the stage's are free values. -/
def execThermtrip (i : JunctionIn) (s : State) : Out :=
  .next (if !s.boot.running || i.celsius ≤ 120 then s
    else
      let v := s.draw
      let c := v.2.draw
      let t := c.2.draw
      let s := { t.2 with power := { t.2.power with thermtrip := true } }
      s.finalTrip 5 { vOut := BitVec.ofNat 16 v.1, iPeak := BitVec.ofNat 16 c.1, msInPhase := t.1 })

end Sys2Proof.Machine
end

