-- ==== Sys2Proof/Machine/Mmc.lean ====
section
/-! DEFINITION. The module management controller (18_management_power.md): its starts and restarts (R592, R625-R628), the keep-alive
(R593, 04:R158), the fan curve (R621-R625) and the sensors (R615). -/

namespace Sys2Proof.Machine

/-! ### Start and restart -/

/-- What a restart of the MMC keeps: its flash, and what the die has already received from it. FAN_REQUEST starts at 100. -/
def Mmc.restarted (x : Mmc) : Mmc :=
  { Mmc.reset with state := .absent, keys := x.keys, keysDue := x.keysDue, log := x.log, autoRetry := x.autoRetry, starts := x.starts,
                   fanFull := x.fanFull }

/-- The MMC stops running: its volatile state is lost, and with it an update over PLDM. -/
def State.mmcDown (s : State) : State :=
  { s with mmc := s.mmc.restarted,
           nor := { s.nor with die := s.nor.die.abandon .pldm, mmc := s.nor.mmc.abandon .pldm } }

/-- 19:R642, R643: what the MMC's loader reports, at once when the module is READY, else at READY. -/
def State.tellBoot (s : State) (e : Option (Nat × Nat × Nat)) : State :=
  match e with
  | some (code, failed, running) =>
    let d := le 1 3 ++ le 1 failed ++ le 1 running
    if s.isReady then s.atNext (fun s => s.raise pfFn code d)
    else { s with boot := { s.boot with readyEvents := s.boot.readyEvents ++ [(pfFn.val, code, d)] } }
  | none => s

/-- The MMC's loader (19:R641-R643): the MMC runs, in state `st`, if an image does. -/
def State.mmcBoot (s : State) (st : MmcState) : State :=
  let b := s.nor.mmc.boot (fun n => (s.nor.mmc.slot n).sound 3)
  let s := { s with nor := { s.nor with mmc := b.comp }, mmc := { s.mmc with state := if b.runs then st else .absent } }
  s.tellBoot b.event

/-- 19:R645: a trial counts its AUTO_CONFIRM from the rebuilt state. -/
def FwComponent.rebuilt (x : FwComponent) (tick : Nat) : FwComponent :=
  if (x.slot x.running).state == .trial && x.trialReady.isNone then { x with trialReady := some tick } else x

def State.startTrial (s : State) : State :=
  if s.mmc.state == .serving then { s with nor := { s.nor with mmc := s.nor.mmc.rebuilt s.clk.tick } } else s

/-! ### The fan curve (R621-R623, R625) -/

/-- Level of one row of Table 18.8 by its breakpoints, all in half degrees, rounded up to 1 %. -/
def fanLevel (a b c t : Int) : Nat :=
  if t ≤ a then 30
  else if t ≤ b then 30 + ceilDiv (30 * (t - a)).toNat (b - a).toNat
  else if t < c then 60 + ceilDiv (40 * (t - b)).toNat (c - b).toNat
  else 100

/-- The hottest of readings in degrees; none where one cannot be read. -/
def hottest : List (Option Int) → Option Int
  | [] => none
  | [x] => x
  | x :: y :: xs => match x, hottest (y :: xs) with
    | some a, some b => some (max a b)
    | _, _ => none

/-- A row's level; an unreadable sensor makes it 100. -/
def fanRow (a b c : Int) (t : Option Int) : Nat := (t.map (fun t => fanLevel a b c (2 * t))).getD 100

/-- The greatest level over Table 18.8. -/
def fanDemand (x : SensorIn) : Nat :=
  maxOf [fanRow 140 170 190 (hottest x.junctions), fanRow 140 160 170 (hottest x.dram), fanRow 50 70 80 x.inlet,
    fanRow 180 195 210 x.regulator]

/-- A rise at once, a fall by at most 5; at 100 while a DRAM channel is above 105 degrees (R622). -/
def fanNext (old : Nat) (x : SensorIn) : Nat :=
  if x.dram.any (fun t => t.any (fun t => decide (105 < t))) then 100 else max (fanDemand x) (old - 5)

/-- R623: a change by at least 5 is sent to the event receiver. -/
def Mmc.reportFan (x : Mmc) : Mmc :=
  let moved := ((x.fan : Int) - x.fanReported).natAbs
  if 5 ≤ moved && x.receiver.isSome then { x with fanReported := x.fan, events := x.events ++ [(42, (x.fan : Int))] } else x

/-- R621, R625: one full evaluation, after which FAN_FULL_N is released unless a condition of R619 holds. -/
def State.evaluateFans (s : State) : State :=
  let s := { s with mmc := ({ s.mmc with fan := fanNext s.mmc.fan s.mmc.sensors }).reportFan }
  if s.safety.arraysStopped then s
  else { s with mmc := { s.mmc with fanFull := false }, safety := { s.safety with fanFull := false } }

/-! ### The rows -/

/-- AUX_POWER_UP (R592, R625): the MMC starts with FAN_FULL_N asserted and becomes ready; it reads what the stage holds (R606). -/
def execAuxPowerUp (s : State) : Out :=
  .next (
    let s := s.mmcDown
    let s := ({ s with mmc := { s.mmc with fanFull := true } }).mmcBoot .serving
    s.startTrial.logTrip)

/-- KEEP_ALIVE (R593): every 100 ms while the MMC runs; it clears TELEMETRY_STALE once the MMC has rebuilt its state (04:R158). -/
def execKeepAlive (s : State) : Out :=
  .next (if !s.boot.running || s.mmc.state == .absent then s
    else s.withSafety { s.safety with missedAlive := 0,
                                      staleNext := s.safety.staleNext && s.mmc.state != .serving })

/-- TELEMETRY_STALE (R593, 04:R158): three keep-alives are missing. -/
def execTelemetryStale (s : State) : Out :=
  .next (if s.boot.running then s.withSafety { s.safety with missedAlive := 3, staleNext := true } else s)

/-- MMC_WATCHDOG (R625, R626). -/
def execMmcWatchdog (s : State) : Out :=
  .next (let s := s.mmcDown
         { s with mmc := { s.mmc with fanFull := true } })

/-- MMC_ACTIVATION_RESTART (19:R640): the MMC restarts into the image that the boot pointer names, and rebuilds its state. -/
def execMmcActivationRestart (s : State) : Out :=
  .next (if !s.mmc.restartDue || s.mmc.state == .absent then s else s.mmcDown.mmcBoot .rebuilding)

/-- MMC_RETURN (R628): the MMC has rebuilt its state. -/
def execMmcReturn (s : State) : Out :=
  .next (
    let s := match s.mmc.state with
      | .absent => s.mmcBoot .serving
      | .rebuilding => { s with mmc := { s.mmc with state := .serving } }
      | .serving => s
    if s.mmc.state == .absent then s
    else
      let s := s.startTrial.logTrip.evaluateFans
      if s.boot.running then s.withSafety { s.safety with missedAlive := 0, staleNext := false } else s)

/-- FAN_CURVE_EVALUATION (R621), once a second. -/
def execFanCurveEvaluation (s : State) : Out :=
  .next (if s.mmc.state == .serving then s.evaluateFans else s)

/-- SENSOR_REFRESH (R615). -/
def execSensorRefresh (i : SensorIn) (s : State) : Out :=
  .next (if s.mmc.state == .absent then s else { s with mmc := { s.mmc with sensors := i } })

end Sys2Proof.Machine
end

