-- ==== Sys2Proof/Machine/Mgmt.lean ====
section
/-! DEFINITION. The management interface (18_management_power.md, R612-R617, R627; 19_firmware_update.md, R646, R647): how a request
reaches the MMC, and the MCTP control, PLDM and vendor commands. Command codes, completion codes and data layouts that the spec leaves to
the DMTF documents are PRESUMED from them (notes/assumptions/10.md, 14.md). -/

namespace Sys2Proof.Machine

/-! ### Reaching the MMC (R613, R627) -/

/-- What becomes of a request. -/
inductive Access where
  | serve | notReady | silent
  deriving DecidableEq, Repr

/-- R612: the MMC is the target of an SMBus transaction: its own address, a clock it supports and a right PEC. No other address is its own: it
takes part in no ARP. -/
def State.smbusTarget (s : State) (t : SmbusIn) : Bool :=
  t.address.toNat == 0x60 + s.boot.slot && [100, 400, 1000].contains t.kHz && t.pec

/-- SMBus reaches a running MMC at its address; VDM reaches it through the host port, addressed to the PF. -/
def State.access (s : State) (p : MgmtPath) : Access :=
  let running : Access := match s.mmc.state with
    | .absent => .notReady
    | .rebuilding => .notReady
    | .serving => .serve
  match p with
  | .smbus t => if s.mmc.state == .absent || !s.smbusTarget t then .silent else running
  | .vdm f => if isPf f && s.pcieUsable && s.host.linkUp then running else .silent

/-- R612, R613: a request over SMBus is answered over SMBus, which the MMC masters for it; one by VDM, by VDM. -/
def masters : MgmtPath → Bool
  | .smbus _ => true
  | .vdm _ => false

def State.respond (s : State) (p : MgmtPath) (msgType command code : Nat) (data : List Byte) : State :=
  { s with mmc := { s.mmc with
      response := some { smbus := masters p, msgType := msgType, command := command, code := code, data := data } } }

/-- An answered command: what it does, its completion code and its data. -/
abbrev Reply := State × Nat × List Byte

/-- A command of one message type; `notReady` is the code given while the MMC is absent or rebuilds its state. -/
def State.serve (s : State) (p : MgmtPath) (msgType command : Nat) (notReady : Option Nat) (f : State → Reply) : State :=
  match s.access p with
  | .serve => (f s).1.respond p msgType command (f s).2.1 (f s).2.2
  | .notReady => match notReady with
    | some c => s.respond p msgType command c []
    | none => s
  | .silent => s

/-- MCTP control (message type 0x00): unanswered while the MMC does not serve. -/
def State.mctp (s : State) (p : MgmtPath) (command : Nat) (f : State → Reply) : Out := .next (s.serve p 0x00 command none f)

/-- PLDM (message type 0x01): ERROR_NOT_READY. The command number is 256 * type + code. -/
def State.pldm (s : State) (p : MgmtPath) (command : Nat) (f : State → Reply) : Out := .next (s.serve p 0x01 command (some 0x04) f)

/-- Vendor commands (message type 0x7E): NOT_READY. -/
def State.vendor (s : State) (p : MgmtPath) (command : Nat) (f : State → Reply) : Out := .next (s.serve p 0x7E command (some 1) f)

def withMmc (s : State) (m : Mmc) : State := { s with mmc := m }

/-! ### MCTP control (R613) -/

/-- SET_ENDPOINT_ID: the null and the broadcast EID are refused. -/
def execSetEndpointId (i : MgmtByteIn) (s : State) : Out :=
  s.mctp i.path 0x01 (fun s =>
    if i.value == 0 || i.value == 0xFF then (s, 0x02, [])
    else (withMmc s { s.mmc with eid := i.value }, 0x00, Config.mgmtData 0x01 i.value.toNat))

/-- GET_ENDPOINT_ID. -/
def execGetEndpointId (i : MgmtIn) (s : State) : Out :=
  s.mctp i.path 0x02 (fun s => (s, 0x00, s.mmc.eid :: Config.mgmtData 0x02 0))

/-- GET_ENDPOINT_UUID. -/
def execGetEndpointUuid (i : MgmtIn) (s : State) : Out :=
  s.mctp i.path 0x03 (fun s => (s, 0x00, Config.uuid))

/-- GET_MCTP_VERSION_SUPPORT of a message type. -/
def execGetMctpVersionSupport (i : MgmtByteIn) (s : State) : Out :=
  s.mctp i.path 0x04 (fun s =>
    if [0x00, 0x01, 0x7E, 0xFF].contains i.value.toNat then (s, 0x00, Config.mgmtData 0x04 i.value.toNat) else (s, 0x80, []))

/-- GET_MESSAGE_TYPE_SUPPORT: 0x00, 0x01 and 0x7E. -/
def execGetMessageTypeSupport (i : MgmtIn) (s : State) : Out :=
  s.mctp i.path 0x05 (fun s => (s, 0x00, [3, 0x00, 0x01, 0x7E]))

/-- GET_VENDOR_DEFINED_MESSAGE_SUPPORT: one vendor ID set, Thofonex's PCI identifier. -/
def execGetVendorDefinedMessageSupport (i : MgmtByteIn) (s : State) : Out :=
  s.mctp i.path 0x06 (fun s =>
    if i.value == 0 then (s, 0x00, [0xFF, 0x00] ++ (le 2 Config.vendorId.toNat).reverse ++ Config.mgmtData 0x06 0) else (s, 0x02, []))

/-! ### PLDM base (R614, type 0) -/

/-- The commands of Table 18.4 that the MMC answers or sends, by type. -/
def pldmCommands (type : Nat) : Option (List Nat) :=
  if type = 0 then some [0x01, 0x02, 0x03, 0x04, 0x05]
  else if type = 2 then some [0x04, 0x05, 0x0A, 0x0B, 0x11, 0x21, 0x50, 0x51]
  else if type = 4 then some [0x01, 0x02]
  else if type = 5 then some [0x01, 0x02, 0x10, 0x13, 0x14, 0x15, 0x16, 0x17, 0x18, 0x1A, 0x1B, 0x1C, 0x1D]
  else none

/-- GET_TID. -/
def execGetTid (i : MgmtIn) (s : State) : Out :=
  s.pldm i.path 0x002 (fun s => (s, 0x00, [s.mmc.tid]))

/-- SET_TID: 0 and 0xFF are refused. -/
def execSetTid (i : MgmtByteIn) (s : State) : Out :=
  s.pldm i.path 0x001 (fun s =>
    if i.value == 0 || i.value == 0xFF then (s, 0x02, []) else (withMmc s { s.mmc with tid := i.value }, 0x00, []))

/-- GET_PLDM_VERSION of a type. -/
def execGetPldmVersion (i : MgmtByteIn) (s : State) : Out :=
  s.pldm i.path 0x003 (fun s =>
    if (pldmCommands i.value.toNat).isSome then (s, 0x00, Config.mgmtData 0x003 i.value.toNat) else (s, 0x83, []))

/-- GET_PLDM_TYPES: a bitmap of types 0, 2, 4 and 5. -/
def execGetPldmTypes (i : MgmtIn) (s : State) : Out :=
  s.pldm i.path 0x004 (fun s => (s, 0x00, le 8 (bitmap 64 (fun t => (pldmCommands t).isSome))))

/-- GET_PLDM_COMMANDS of a type: a bitmap of command codes. -/
def execGetPldmCommands (i : MgmtByteIn) (s : State) : Out :=
  s.pldm i.path 0x005 (fun s => match pldmCommands i.value.toNat with
    | some cs => (s, 0x00, le 32 (bitmap 256 cs.contains))
    | none => (s, 0x83, []))

/-! ### PLDM platform monitoring (R614, R615, type 2) -/

/-- SET_EVENT_RECEIVER: the null EID leaves none set. -/
def execSetEventReceiver (i : MgmtByteIn) (s : State) : Out :=
  s.pldm i.path 0x204 (fun s => (withMmc s { s.mmc with receiver := if i.value == 0 then none else some i.value }, 0x00, []))

/-- GET_EVENT_RECEIVER. -/
def execGetEventReceiver (i : MgmtIn) (s : State) : Out :=
  s.pldm i.path 0x205 (fun s => (s, 0x00, [s.mmc.receiver.getD 0]))

/-- POLL_FOR_PLATFORM_EVENT_MESSAGE: the oldest event waiting. -/
def execPollForPlatformEventMessage (i : MgmtIn) (s : State) : Out :=
  s.pldm i.path 0x20B (fun s => match s.mmc.events with
    | e :: rest => (withMmc s { s.mmc with events := rest }, 0x00, le 2 e.1 ++ leS 4 e.2)
    | [] => (s, 0x00, []))

/-- Table 18.5: the reading of a numeric sensor; the outer none for an ID that names none. -/
def State.sensor (s : State) (id : Nat) : Option (Option Int) :=
  let x := s.mmc.sensors
  if id = 1 then some (hottest x.junctions)
  else if 2 ≤ id && id ≤ 19 then some ((x.junctions[id - 2]?).bind (fun r => r))
  else if 20 ≤ id && id ≤ 35 then some ((x.dram[id - 20]?).bind (fun r => r))
  else if id = 36 then some x.inlet
  else if id = 37 then some x.outlet
  else if id = 38 then some x.regulator
  else if id = 39 then some x.p12v
  else if id = 40 then some x.currentA
  else if id = 41 then some x.powerW
  else if id = 42 then some (some (s.mmc.fan : Int))
  else if id = 45 then some (some (s.safety.throttle : Int))
  else none

/-- A reading's bytes: operational state 0 with the value, or 2 where it cannot be read. -/
def readingBytes : Option Int → List Byte
  | some v => le 1 0 ++ leS 4 v
  | none => le 1 2 ++ le 4 0

/-- GET_SENSOR_READING. -/
def execGetSensorReading (i : MgmtWordIn) (s : State) : Out :=
  s.pldm i.path 0x211 (fun s => match s.sensor i.value.toNat with
    | some r => (s, 0x00, readingBytes r)
    | none => (s, 0x80, []))

/-- The failure cause of MODULE_STATE: the safety event code, else bytes that the spec does not give. -/
def failBytes : Option FailCause → List Byte
  | none => []
  | some (.safety c) => le 2 (failureCode c)
  | some .noImage => Config.mgmtData 0x221 0
  | some (.part k) => Config.mgmtData 0x221 (nodeOfUnit ⟨k, 0⟩)

/-- GET_STATE_SENSOR_READINGS: MODULE_STATE and HOTSWAP. -/
def execGetStateSensorReadings (i : MgmtWordIn) (s : State) : Out :=
  s.pldm i.path 0x221 (fun s =>
    if i.value.toNat = 43 then (s, 0x00, le 1 (moduleStateCode s.safety.state) ++ failBytes s.safety.failCause)
    else if i.value.toNat = 44 then (s, 0x00, le 1 s.power.sensor)
    else (s, 0x80, []))

/-- GET_PDR_REPOSITORY_INFO. -/
def execGetPdrRepositoryInfo (i : MgmtIn) (s : State) : Out :=
  s.pldm i.path 0x250 (fun s => (s, 0x00, Config.mgmtData 0x250 0))

/-- GET_PDR of a record handle. -/
def execGetPdr (i : MgmtWordIn) (s : State) : Out :=
  s.pldm i.path 0x251 (fun s => (s, 0x00, Config.mgmtData 0x251 i.value.toNat))

/-! ### PLDM FRU data (R614, type 4) -/

/-- GET_FRU_RECORD_TABLE_METADATA. -/
def execGetFruRecordTableMetadata (i : MgmtIn) (s : State) : Out :=
  s.pldm i.path 0x401 (fun s => (s, 0x00, Config.mgmtData 0x401 0))

/-- GET_FRU_RECORD_TABLE. -/
def execGetFruRecordTable (i : MgmtIn) (s : State) : Out :=
  s.pldm i.path 0x402 (fun s => (s, 0x00, Config.mgmtData 0x402 0))

/-! ### PLDM firmware update (R646, R647, type 5) -/

/-- QUERY_DEVICE_IDENTIFIERS. -/
def execQueryDeviceIdentifiers (i : MgmtIn) (s : State) : Out :=
  s.pldm i.path 0x501 (fun s => (s, 0x00, le 2 Config.vendorId.toNat ++ Config.mgmtData 0x501 0))

/-- MAJOR, MINOR, PATCH and BUILD of a slot's image. -/
def versionBytes (c n : Nat) (x : FwSlot) : List Byte :=
  let v := x.version c n
  le 2 v.1 ++ le 2 v.2.1 ++ le 2 v.2.2.1 ++ le 4 v.2.2.2

/-- A component: its identifier, the active version, and the pending one. -/
def State.componentBytes (s : State) (c : Nat) : List Byte :=
  let x := s.fw c
  le 2 c ++ versionBytes c x.running (x.slot x.running) ++ (if x.idleSlot.state == .pending then versionBytes c x.idle x.idleSlot else [])

/-- GET_FIRMWARE_PARAMETERS: components 0x0002 and 0x0003. -/
def execGetFirmwareParameters (i : MgmtIn) (s : State) : Out :=
  s.pldm i.path 0x502 (fun s => (s, 0x00, s.componentBytes 2 ++ s.componentBytes 3))

def isComponent (c : U16) : Bool := c == 2 || c == 3

def withUpdate (s : State) (u : Option PldmUpdate) : State := withMmc s { s.mmc with update := u }

/-- REQUEST_UPDATE (R647): the PLDM path holds the component from here. -/
def execRequestUpdate (i : MgmtComponentIn) (s : State) : Out :=
  s.pldm i.path 0x510 (fun s =>
    if !isComponent i.component then (s, 0x02, [])
    else if s.mmc.update.isSome || (s.fw i.component.toNat).holder.isSome then (s, 0x81, [])
    else
      let s := s.modFw i.component.toNat (fun x => { x with holder := some .pldm })
      (withUpdate s (some { passed := [], component := none, activating := false }), 0x00, []))

/-- PASS_COMPONENT_TABLE. -/
def execPassComponentTable (i : MgmtComponentIn) (s : State) : Out :=
  s.pldm i.path 0x513 (fun s => match s.mmc.update with
    | some u =>
      if isComponent i.component then (withUpdate s (some { u with passed := i.component.toNat :: u.passed }), 0x00, [0, 0])
      else (s, 0x00, [1, 0])
    | none => (s, 0x80, []))

/-- UPDATE_COMPONENT (R634, R635, R646): the download, whose data RequestFirmwareData fetches. -/
def execUpdateComponent (i : MgmtImageIn) (s : State) : Out :=
  s.pldm i.path 0x514 (fun s =>
    let c := i.component.toNat
    match s.mmc.update with
    | some u =>
      if !u.passed.contains c || (s.fw c).downloadBarred .pldm || i.image.length = 0 || slotSize c < i.image.length then (s, 0x84, [])
      else if !s.fwWritable c then (s, 0x04, [])
      else
        let s := s.modFw c (fun x => { x.setSlot x.idle (fun y => y.put 0 i.image) with holder := some .pldm })
        (withUpdate s (some { u with component := some c }), 0x00, [0, 0])
    | none => (s, 0x80, []))

/-- ACTIVATE_FIRMWARE (R639, R640): the verified component's boot-pointer record is begun. -/
def execActivateFirmware (i : MgmtIn) (s : State) : Out :=
  s.pldm i.path 0x51A (fun s => match s.mmc.update with
    | some u =>
      if u.component.any (fun c => (s.fw c).idleSlot.state == .verified) then
        (withUpdate s (some { u with activating := true }), 0x00, Config.mgmtData 0x51A 0)
      else (s, 0x84, [])
    | none => (s, 0x80, []))

/-- The update state of GET_STATUS: IDLE, LEARN COMPONENTS, READY XFER, DOWNLOAD, VERIFY, ACTIVATE. -/
def State.updateState (s : State) : Nat :=
  match s.mmc.update with
  | none => 0
  | some u =>
    if u.activating then 6
    else if u.passed.isEmpty then 1
    else match u.component.map (fun c => (s.fw c).idleSlot.state) with
      | some .downloading => 3
      | some .downloaded => 4
      | _ => 2

/-- GET_STATUS. -/
def execGetStatus (i : MgmtIn) (s : State) : Out :=
  s.pldm i.path 0x51B (fun s => (s, 0x00, le 1 s.updateState ++ Config.mgmtData 0x51B s.updateState))

/-- The download in progress is dropped; the slot stays DOWNLOADING until the next die start. -/
def State.dropDownload (s : State) (c : Nat) : State := s.modFw c (fun x => { x.abandon .pldm with holder := x.holder })

/-- CANCEL_UPDATE_COMPONENT. -/
def execCancelUpdateComponent (i : MgmtIn) (s : State) : Out :=
  s.pldm i.path 0x51C (fun s => match s.mmc.update with
    | some u => match u.component with
      | some c => (withUpdate (s.dropDownload c) (some { u with component := none, activating := false }), 0x00, [])
      | none => (s, 0x84, [])
    | none => (s, 0x80, []))

/-- CANCEL_UPDATE: update mode ends. -/
def execCancelUpdate (i : MgmtIn) (s : State) : Out :=
  s.pldm i.path 0x51D (fun s => match s.mmc.update with
    | some _ =>
      let s := (s.modFw 2 (fun x => x.abandon .pldm)).modFw 3 (fun x => x.abandon .pldm)
      (withUpdate s none, 0x00, [0])
    | none => (s, 0x80, []))

/-! ### Vendor commands (R616, Table 18.6) -/

/-- TOD_ARM: over SMBus only; the die arms the value at its next commit (R617), and the response follows when the arming ends. -/
def execTodArm (i : TodArmIn) (s : State) : Out :=
  .next (match s.access i.path with
    | .silent => s
    | .notReady => s.respond i.path 0x7E 0x01 1 []
    | .serve => match i.path with
      | .vdm _ => s.respond i.path 0x7E 0x01 3 []
      | .smbus _ =>
        if i.nextPpsTime.toNat % 1000000000 ≠ 0 then s.respond i.path 0x7E 0x01 2 []
        else if s.dead then s.respond i.path 0x7E 0x01 1 []
        else
          let s := if s.clk.fromMmc.isSome then s.answerTod 5 else s
          { s with clk := { s.clk with fromMmc := some i.nextPpsTime.toNat } })

/-- A key stored or removed in the MMC's flash, and passed to the die when it runs (R617). -/
def State.setKey (s : State) (tenant : Nat) (key : Option (List Byte)) : State :=
  let keys := s.mmc.keys.filter (fun k => k.1 != tenant) ++ (key.map (fun k => (tenant, k))).toList
  withMmc s { s.mmc with keys := keys, keysDue := if s.isReady then s.mmc.keysDue ++ [(tenant, key)] else s.mmc.keysDue }

/-- MODEL_KEY_SET: 97 bytes of an uncompressed point. -/
def execModelKeySet (i : KeySetIn) (s : State) : Out :=
  s.vendor i.path 0x02 (fun s =>
    if 16 ≤ i.tenant.toNat || i.key.length != 97 || i.key.head? != some 4 then (s, 2, [])
    else if s.nor.writesStopped then (s, 1, [])
    else (s.setKey i.tenant.toNat (some i.key), 0, []))

/-- MODEL_KEY_CLEAR. -/
def execModelKeyClear (i : MgmtByteIn) (s : State) : Out :=
  s.vendor i.path 0x03 (fun s =>
    if 16 ≤ i.value.toNat then (s, 2, [])
    else if s.nor.writesStopped then (s, 1, [])
    else (s.setKey i.value.toNat none, 0, []))

/-- Table 18.3: the bytes of an entry. -/
def HotswapEntry.bytes (e : HotswapEntry) : List Byte :=
  let b := le 1 e.cause ++ le 1 e.phase ++ le 2 e.timeInPhase ++ le 2 e.vOut ++ le 2 e.iPeak ++ le 4 e.startCount ++ le 2 e.retry
  b ++ le 2 (crc32c b)

/-- HOTSWAP_LOG_READ: INDEX 0 is the newest. -/
def execHotswapLogRead (i : MgmtByteIn) (s : State) : Out :=
  s.vendor i.path 0x04 (fun s => match s.mmc.log[i.value.toNat]? with
    | some e => (s, 0, e.bytes)
    | none => (s, 2, []))

/-- AUTO_RETRY. -/
def execAutoRetry (i : MgmtByteIn) (s : State) : Out :=
  s.vendor i.path 0x05 (fun s =>
    if 2 ≤ i.value.toNat then (s, 2, [])
    else if s.nor.writesStopped then (s, 1, [])
    else (withMmc s { s.mmc with autoRetry := i.value == 1 }, 0, []))

end Sys2Proof.Machine
end

