-- ==== Sys2Proof/Machine/Thermal.lean ====
section
/-! DEFINITION. Thermal protection in the die (18_management_power.md, R618-R620). The thermal controller needs neither the MMC nor
module firmware: it acts while the die runs, in every STATE. -/

namespace Sys2Proof.Machine

/-- Table 18.7: the highest throttle step. -/
def maxStep : Nat := 5

/-- R618: consecutive ticks at or below 95 degrees, counted with the reading of the tick just ended. -/
def Safety.cooled (x : Safety) (celsius : Int) : Nat := if celsius ≤ 95 then x.coolTicks + 1 else 0

/-- R618: no step change took place in the 60 ticks before commit `tick`. -/
def Safety.stepRested (x : Safety) (tick : Nat) : Bool := match x.stepTick with
  | some t => decide (t + 60 < tick)
  | none => true

/-- R618: the step after a commit whose ending tick read `celsius` at most; the arrays are stopped until R619 sets their step. -/
def Safety.nextStep (x : Safety) (tick : Nat) (celsius : Int) : Nat :=
  if 100 ≤ celsius then (if x.throttle < maxStep && x.stepRested tick then x.throttle + 1 else x.throttle)
  else if !x.arraysStopped && 600 ≤ x.cooled celsius then x.throttle - 1 else x.throttle

/-- A new step is in force from this commit (R157): its heartbeats and Hallmark views show it, and THERMAL_THROTTLE tells every sealed
function. -/
def State.setStep (s : State) (step : Nat) : State :=
  if step = s.safety.throttle then s
  else
    let old := s.safety.throttle
    let s := s.withSafety { s.safety with throttle := step, stepTick := some s.clk.tick }
    if s.safety.state == .failed then s else s.raiseAll s.sealedFns 0x0600 (le 1 old ++ le 1 step)

/-- THERMAL_THROTTLE (R618), at the coming commit: the hottest junction reading of the ending tick. -/
def execThermalThrottle (i : JunctionIn) (s : State) : Out :=
  .next (if !s.boot.running then s
    else s.atNext (fun s =>
      let step := s.safety.nextStep s.clk.tick i.celsius
      (s.withSafety { s.safety with coolTicks := s.safety.cooled i.celsius }).setStep step))

/-- THERMAL_RUNAWAY (R619): above 110 degrees the arrays stop and FAN_FULL_N is asserted; the failure is reacted to at the next commit. -/
def execThermalRunaway (i : JunctionIn) (s : State) : Out :=
  .next (if !s.boot.running || i.celsius ≤ 110 then s
    else
      let s' := s.withSafety { s.safety with fanFull := true, coolTicks := 0, arraysStopped := true }
      if s.safety.arraysStopped || !s.isReady then s'
      else s'.withSafety { s'.safety with faults := s'.safety.faults ++
        [{ cls := some .thermalRunaway, handle := 0xFFFF, seq := 0, unit := ⟨.row, 0⟩, stateLost := false, column := none }] })

/-- THERMAL_RESUME (R619), at the coming commit: after 600 cool ticks the arrays restart at step 5. -/
def execThermalResume (s : State) : Out :=
  .next (if !s.boot.running || !s.safety.arraysStopped || s.safety.coolTicks < 600 then s
    else s.atNext (fun s =>
      let s := s.withSafety { s.safety with arraysStopped := false }
      let s := if s.safety.state == .failed then s else s.raiseAll s.sealedFns 0x0601 []
      let s := s.setStep maxStep
      s.withSafety { s.safety with stepTick := some s.clk.tick }))

end Sys2Proof.Machine
end

