-- ==== Sys2Proof/Machine/Dispatch.lean ====
section
/-! DEFINITION. The dispatch of a command to its meaning: one arm per constructor of `Instr`. -/

namespace Sys2Proof.Machine

def exec (i : Instr) (s : State) : Host.Outcome State Fault Refusal :=
  match i with
  | .commit x => Sys2Proof.Machine.execCommit x s
  | .stageOverrun x => Sys2Proof.Machine.execStageOverrun x s
  | .faultReport x => Sys2Proof.Machine.execFaultReport x s
  | .replayInputsReleased x => Sys2Proof.Machine.execReplayInputsReleased x s
  | .tokenRefill x => Sys2Proof.Machine.execTokenRefill x s
  | .doorbell x => Sys2Proof.Machine.execDoorbell x s
  | .commandAccept x => Sys2Proof.Machine.execCommandAccept x s
  | .hostReadCompletion x => Sys2Proof.Machine.execHostReadCompletion x s
  | .completionTimeout x => Sys2Proof.Machine.execCompletionTimeout x s
  | .fetchLate x => Sys2Proof.Machine.execFetchLate x s
  | .tenantConfigure h p => Sys2Proof.Machine.execTenantConfigure h p s
  | .partitionPlan h p => Sys2Proof.Machine.execPartitionPlan h p s
  | .queueCreate h p => Sys2Proof.Machine.execQueueCreate h p s
  | .queueDestroy h p => Sys2Proof.Machine.execQueueDestroy h p s
  | .modelLoad h p => Sys2Proof.Machine.execModelLoad h p s
  | .modelLoadComplete x => Sys2Proof.Machine.execModelLoadComplete x s
  | .modelUnload h p => Sys2Proof.Machine.execModelUnload h p s
  | .streamOpen h p => Sys2Proof.Machine.execStreamOpen h p s
  | .streamClose h p => Sys2Proof.Machine.execStreamClose h p s
  | .streamCloseComplete x => Sys2Proof.Machine.execStreamCloseComplete x s
  | .streamModify h p => Sys2Proof.Machine.execStreamModify h p s
  | .streamMigrate h p => Sys2Proof.Machine.execStreamMigrate h p s
  | .migrationSwitch x => Sys2Proof.Machine.execMigrationSwitch x s
  | .migrationCopyComplete x => Sys2Proof.Machine.execMigrationCopyComplete x s
  | .migrationAdmissionRequest x => Sys2Proof.Machine.execMigrationAdmissionRequest x s
  | .remoteRecords x => Sys2Proof.Machine.execRemoteRecords x s
  | .tableWrite h p => Sys2Proof.Machine.execTableWrite h p s
  | .claspCreate h p => Sys2Proof.Machine.execClaspCreate h p s
  | .claspSignal h p => Sys2Proof.Machine.execClaspSignal h p s
  | .claspDestroy h p => Sys2Proof.Machine.execClaspDestroy h p s
  | .calibrationPolicy h p => Sys2Proof.Machine.execCalibrationPolicy h p s
  | .sampleStart h p => Sys2Proof.Machine.execSampleStart h p s
  | .sampleStop h p => Sys2Proof.Machine.execSampleStop h p s
  | .timeSet h p => Sys2Proof.Machine.execTimeSet h p s
  | .fwDownloadChunk h p => Sys2Proof.Machine.execFwDownloadChunk h p s
  | .fwChunkWritten x => Sys2Proof.Machine.execFwChunkWritten x s
  | .fwVerify h p => Sys2Proof.Machine.execFwVerify h p s
  | .fwVerifyDone x => Sys2Proof.Machine.execFwVerifyDone x s
  | .fwActivate h p => Sys2Proof.Machine.execFwActivate h p s
  | .fwActivateDone x => Sys2Proof.Machine.execFwActivateDone x s
  | .fwConfirm h p => Sys2Proof.Machine.execFwConfirm h p s
  | .fwConfirmDone x => Sys2Proof.Machine.execFwConfirmDone x s
  | .fwAutoConfirmed x => Sys2Proof.Machine.execFwAutoConfirmed x s
  | .auditRead h p => Sys2Proof.Machine.execAuditRead h p s
  | .nop h => Sys2Proof.Machine.execNop h s
  | .sealRow x => Sys2Proof.Machine.execSeal x s
  | .sampleAllow x => Sys2Proof.Machine.execSampleAllow x s
  | .registerWrite x => Sys2Proof.Machine.execRegisterWrite x s
  | .msixUnmask x => Sys2Proof.Machine.execMsixUnmask x s
  | .busMasterEnable x => Sys2Proof.Machine.execBusMasterEnable x s
  | .flr x => Sys2Proof.Machine.execFlr x s
  | .vfEnableClear => Sys2Proof.Machine.execVfEnableClear s
  | .hotReset => Sys2Proof.Machine.execHotReset s
  | .pcieLinkDown => Sys2Proof.Machine.execPcieLinkDown s
  | .d3hotEntry => Sys2Proof.Machine.execD3hotEntry s
  | .linkRetraining x => Sys2Proof.Machine.execLinkRetraining x s
  | .resetEnd x => Sys2Proof.Machine.execResetEnd x s
  | .zeroingComplete x => Sys2Proof.Machine.execZeroingComplete x s
  | .ppsEdge x => Sys2Proof.Machine.execPpsEdge x s
  | .timeRefLoss10m x => Sys2Proof.Machine.execTimeRefLoss10m x s
  | .timeRefLossPps x => Sys2Proof.Machine.execTimeRefLossPps x s
  | .timeRateReject x => Sys2Proof.Machine.execTimeRateReject x s
  | .timeHoldoverExpired => Sys2Proof.Machine.execTimeHoldoverExpired s
  | .steppedClear => Sys2Proof.Machine.execSteppedClear s
  | .noReference x => Sys2Proof.Machine.execNoReference x s
  | .bufferAllocate x => Sys2Proof.Machine.execBufferAllocate x s
  | .bufferRelease x => Sys2Proof.Machine.execBufferRelease x s
  | .poolLeakSuspect x => Sys2Proof.Machine.execPoolLeakSuspect x s
  | .poolForcedReclaim x => Sys2Proof.Machine.execPoolForcedReclaim x s
  | .dramRequest x => Sys2Proof.Machine.execDramRequest x s
  | .schedulingDecision x => Sys2Proof.Machine.execSchedulingDecision x s
  | .regulatorRefill x => Sys2Proof.Machine.execRegulatorRefill x s
  | .refresh x => Sys2Proof.Machine.execRefresh x s
  | .temperatureRead x => Sys2Proof.Machine.execTemperatureRead x s
  | .zqCalibration x => Sys2Proof.Machine.execZqCalibration x s
  | .patrolScrub x => Sys2Proof.Machine.execPatrolScrub x s
  | .filigreePacketHop x => Sys2Proof.Machine.execFiligreePacketHop x s
  | .creditReturn x => Sys2Proof.Machine.execCreditReturn x s
  | .trailingAcknowledgement x => Sys2Proof.Machine.execTrailingAcknowledgement x s
  | .fencedInjection x => Sys2Proof.Machine.execFencedInjection x s
  | .segmentHandover => Sys2Proof.Machine.execSegmentHandover s
  | .filigreeDrainFault => Sys2Proof.Machine.execFiligreeDrainFault s
  | .train x => Sys2Proof.Machine.execTrain x s
  | .peerTick x => Sys2Proof.Machine.execPeerTick x s
  | .chainData x => Sys2Proof.Machine.execChainData x s
  | .nak x => Sys2Proof.Machine.execNak x s
  | .replayTimeout x => Sys2Proof.Machine.execReplayTimeout x s
  | .chainLinkState x => Sys2Proof.Machine.execChainLinkState x s
  | .nack x => Sys2Proof.Machine.execNack x s
  | .creditReset x => Sys2Proof.Machine.execCreditReset x s
  | .creditResetAck x => Sys2Proof.Machine.execCreditResetAck x s
  | .chainLinkUp x => Sys2Proof.Machine.execChainLinkUp x s
  | .chainPeerLost x => Sys2Proof.Machine.execChainPeerLost x s
  | .streamRehomed x => Sys2Proof.Machine.execStreamRehomed x s
  | .mirrorCapture => Sys2Proof.Machine.execMirrorCapture s
  | .mirrorAbandoned x => Sys2Proof.Machine.execMirrorAbandoned x s
  | .buddyRelease x => Sys2Proof.Machine.execBuddyRelease x s
  | .loadExchange x => Sys2Proof.Machine.execLoadExchange x s
  | .balanceEvaluation => Sys2Proof.Machine.execBalanceEvaluation s
  | .quantRetune x => Sys2Proof.Machine.execQuantRetune x s
  | .sampleEpochEnd x => Sys2Proof.Machine.execSampleEpochEnd x s
  | .touchstone x => Sys2Proof.Machine.execTouchstone x s
  | .touchstoneRetest x => Sys2Proof.Machine.execTouchstoneRetest x s
  | .lockstepMismatch x => Sys2Proof.Machine.execLockstepMismatch x s
  | .clusterReload x => Sys2Proof.Machine.execClusterReload x s
  | .thermalThrottle x => Sys2Proof.Machine.execThermalThrottle x s
  | .thermalRunaway x => Sys2Proof.Machine.execThermalRunaway x s
  | .thermalResume => Sys2Proof.Machine.execThermalResume s
  | .thermtrip x => Sys2Proof.Machine.execThermtrip x s
  | .dieStart x => Sys2Proof.Machine.execDieStart x s
  | .bringUp x => Sys2Proof.Machine.execBringUp x s
  | .ready => Sys2Proof.Machine.execReady s
  | .bootRomWatchdog => Sys2Proof.Machine.execBootRomWatchdog s
  | .auxPowerUp => Sys2Proof.Machine.execAuxPowerUp s
  | .enAssert x => Sys2Proof.Machine.execEnAssert x s
  | .pwrgd => Sys2Proof.Machine.execPwrgd s
  | .enDeassert => Sys2Proof.Machine.execEnDeassert s
  | .currentLimitTimeout x => Sys2Proof.Machine.execCurrentLimitTimeout x s
  | .rampTimeout x => Sys2Proof.Machine.execRampTimeout x s
  | .overcurrentComparator x => Sys2Proof.Machine.execOvercurrentComparator x s
  | .p12vOutOfRange x => Sys2Proof.Machine.execP12vOutOfRange x s
  | .p12vRecovered => Sys2Proof.Machine.execP12vRecovered s
  | .retryRamp => Sys2Proof.Machine.execRetryRamp s
  | .evacuationRequested => Sys2Proof.Machine.execEvacuationRequested s
  | .evacuationComplete => Sys2Proof.Machine.execEvacuationComplete s
  | .evacuationCancelled => Sys2Proof.Machine.execEvacuationCancelled s
  | .keepAlive => Sys2Proof.Machine.execKeepAlive s
  | .telemetryStale => Sys2Proof.Machine.execTelemetryStale s
  | .mmcWatchdog => Sys2Proof.Machine.execMmcWatchdog s
  | .mmcReturn => Sys2Proof.Machine.execMmcReturn s
  | .mmcActivationRestart => Sys2Proof.Machine.execMmcActivationRestart s
  | .fanCurveEvaluation => Sys2Proof.Machine.execFanCurveEvaluation s
  | .sensorRefresh x => Sys2Proof.Machine.execSensorRefresh x s
  | .setEndpointId x => Sys2Proof.Machine.execSetEndpointId x s
  | .getEndpointId x => Sys2Proof.Machine.execGetEndpointId x s
  | .getEndpointUuid x => Sys2Proof.Machine.execGetEndpointUuid x s
  | .getMctpVersionSupport x => Sys2Proof.Machine.execGetMctpVersionSupport x s
  | .getMessageTypeSupport x => Sys2Proof.Machine.execGetMessageTypeSupport x s
  | .getVendorDefinedMessageSupport x => Sys2Proof.Machine.execGetVendorDefinedMessageSupport x s
  | .getTid x => Sys2Proof.Machine.execGetTid x s
  | .setTid x => Sys2Proof.Machine.execSetTid x s
  | .getPldmVersion x => Sys2Proof.Machine.execGetPldmVersion x s
  | .getPldmTypes x => Sys2Proof.Machine.execGetPldmTypes x s
  | .getPldmCommands x => Sys2Proof.Machine.execGetPldmCommands x s
  | .setEventReceiver x => Sys2Proof.Machine.execSetEventReceiver x s
  | .getEventReceiver x => Sys2Proof.Machine.execGetEventReceiver x s
  | .pollForPlatformEventMessage x => Sys2Proof.Machine.execPollForPlatformEventMessage x s
  | .getSensorReading x => Sys2Proof.Machine.execGetSensorReading x s
  | .getStateSensorReadings x => Sys2Proof.Machine.execGetStateSensorReadings x s
  | .getPdrRepositoryInfo x => Sys2Proof.Machine.execGetPdrRepositoryInfo x s
  | .getPdr x => Sys2Proof.Machine.execGetPdr x s
  | .getFruRecordTableMetadata x => Sys2Proof.Machine.execGetFruRecordTableMetadata x s
  | .getFruRecordTable x => Sys2Proof.Machine.execGetFruRecordTable x s
  | .queryDeviceIdentifiers x => Sys2Proof.Machine.execQueryDeviceIdentifiers x s
  | .getFirmwareParameters x => Sys2Proof.Machine.execGetFirmwareParameters x s
  | .requestUpdate x => Sys2Proof.Machine.execRequestUpdate x s
  | .passComponentTable x => Sys2Proof.Machine.execPassComponentTable x s
  | .updateComponent x => Sys2Proof.Machine.execUpdateComponent x s
  | .activateFirmware x => Sys2Proof.Machine.execActivateFirmware x s
  | .getStatus x => Sys2Proof.Machine.execGetStatus x s
  | .cancelUpdateComponent x => Sys2Proof.Machine.execCancelUpdateComponent x s
  | .cancelUpdate x => Sys2Proof.Machine.execCancelUpdate x s
  | .todArm x => Sys2Proof.Machine.execTodArm x s
  | .modelKeySet x => Sys2Proof.Machine.execModelKeySet x s
  | .modelKeyClear x => Sys2Proof.Machine.execModelKeyClear x s
  | .hotswapLogRead x => Sys2Proof.Machine.execHotswapLogRead x s
  | .autoRetry x => Sys2Proof.Machine.execAutoRetry x s
  | .bypass x => Sys2Proof.Machine.execBypass x s
  | .idcode x => Sys2Proof.Machine.execIdcode x s
  | .samplePreload x => Sys2Proof.Machine.execSamplePreload x s
  | .extest x => Sys2Proof.Machine.execExtest x s
  | .gapWrite x => Sys2Proof.Machine.execGapWrite x s
  | .eventsLost x => Sys2Proof.Machine.execEventsLost x s
  | .measurementWindow x => Sys2Proof.Machine.execMeasurementWindow x s
  | .equalisationRetune x => Sys2Proof.Machine.execEqualisationRetune x s
  | .railOutOfRegulation => Sys2Proof.Machine.execRailOutOfRegulation s
  | .assayLockstepMismatch => Sys2Proof.Machine.execAssayLockstepMismatch s

end Sys2Proof.Machine
end

