-- ==== Sys2Proof/Safety.lean ====
section
/-! DEFINITION. What counts as a safe run, and the terms in which claims speak of a step: how a ring command is completed, what
stays as it was, and the invariants that no step may break. -/

namespace Sys2Proof.Machine

/-! ### A ring command's completion (06_rings_commands.md, R226, R227) -/

/-- R226: with SIGNAL set, the function's clasp that DONE_CLASP names is 1 higher, whatever the status. -/
def signalled (h : CmdHead) (cs : List Clasp) : List Clasp :=
  if headSignal h then
    cs.map (fun c => if c.id = h.doneClasp.toNat % 8192 ∧ c.fn = h.fn ∧ c.value + 1 < 2 ^ 64
      then { c with value := c.value + 1, changed := true } else c)
  else cs

/-- R226: the completion of command `h`, on the completion ring paired with its ring; none where its ring has none. -/
def answers (s : State) (h : CmdHead) (b : Completion) (clasp : Option Nat) : List PendingCompletion :=
  ((s.answerRing h none).map (fun r => { fn := h.fn, ring := r, body := b, clasp := clasp })).toList

/-- `t` is `s` after the one completion that command `h` gets (R226, Table 6.7), signal included, with the tick of the coming commit: it
joins the completions that the issue step writes, and nothing else changes. -/
def Completes (s t : State) (h : CmdHead) (opcode : Byte) (st : Status) (offset : Nat) (result : List Byte) : Prop :=
  ∃ (b : Completion) (clasp : Option Nat),
    t = { s with host := { s.host with
      clasps := signalled h s.host.clasps, completions := s.host.completions ++ answers s h b clasp } } ∧
    b.opcode = opcode ∧ b.commandId = h.commandId ∧ b.status = statusCode st ∧ b.sqSlot = h.slot ∧ b.fieldOffset = offset ∧
    b.tick = s.clk.tick + 1 ∧ b.result = fit 32 result

/-- The Work entry under which a ring command that came as a step of its own goes on (R225), from the coming commit. -/
def begun (s : State) (h : CmdHead) (opcode : Byte) (kind : WorkKind) : Work :=
  { head := h, opcode := opcode, pos := none, kind := kind, start := s.clk.tick + 1 }

/-- `t` is `s` once the work `w` has ended with answer `a`: it stands among what the coming commit completes (R207, R225). -/
def Ends (s t : State) (w : Work) (a : Answer) : Prop :=
  t.host.works = s.host.works.erase w ∧ t.host.ending = s.host.ending ++ [(w, a)]

/-- The conditions under which a ring command's own preconditions decide (R12, R177, R227): its function is sealed on a READY module, no
reserved bit is set, no field is out of range, the function may issue it, and its DONE_CLASP may be signalled. -/
def Admissible (s : State) (h : CmdHead) (c : RingCmd) : Prop :=
  s.takesCommands h.fn = true ∧ s.wireFault h c (rowReserved h c) = none ∧ s.headFault h = none

/-- The header and parameters of a ring command of Table 6.10; none for the other commands of the block. -/
def ringCommand (i : Instr) : Option (CmdHead × RingCmd) :=
  match i with
  | .tenantConfigure h p => some (h, .tenantConfigure p)
  | .partitionPlan h p => some (h, .partitionPlan p)
  | .queueCreate h p => some (h, .queueCreate p)
  | .queueDestroy h p => some (h, .queueDestroy p)
  | .modelLoad h p => some (h, .modelLoad p)
  | .modelUnload h p => some (h, .modelUnload p)
  | .streamOpen h p => some (h, .streamOpen p)
  | .streamClose h p => some (h, .streamClose p)
  | .streamModify h p => some (h, .streamModify p)
  | .streamMigrate h p => some (h, .streamMigrate p)
  | .tableWrite h p => some (h, .tableWrite p)
  | .claspCreate h p => some (h, .claspCreate p)
  | .claspSignal h p => some (h, .claspSignal p)
  | .claspDestroy h p => some (h, .claspDestroy p)
  | .calibrationPolicy h p => some (h, .calibrationPolicy p)
  | .sampleStart h p => some (h, .sampleStart p)
  | .sampleStop h p => some (h, .sampleStop p)
  | .timeSet h p => some (h, .timeSet p)
  | .fwDownloadChunk h p => some (h, .fwDownloadChunk p)
  | .fwVerify h p => some (h, .fwVerify p)
  | .fwActivate h p => some (h, .fwActivate p)
  | .fwConfirm h p => some (h, .fwConfirm p)
  | .auditRead h p => some (h, .auditRead p)
  | .nop h => some (h, .nop)
  | _ => none

/-! ### Events -/

/-- Function `f` holds, after the step, an event it did not hold before, of this code and raised at this tick (06:R242). -/
def Raised (s t : State) (f : Fn) (code tick : Nat) : Prop :=
  ∃ es : List Event, (t.fnSt f).eventHeld = (s.fnSt f).eventHeld ++ es ∧ ∃ e ∈ es, e.code = code ∧ e.tick = tick

/-! ### Invariants -/

/-- Every entry of a channel's write queue is one granule of 32 bytes, each with its enable, at a channel address of 32 bits
(13_memory_qos.md, R451). -/
def queueOk (wq : List WqEntry) : Prop :=
  ∀ e ∈ wq, e.data.length = 32 ∧ e.enables.length = 32 ∧ e.granule < 2 ^ 27

/-- Every memory the block holds is in its canonical form, DRAM and tile SRAM, and every write queue holds whole granules. -/
def State.memoryOk (s : State) : Prop :=
  Memory.wf s.dram.mem = true ∧ Memory.wf s.dram.sram = true ∧ ∀ c : Channel, queueOk (s.channel c).wq

/-- What a read of channel address `a` returns (13_memory_qos.md, R452): the write queue's byte where it has one, else DRAM's. -/
def State.dramByte (s : State) (c : Channel) (a : Nat) : Byte := readByte s.dram.mem (s.channel c).wq c a

/-- The two copies of the defect ledger agree and hold at most 4,096 entries (17_power_on_ready.md, R585). -/
def State.ledgerOk (s : State) : Prop := s.nor.ledger1 = s.nor.ledger0 ∧ s.nor.ledger0.length ≤ 4096

/-- No entry has left the ledger or changed its place (17_power_on_ready.md, R588): it begins with what it held. -/
def LedgerKept (s t : State) : Prop := s.nor.ledger0 <+: t.nor.ledger0

end Sys2Proof.Machine
end

