-- ==== Sys2Proof/Certificates/Slice0/Obligations.lean ====
section
/-! DEFINITION. The statements about the block that are to be proved (OBLIGATIONS.json lists them). -/

open Sys2Proof Sys2Proof.Machine

/-! ### The step -/

/-- A step of a state whose queue has command `c` in front is `exec c` on the state with the queue's rest; on an empty queue the
block idles (notes/assumptions/1.md, 2.md). -/
def Obligations.StepRunsFrontCommand : Prop :=
  (∀ (c : Instr) (q : List Instr) (s : State), step (s.withPending (c :: q)) = exec c (s.withPending q)) ∧
  (∀ (c : Instr) (q : List Instr) (s : State), s.pending = c :: q → step s = exec c { s with pending := q }) ∧
  ∀ s : State, s.pending = [] → step s = .next s

/-- No command stops the block: every one has a next state from every state (00_scope.md; every failure has an effect of its own), and
none touches the queue of waiting commands. -/
def Obligations.EveryCommandAnswersAndLeavesTheQueue : Prop :=
  ∀ (i : Instr) (s : State), ∃ t, exec i s = .next t ∧ t.pending = s.pending

/-- The tick counter moves at COMMIT alone and returns to 0 at a die start alone, which DIE_START and the boot ROM's watchdog (R576)
make: by R59 no reset, no PARTITION_PLAN and no other command changes it. -/
def Obligations.OnlyCommitAndDieStartMoveTheTick : Prop :=
  ∀ (i : Instr) (s t : State), (∀ x, i ≠ .commit x) → (∀ x, i ≠ .dieStart x) → i ≠ .bootRomWatchdog → exec i s = .next t →
    t.clk.tick = s.clk.tick

/-- From every state whose memories are in canonical form, a step leads to a state whose memories are. -/
def Obligations.MemoryStaysCanonical : Prop :=
  ∀ s t : State, s.memoryOk → step s = .next t → t.memoryOk

/-- From every state whose two ledger copies agree and hold at most 4,096 entries, a step leads to such a state, and the ledger still
begins with every entry it held: nothing removes, alters or reorders an entry (R588). The one exception is a bring-up that finds an entry
torn in both copies, which is lost (17_power_on_ready.md, When things collide). -/
def Obligations.LedgerOnlyGrows : Prop :=
  ∀ s t : State, s.ledgerOk → step s = .next t →
    t.ledgerOk ∧ ((∀ i q, s.pending = .bringUp i :: q → ∀ k, k ∈ i.torn0 → k ∉ i.torn1) → LedgerKept s t)

/-- What the spec gives for reset: tick 0 and FREE-RUN without time-of-day (R59, R106), one partition that holds every tenant (R33),
route-plan epoch 1 (R74), sample channels off (R54), every function unsealed with its set-up registers at 0 (Tables 5.7 to 5.9), no
queue, clasp, stream or model, STATE STARTING (R154), throttle step 0 and an empty command queue. It meets the invariants. -/
def Obligations.ResetState : Prop :=
  let s := State.reset
  s.clk.tick = 0 ∧ s.clk.devTime = 0 ∧ s.clk.mode = .freeRun ∧ s.clk.todValid = false ∧ s.clk.refValid = false ∧
  s.clk.ppsValid = false ∧ s.work.startMask = 1 ∧ partCount s.work.startMask = 1 ∧
  (∀ t : Tenant, (s.tenantSt t).partition = 0 ∧ (s.tenantSt t).configured = false ∧ (s.tenantSt t).quota = 1024) ∧
  s.work.routeEpoch = 1 ∧ s.host.sampleAllow = 0 ∧ s.host.autoRehome = false ∧
  (∀ f : Fn, (s.fnSt f).sealed = false ∧ (s.fnSt f).resetBusy = false ∧ (s.fnSt f).sealError = 0 ∧
    (s.fnSt f).adminSqBase = 0 ∧ (s.fnSt f).eventRingBase = 0 ∧ (s.fnSt f).hbEnable = false ∧ (s.fnSt f).eventSeq = 0) ∧
  s.host.queues = [] ∧ s.host.clasps = [] ∧ s.work.streams = [] ∧ s.work.models = [] ∧ s.pools.bufs = [] ∧
  s.safety.state = .starting ∧ s.safety.throttle = 0 ∧ s.safety.retired = [] ∧ s.mmc.autoRetry = false ∧ s.pending = [] ∧
  s.memoryOk ∧ s.ledgerOk

/-! ### COMMIT -/

/-- R55, R56: COMMIT takes a running die to the next tick; the tick that begins lasts its nominal length, corrected by at most 1,666 ns
while the PPS is valid and not at all while it is not, so between 1,665,000 and 1,668,333 ns; the nominal lengths repeat the pattern
1,666,667, 1,666,667, 1,666,666 ns and 600 of them last exactly one second. A FAILED module, and one whose boot ROM has not finished,
only keeps time at COMMIT, shows TELEMETRY_STALE where it is due (R158) and issues nothing (R543, R573); a die that does not run does
not tick. -/
def Obligations.CommitKeepsTime : Prop :=
  (∀ (i : CommitIn) (s : State), s.boot.running = true → ∃ t, exec (.commit i) s = .next t ∧
    t.clk.tick = s.clk.tick + 1 ∧ t.clk.twin = s.clk.twin + 1 ∧ t.clk.ocxoNs = s.clk.ocxoNs + s.clk.lastLen ∧
    ((t.clk.lastLen : Int) - nominalLen t.clk.tick).natAbs ≤ 1666 ∧
    1665000 ≤ t.clk.lastLen ∧ t.clk.lastLen ≤ 1668333 ∧
    (s.clk.ppsValid = false → t.clk.lastLen = nominalLen t.clk.tick)) ∧
  (∀ n : Nat, nominalLen (3 * n) = 1666667 ∧ nominalLen (3 * n + 1) = 1666667 ∧ nominalLen (3 * n + 2) = 1666666) ∧
  (∀ n : Nat, nominalNs (n + 600) = nominalNs n + 1000000000) ∧
  ∀ (i : CommitIn) (s : State),
    (s.boot.running = false → exec (.commit i) s = .next s) ∧
    (s.boot.running = true → s.safety.state = .failed ∨ s.boot.broughtUp = false →
      ∃ (c : Clock) (v : Vector HmView 17), exec (.commit i) s = .next { s with
          clk := c, host := { s.host with issue := [], ahead := [], views := v }, safety := { s.safety with stale := s.safety.staleNext } } ∧
        c.tick = s.clk.tick + 1 ∧ c.notes = [])

/-! ### Time (03_time_reference.md) -/

/-- R657, R111: what the time unit of a running die makes of a rising PPS edge, at the time of the frequency in use (R107), while the PPS is
valid and the 10 MHz, where the second measured it, is within 20 ppm. A pulse under 100 ns is ignored (R97). A deviation over 20 us
rejects the PPS. A deviation of at most 50 ns is accepted: it measures the phase error against the nearest whole second of device time
and predicts later edges. A first deviation between them is held and adjusts nothing; a third one within 50 ns of the two held is a phase
step and is accepted. No edge moves the tick, steps device time or changes the state (R99, R106), and nothing outside the time unit changes
where no time-of-day is armed. -/
def Obligations.PpsEdgeIsJudged : Prop :=
  ∀ (i : PpsIn) (s : State), s.boot.running = true → s.clk.armed = none →
    let run := s.clk.timed i.afterEdgeNs
    let after := s.clk.ocxoNs + run
    let dev := s.clk.deviation after
    (i.widthNs < 100 → exec (.ppsEdge i) s = .next s) ∧
    (100 ≤ i.widthNs → s.clk.ppsValid = true → (∀ d, i.ocxoPpb = some d → d.natAbs ≤ 20000) →
      ∃ c : Clock, exec (.ppsEdge i) s = .next { s with clk := c } ∧
      c.tick = s.clk.tick ∧ c.stepTotal = s.clk.stepTotal ∧ c.mode = s.clk.mode ∧ c.lastEdge = some after ∧
      (20000 < dev.natAbs → c.ppsValid = false ∧ c.held = [] ∧ c.lastAccepted = s.clk.lastAccepted ∧
        ∃ n ∈ c.notes, n.code = 0x0103) ∧
      (dev.natAbs ≤ 50 → c.ppsValid = true ∧ c.held = [] ∧ c.lastAccepted = some after ∧
        c.edgeErr = some (s.clk.devTimeAt run - nearestSecond (s.clk.devTimeAt run))) ∧
      (50 < dev.natAbs → dev.natAbs ≤ 20000 → s.clk.held = [] →
        c.ppsValid = true ∧ c.held = [dev] ∧ c.lastAccepted = s.clk.lastAccepted ∧ c.phaseErr = s.clk.phaseErr ∧
        c.edgeErr = s.clk.edgeErr) ∧
      (50 < dev.natAbs → dev.natAbs ≤ 20000 → s.clk.held.length = 2 → (∀ h ∈ s.clk.held, (dev - h).natAbs ≤ 50) →
        c.ppsValid = true ∧ c.held = [] ∧ c.lastAccepted = some after ∧ (∃ n ∈ c.notes, n.code = 0x0105 ∧ n.value = dev)))

/-- R112: while the PPS is not valid its edges only count, whatever the 10 MHz measurement of the second says; the third of three a second
apart (within 20 us) makes it valid and is accepted.
R98, R107, R112: a 1 s measurement while the PPS is absent. Within 20 ppm it counts, makes the reference valid at the third in a row
and is then the frequency device time runs at; outside 20 ppm it rejects a valid reference. -/
def Obligations.ReferencesQualify : Prop :=
  (∀ (i : PpsIn) (s : State), s.boot.running = true → s.clk.armed = none → 100 ≤ i.widthNs → s.clk.ppsValid = false →
    let after := s.clk.ocxoNs + s.clk.timed i.afterEdgeNs
    let spaced := ∃ e, s.clk.lastEdge = some e ∧ ((after : Int) - e - 1000000000).natAbs ≤ 20000
    ∃ c : Clock, exec (.ppsEdge i) s = .next { s with clk := c } ∧ c.lastEdge = some after ∧
      (¬ spaced → c.ppsValid = false ∧ c.ppsRun = 1 ∧ c.lastAccepted = s.clk.lastAccepted) ∧
      (spaced → s.clk.ppsRun < 2 → c.ppsValid = false ∧ c.ppsRun = s.clk.ppsRun + 1 ∧ c.phaseErr = s.clk.phaseErr) ∧
      (spaced → 2 ≤ s.clk.ppsRun → c.ppsValid = true ∧ c.lastAccepted = some after)) ∧
  (∀ (i : MeasureIn) (s : State), s.boot.running = true → s.clk.ppsValid = false →
    ∃ c : Clock, exec (.measurementWindow i) s = .next { s with clk := c } ∧ c.tick = s.clk.tick ∧ c.mode = s.clk.mode ∧
      (i.ocxoPpb.natAbs ≤ 20000 → s.clk.refValid = true ∨ 2 ≤ s.clk.refRun → c.refValid = true ∧ c.ppbInUse = i.ocxoPpb) ∧
      (i.ocxoPpb.natAbs ≤ 20000 → s.clk.refValid = false → s.clk.refRun < 2 →
        c.refValid = false ∧ c.refRun = s.clk.refRun + 1) ∧
      (20000 < i.ocxoPpb.natAbs → c.refValid = false ∧ c.refRun = 0))

/-- Table 3.2: a valid reference that is lost or rejected is valid no longer and its event is due; when the unit is LOCKED the state is
to be left at the next commit. A PPS lost or rejected, or a rate change of the 10 MHz, ends an open evaluation, each held edge with its
TIME_PPS_GLITCH (R111). A measurement that shows nothing wrong changes nothing; neither does anything outside the time unit. -/
def Obligations.ReferenceFaults : Prop :=
  ∀ s : State, s.boot.running = true →
    (∀ i : RefWindowIn,
      (16 ≤ i.edges → exec (.timeRefLoss10m i) s = .next s) ∧
      (i.edges < 16 → s.clk.refValid = true → ∃ c : Clock, exec (.timeRefLoss10m i) s = .next { s with clk := c } ∧
        c.refValid = false ∧ c.ppsValid = s.clk.ppsValid ∧ c.mode = s.clk.mode ∧ c.tick = s.clk.tick ∧
        c.notes = s.clk.notes ++ [{ code := 0x0101, value := 0 }] ∧ (s.clk.mode = .locked → c.leaveLocked = true))) ∧
    (∀ (i : AfterEdgeIn) (t : Nat), s.clk.lastNear = some t → s.clk.ppsValid = true →
      (s.clk.ocxoNs + s.clk.timed i.afterEdgeNs < t + 1000002000 → exec (.timeRefLossPps i) s = .next s) ∧
      (t + 1000002000 ≤ s.clk.ocxoNs + s.clk.timed i.afterEdgeNs →
        ∃ c : Clock, exec (.timeRefLossPps i) s = .next { s with clk := c } ∧
        c.ppsValid = false ∧ c.refValid = s.clk.refValid ∧ c.mode = s.clk.mode ∧ c.tick = s.clk.tick ∧ c.held = [] ∧
        c.notes = s.clk.notes ++ s.clk.held.map (fun d => { code := 0x0104, value := d }) ++ [{ code := 0x0102, value := 0 }] ∧
        (s.clk.mode = .locked → c.leaveLocked = true))) ∧
    (∀ ppb : Int, 20000 < ppb.natAbs → s.clk.refValid = true → ∃ c : Clock,
      exec (.timeRateReject (.tenMHz ppb)) s = .next { s with clk := c } ∧ c.refValid = false ∧ c.mode = s.clk.mode ∧ c.held = [] ∧
      c.notes = s.clk.notes ++ s.clk.held.map (fun d => { code := 0x0104, value := d }) ++ [{ code := 0x0103, value := 0 }] ∧
      (s.clk.mode = .locked → c.leaveLocked = true)) ∧
    (∀ dev : Int, 20000 < dev.natAbs → s.clk.ppsValid = true → ∃ c : Clock,
      exec (.timeRateReject (.pps dev)) s = .next { s with clk := c } ∧ c.ppsValid = false ∧ c.mode = s.clk.mode ∧ c.held = [] ∧
      c.notes = s.clk.notes ++ s.clk.held.map (fun d => { code := 0x0104, value := d }) ++ [{ code := 0x0103, value := 0 }] ∧
      (s.clk.mode = .locked → c.leaveLocked = true))

/-- Table 3.1, R105, R106, R114: TIME_HOLDOVER_EXPIRED notes that HOLDOVER will have lasted 600 s at the coming edge; the time-unit part of
that commit leads a unit that cannot lock into FREE-RUN, its uncertainty growing on from the u_dev that HOLDOVER had without the slewing
term (log entry 160), with the event on every sealed function. STEPPED is taken back at the commit 600 ticks after a step.
R103: when no PPS edge has come within 1.000002 s of an arming, the value is discarded: the SMBus request is answered with
NO_REFERENCE, or the TIME_SET ends so. Before that nothing happens. -/
def Obligations.TimeLimitsEnd : Prop :=
  (∀ (s : State) (t : Nat), s.boot.running = true → s.clk.mode = .holdover → s.clk.holdoverAt = some t →
    (s.clk.ocxoNs + s.clk.lastLen < t + 600000000000 → exec .timeHoldoverExpired s = .next s) ∧
    (t + 600000000000 ≤ s.clk.ocxoNs + s.clk.lastLen →
      exec .timeHoldoverExpired s = .next { s with clk := { s.clk with expired := true } })) ∧
  (∀ s : State, s.clk.mode = .holdover → s.clk.expired = true → s.clk.leaveLocked = false → s.clk.loaded = none → s.clk.lockable = false →
    let u := s.timeCommit
    u.clk.mode = .freeRun ∧ u.clk.tick = s.clk.tick ∧ u.clk.holdoverAt = none ∧
      (s.clk.todLoaded = true → ({ u.clk with phaseErr := 0 } : Clock).uDev = ({ s.clk with phaseErr := 0 } : Clock).uDev) ∧
      (∀ f : Fn, (s.fnSt f).sealed = true → Raised s u f 0x0107 s.clk.tick) ∧
      u.work = s.work ∧ u.dram = s.dram ∧ u.pools = s.pools ∧ u.nor = s.nor ∧ u.mmc = s.mmc ∧ u.power = s.power ∧
       u.pending = s.pending) ∧
  (∀ (s : State) (n : Nat), s.clk.steppedUntil = some n →
    (n ≤ s.clk.tick + 1 → exec .steppedClear s = .next { s with clk := { s.clk with steppedUntil := none } }) ∧
    (s.clk.tick + 1 < n → exec .steppedClear s = .next s)) ∧
  (∀ (i : AfterEdgeIn) (s : State) (a : Armed), s.clk.armed = some a →
    let now := s.clk.ocxoNs + s.clk.timed i.afterEdgeNs
    (now < a.atNs + 1000002000 → exec (.noReference i) s = .next s) ∧
    (a.atNs + 1000002000 ≤ now →
      (a.head = none → s.mmc.state = .serving → exec (.noReference i) s = .next { s with
        clk := { s.clk with armed := none },
        mmc := { s.mmc with response := some { smbus := true, msgType := 0x7E, command := 0x01, code := 4, data := [] } } }) ∧
      (∀ (h : CmdHead) (w : Work), a.head = some h → s.timeSetWork? (some h) = some w →
        exec (.noReference i) s = .next { s with
          clk := { s.clk with armed := none },
          host := { s.host with
            works := s.host.works.erase w, ending := s.host.ending ++ [(w, failWith .noReference)] } })))

/-- R100: TIME_SET from a VF completes with NOT_PERMITTED and changes nothing. R101: a value that is not a whole number of seconds
completes with INVALID_FIELD. R102, R104: an admissible TIME_SET arms its value at the edge of the coming commit and its completion waits;
it supersedes a time-of-day armed before: the SMBus request is answered so, or the TIME_SET that armed it completes so. -/
def Obligations.TimeSetArms : Prop :=
  ∀ (h : CmdHead) (p : TimeSetP) (s : State), s.takesCommands h.fn = true → rowReserved h (.timeSet p) = none →
    (h.fn ≠ pfFn → ∃ t, exec (.timeSet h p) s = .next t ∧ Completes s t h 0x80 .notPermitted 0 []) ∧
    (h.fn = pfFn → p.nextPpsTime.toNat % 1000000000 ≠ 0 →
      ∃ t, exec (.timeSet h p) s = .next t ∧ Completes s t h 0x80 .invalidField 8 []) ∧
    (h.fn = pfFn → p.nextPpsTime.toNat % 1000000000 = 0 → s.headFault h = none →
      let mine : Armed := { value := p.nextPpsTime.toNat, head := some h, atNs := s.clk.ocxoNs + s.clk.lastLen }
      (s.clk.armed = none → exec (.timeSet h p) s = .next { s with
        clk := { s.clk with armed := some mine },
        host := { s.host with works := s.host.works ++ [begun s h 0x80 .timeSet] } }) ∧
      (∀ a, s.clk.armed = some a → a.head = none → s.mmc.state = .serving → exec (.timeSet h p) s = .next { s with
        clk := { s.clk with armed := some mine },
        host := { s.host with works := s.host.works ++ [begun s h 0x80 .timeSet] },
        mmc := { s.mmc with response := some { smbus := true, msgType := 0x7E, command := 0x01, code := 5, data := [] } } }) ∧
      (∀ a g (w : Work), s.clk.armed = some a → a.head = some g → s.timeSetWork? (some g) = some w → w.pos = none →
        ∃ t v, exec (.timeSet h p) s = .next t ∧ Completes { s with host := { s.host with works := s.host.works.erase w } } v w.head w.opcode
            .superseded 0xFFFF [] ∧
          t = { v with clk := { s.clk with armed := some mine },
                       host := { v.host with works := v.host.works ++ [begun s h 0x80 .timeSet] } }))

/-! ### Completions of ring commands (06_rings_commands.md) -/

/-- R226, R227: NOP completes once, in the coming commit, and changes nothing else; with SIGNAL its DONE_CLASP advances by 1.
AUDIT_READ (R566): the audit's bytes are written to DEST, at the bus address its window gives, when BYTES holds them and the windows take
them, and their count is the RESULT; BYTES too small is INVALID_FIELD, an address no window takes ADDRESS_FAULT (R228). -/
def Obligations.NopAndAuditRead : Prop :=
  (∀ (h : CmdHead) (s : State), Admissible s h .nop → ∃ t, exec (.nop h) s = .next t ∧ Completes s t h 0xF0 .success 0xFFFF []) ∧
  (∀ (h : CmdHead) (p : AuditReadP) (s : State), Admissible s h (.auditRead p) →
    let bs := s.coming.auditBytes p.audit.toNat
    (p.bytes.toNat < bs.length → ∃ u, exec (.auditRead h p) s = .next u ∧ Completes s u h 0xA0 .invalidField 0x0C []) ∧
    (∀ a, bs.length ≤ p.bytes.toNat → s.translate h.fn p.dest.toNat bs.length true = some a →
      ∃ u, exec (.auditRead h p) s = .next u ∧
        Completes { s with host := { s.host with auditOut := s.host.auditOut ++ [.auditOut h.fn a bs] } } u h 0xA0
          .success 0xFFFF (le 4 bs.length)) ∧
    (bs.length ≤ p.bytes.toNat → s.translate h.fn p.dest.toNat bs.length true = none →
      ∃ u, exec (.auditRead h p) s = .next u ∧
        Completes (s.atNext (fun s => s.addressFault h.fn h.slot.toNat p.dest.toNat true)) u h 0xA0 .addressFault 0x10 []))

/-- R12, R226, R227, R234, R236: a ring command without effect, whatever its parameters. One that Table 6.10 gives the PF only and a VF issues
completes with NOT_PERMITTED; one with a field out of its range with INVALID_FIELD at that field's offset; one with a reserved bit set with
MALFORMED at its byte; of two such faults the one at the lower offset. Then one whose DONE_CLASP is not a clasp of its function completes with
NOT_FOUND, one that names an epoch-retirement clasp with NOT_PERMITTED. -/
def Obligations.FaultyCommandsHaveNoEffect : Prop :=
  ∀ (i : Instr) (h : CmdHead) (c : RingCmd) (s : State), ringCommand i = some (h, c) → s.takesCommands h.fn = true →
    let ends (st : Status) (off : Nat) : Prop := ∃ t, exec i s = .next t ∧ Completes s t h (opcodeOf c) st off []
    let sound : Prop := (pfOnly c = true → h.fn = pfFn) ∧ rangeFault h.fn (s.quotaOf h.fn) c = none
    (pfOnly c = true → h.fn ≠ pfFn → ends .notPermitted 0) ∧
    ((pfOnly c = true → h.fn = pfFn) → ∀ o, rangeFault h.fn (s.quotaOf h.fn) c = some o → (∀ r, rowReserved h c = some r → o < r) →
      ends .invalidField o) ∧
    (∀ r, rowReserved h c = some r → (pfOnly c = true → h.fn = pfFn) → (∀ o, rangeFault h.fn (s.quotaOf h.fn) c = some o → r ≤ o) →
      ends .malformed r) ∧
    (sound → rowReserved h c = none → headSignal h = true →
      (s.claspOf (h.doneClasp.toNat % 8192) = none → ends .notFound 4) ∧
      (∀ x, s.claspOf (h.doneClasp.toNat % 8192) = some x →
        (x.fn ≠ h.fn → ends .notFound 4) ∧ (x.fn = h.fn → x.retire = true → ends .notPermitted 4)))

/-! ### Tenants and partitions -/

/-- TENANT_CONFIGURE on a tenant number that exists (R39, R41, R72, R80, R202). A partition that does not exist is NOT_FOUND; a tenant with
an open stream or a loaded model is PARTITION_BUSY; a quota that leaves out a slot holding a queue is QUOTA_EXCEEDED. Otherwise the tenant
is mapped: the first time with table epoch 1 and a new epoch-retirement clasp of value 1, later with its clasp and epoch kept; RESULT holds
the clasp's ID. -/
def Obligations.TenantConfigureMaps : Prop :=
  ∀ (h : CmdHead) (p : TenantConfigureP) (s : State) (t : Tenant), Admissible s h (.tenantConfigure p) → p.tenant.toNat = t.val →
    let quota := if p.queueQuota = 0 then 1024 else p.queueQuota.toNat
    let part := p.partition.toNat
    let ends (st : Status) : Prop := ∃ u, exec (.tenantConfigure h p) s = .next u ∧ Completes s u h 0x01 st 0xFFFF []
    (partCount s.work.startMask ≤ part → ends .notFound) ∧
    (part < partCount s.work.startMask →
      ((∃ x ∈ s.work.streams, x.fn = fnOf t) ∨ (∃ m ∈ s.work.models, m.fn = fnOf t) → ends .partitionBusy) ∧
      ((∀ x ∈ s.work.streams, x.fn ≠ fnOf t) → (∀ m ∈ s.work.models, m.fn ≠ fnOf t) →
        ((∃ q ∈ s.host.queues, q.fn = fnOf t ∧ quota ≤ q.slot) → ends .quotaExceeded) ∧
        ((∀ q ∈ s.host.queues, q.fn = fnOf t → q.slot < quota) →
          (∀ id, (s.tenantSt t).configured = true → (s.tenantSt t).retireClasp = some id →
            ∃ u, exec (.tenantConfigure h p) s = .next u ∧
              Completes (s.modTenant t (fun x => { x with configured := true, partition := part, quota := quota })) u h 0x01
                .success 0xFFFF (le 2 id)) ∧
          (∀ id, (s.tenantSt t).configured = false → s.freeClasp = some id →
            let s' := s.modTenant t (fun x => { x with
              configured := true, partition := part, quota := quota, tableEpoch := 1, retireClasp := some id })
            ∃ u, exec (.tenantConfigure h p) s = .next u ∧
              Completes { s' with host := { s'.host with clasps := s.host.clasps ++
                [{ id := id, fn := fnOf t, value := 1, latched := 1, mirror := 0, threshold := none, vector := none,
                   retire := true, changed := false }] } } u h 0x01 .success 0xFFFF (le 2 id)))))

/-- PARTITION_PLAN (R40, R42, R43, R48, R74). A plan that would change the partition of a row that serves an open stream is
PARTITION_BUSY; one that leaves a partition without a usable control cluster UNIT_UNAVAILABLE; one under which a configured tenant's
first row begins no partition INVALID_STATE. Otherwise the route-plan epoch advances by 1 and is the RESULT, every tenant is in
the partition that holds the first row of its former one, and the changed rows drain from the coming commit on. -/
def Obligations.PartitionPlanInstalls : Prop :=
  ∀ (h : CmdHead) (p : PartitionPlanP) (s : State), Admissible s h (.partitionPlan p) →
    let ends (st : Status) : Prop := ∃ u, exec (.partitionPlan h p) s = .next u ∧ Completes s u h 0x02 st 0xFFFF []
    (s.planBusy p.startMask = true → ends .partitionBusy) ∧
    (s.planBusy p.startMask = false → s.planLacksCluster p.startMask = true → ends .unitUnavailable) ∧
    (s.planBusy p.startMask = false → s.planLacksCluster p.startMask = false → s.planDropsTenant p.startMask = true →
      ends .invalidState) ∧
    (s.planBusy p.startMask = false → s.planLacksCluster p.startMask = false → s.planDropsTenant p.startMask = false →
      ∃ v u, exec (.partitionPlan h p) s = .next u ∧ Completes v u h 0x02 .success 0xFFFF (le 4 (s.work.routeEpoch + 1)) ∧
        v.work.startMask = p.startMask ∧ v.work.routeEpoch = s.work.routeEpoch + 1 ∧
        (∀ t : Tenant, (v.tenantSt t).partition = partOfRow p.startMask (partFirstRow s.work.startMask (s.tenantSt t).partition) ∧
          (v.tenantSt t).configured = (s.tenantSt t).configured ∧ (v.tenantSt t).tableEpoch = (s.tenantSt t).tableEpoch) ∧
        v.fab.draining = changedRows s.work.startMask p.startMask ∧ v.fab.planCommit = some (s.clk.tick + 1) ∧
        v.work.streams = s.work.streams ∧ v.work.models = s.work.models ∧ v.clk = s.clk ∧ v.host = s.host ∧ v.dram = s.dram ∧
        v.pools.bufs = s.pools.bufs ∧ v.chain = s.chain ∧ v.nor = s.nor ∧ v.mmc = s.mmc ∧ v.power = s.power)

/-! ### Queues and clasps -/

/-- QUEUE_CREATE in its order of preconditions (Table 6.10, R199-R203, R228): a slot in use, a full quota, no queue ID, a completion ring
that is not there, an address no window takes. Otherwise the queue stands, empty, under the ID that is the RESULT. -/
def Obligations.QueueCreateMakesAnEmptyQueue : Prop :=
  ∀ (h : CmdHead) (p : QueueCreateP) (s : State), Admissible s h (.queueCreate p) →
    let slot := p.slot.toNat
    let writing := p.queueType != 1 && p.queueType != 2
    let ringReached := s.reaches h.fn p.base.toNat (64 * 2 ^ p.log2Entries.toNat) writing = true
    let ends (st : Status) : Prop := ∃ u, exec (.queueCreate h p) s = .next u ∧ Completes s u h 0x10 st 0xFFFF []
    ((s.queue? h.fn slot).isSome = true → ends .queueBusy) ∧
    (s.queue? h.fn slot = none →
      (s.quotaOf h.fn ≤ s.queueCount h.fn → ends .quotaExceeded) ∧
      (s.queueCount h.fn < s.quotaOf h.fn →
        (s.coming.freeId = none → ends .noResources) ∧
        (∀ id, s.coming.freeId = some id →
          (p.queueType = 2 → s.isCompletionRing h.fn p.pairedSlot.toNat = false → ends .notFound) ∧
          ((p.queueType = 2 → s.isCompletionRing h.fn p.pairedSlot.toNat = true) →
            (¬ ringReached → ∃ u, exec (.queueCreate h p) s = .next u ∧
              Completes (s.atNext (fun s => s.addressFault h.fn slot p.base.toNat writing)) u h 0x10 .addressFault 0x10 []) ∧
            (ringReached → p.indexAddr ≠ 0 → s.reaches h.fn p.indexAddr.toNat 8 true = false →
              ∃ u, exec (.queueCreate h p) s = .next u ∧
                Completes (s.atNext (fun s => s.addressFault h.fn slot p.indexAddr.toNat true)) u h 0x10 .addressFault 0x18 []) ∧
            (ringReached → (p.indexAddr = 0 ∨ s.reaches h.fn p.indexAddr.toNat 8 true = true) →
              ∃ (q : Queue) (u : State), exec (.queueCreate h p) s = .next u ∧
                Completes { s with host := { s.host with queues := s.host.queues ++ [q] } } u h 0x10 .success 0xFFFF (le 2 id) ∧
                q.fn = h.fn ∧ q.slot = slot ∧ q.id = id ∧ q.log2 = p.log2Entries.toNat ∧ q.base = p.base.toNat ∧
                q.indexAddr = p.indexAddr.toNat ∧ q.vector = vectorField p.msixVector ∧
                q.prod = 0 ∧ q.cons = 0 ∧ q.fetchPos = 0 ∧ q.stopped = false ∧ q.recordSeq = 0)))))

/-- QUEUE_DESTROY (R201): a slot that holds no queue is NOT_FOUND, one that is bound, or the command's own ring, QUEUE_BUSY. Otherwise the
queue is gone with the commands accepted from it, its ID is kept from use for 600 ticks, and no other queue changes but in the
completion slots that those commands had reserved. -/
def Obligations.QueueDestroyRemovesTheQueue : Prop :=
  ∀ (h : CmdHead) (p : SlotP) (s : State), Admissible s h (.queueDestroy p) →
    (s.queue? h.fn p.slot.toNat = none →
      ∃ u, exec (.queueDestroy h p) s = .next u ∧ Completes s u h 0x11 .notFound 0xFFFF []) ∧
    (∀ q, s.queue? h.fn p.slot.toNat = some q →
      (s.queueBound h.fn p.slot.toNat = true ∨ p.slot = h.slot →
        ∃ u, exec (.queueDestroy h p) s = .next u ∧ Completes s u h 0x11 .queueBusy 0xFFFF []) ∧
      (s.queueBound h.fn p.slot.toNat = false → p.slot ≠ h.slot →
        ∃ v u, exec (.queueDestroy h p) s = .next u ∧ Completes v u h 0x11 .success 0xFFFF [] ∧
          v = { s with host := { s.host with
            queues := v.host.queues, accepted := v.host.accepted, freedIds := v.host.freedIds } } ∧
          v.queue? h.fn p.slot.toNat = none ∧
          (∀ n, n ≤ s.clk.tick + 601 → ({ v with clk := { v.clk with tick := n } } : State).idTaken q.id = true) ∧
          v.host.accepted = s.host.accepted.filter (fun a => a.at_.queue != q.id) ∧
          ∀ x ∈ s.host.queues, ¬(x.fn = q.fn ∧ x.slot = q.slot) → ∃ y ∈ v.host.queues, y = { x with reserved := y.reserved } ∧
            ((∀ a ∈ s.host.accepted, a.at_.queue = q.id → a.at_.done ≠ x.id) → y = x)))

/-- Clasps (R234-R236): CLASP_CREATE gives the lowest free ID and its initial value, or NO_RESOURCES; ADD, MAX and ARM change the clasp they
name and no other, never lowering its value; ADD past 2^64 - 1 is CLASP_OVERFLOW; ADD and MAX on an epoch-retirement clasp, and CLASP_DESTROY
of it, are NOT_PERMITTED; a clasp of another function is NOT_FOUND; CLASP_DESTROY removes the clasp, but not one that a command under way
is to signal. -/
def Obligations.ClaspCommands : Prop :=
  (∀ (h : CmdHead) (p : ClaspCreateP) (s : State), Admissible s h (.claspCreate p) →
    (s.claspFits = false ∨ s.freeClasp = none →
      ∃ u, exec (.claspCreate h p) s = .next u ∧ Completes s u h 0x50 .noResources 0xFFFF []) ∧
    ∀ id, s.claspFits = true → s.freeClasp = some id → p.mirrorAddr = 0 ∨ s.reaches h.fn p.mirrorAddr.toNat 8 true = true →
      ∃ u, exec (.claspCreate h p) s = .next u ∧ Completes { s with host := { s.host with clasps := s.host.clasps ++
        [{ id := id, fn := h.fn, value := p.initial.toNat, latched := p.initial.toNat, mirror := p.mirrorAddr.toNat,
           threshold := if p.threshold = 0 then none else some p.threshold.toNat, vector := vectorField p.msixVector,
           retire := false, changed := false }] } } u h 0x50 .success 0xFFFF (le 2 id)) ∧
  (∀ (h : CmdHead) (p : ClaspSignalP) (s : State), Admissible s h (.claspSignal p) →
    let ends (st : Status) : Prop := ∃ u, exec (.claspSignal h p) s = .next u ∧ Completes s u h 0x51 st 0xFFFF []
    let becomes (c v : Clasp) : Prop := ∃ u, exec (.claspSignal h p) s = .next u ∧
      Completes (s.modClasp c.id (fun _ => v)) u h 0x51 .success 0xFFFF (le 8 v.value)
    (s.ownClasp? h.fn p.clasp.toNat = none → ends .notFound) ∧
    (∀ c, s.ownClasp? h.fn p.clasp.toNat = some c →
      (c.retire = true → p.op ≠ 2 → ends .notPermitted) ∧
      (c.retire = false → p.op = 0 → 2 ^ 64 ≤ c.value + p.value.toNat → ends .claspOverflow) ∧
      (c.retire = false → p.op = 0 → c.value + p.value.toNat < 2 ^ 64 →
        ∃ ch, becomes c { c with value := c.value + p.value.toNat, changed := ch }) ∧
      (c.retire = false → p.op = 1 → ∃ ch, becomes c { c with value := max c.value p.value.toNat, changed := ch }) ∧
      (p.op = 2 → p.mirrorAddr = 0 ∨ s.reaches h.fn p.mirrorAddr.toNat 8 true = true →
        becomes c { c with threshold := some p.value.toNat,
                           vector := if p.msixVector = 0xFFFF then c.vector else some p.msixVector.toNat,
                           mirror := if p.mirrorAddr = 0 then c.mirror else p.mirrorAddr.toNat }))) ∧
  (∀ (h : CmdHead) (p : ClaspP) (s : State), Admissible s h (.claspDestroy p) →
    let ends (st : Status) : Prop := ∃ u, exec (.claspDestroy h p) s = .next u ∧ Completes s u h 0x52 st 0xFFFF []
    (s.ownClasp? h.fn p.clasp.toNat = none → ends .notFound) ∧
    (∀ c, s.ownClasp? h.fn p.clasp.toNat = some c →
      (c.retire = true → ends .notPermitted) ∧
      (c.retire = false → s.claspAwaited h.fn c.id = true → ends .invalidState) ∧
      (c.retire = false → s.claspAwaited h.fn c.id = false → (headSignal h = true → h.doneClasp.toNat % 8192 ≠ c.id) →
        ∃ u, exec (.claspDestroy h p) s = .next u ∧
          Completes { s with host := { s.host with clasps := s.host.clasps.filter (fun x => x.id != c.id) } } u h 0x52
            .success 0xFFFF [])))

/-! ### Doorbells, acceptance and reads (06_rings_commands.md, 07_ingest_decode.md) -/

/-- Doorbells (R190, R212-R216, Tables 6.3 and 6.4). Before sealing or READY a doorbell only sets DB_DISCARDED. One that fails a check is
discarded and counted on its slot under the first failing check's code. One that passes them all moves the index that host software owns
to INDEX, counted modulo the ring's entries, and no other index; nothing outside the queue changes. -/
def Obligations.DoorbellMovesOneIndex : Prop :=
  ∀ (i : DoorbellIn) (s : State), i.poisoned = false → s.barOpen i.fn = true →
    let slot := i.slot.toNat
    let v := (doorbellValue i).getD i.value
    ((s.fnSt i.fn).sealed = false ∨ s.isReady = false →
      exec (.doorbell i) s = .next (s.modFn i.fn (fun x => { x with dbDiscarded := true }))) ∧
    ((s.fnSt i.fn).sealed = true → s.isReady = true →
      let rejected (code : Nat) : Prop := exec (.doorbell i) s = .next (s.modFn i.fn (fun x => x.reject slot code))
      (s.queue? i.fn slot = none → rejected 1) ∧
      (∀ q, s.queue? i.fn slot = some q →
        (s.quotaOf i.fn ≤ slot → rejected 1) ∧
        (slot < s.quotaOf i.fn → dbCheck v ≠ q.id → rejected 2) ∧
        (slot < s.quotaOf i.fn → dbCheck v = q.id → dbReserved v = true → rejected 3) ∧
        (slot < s.quotaOf i.fn → dbCheck v = q.id → dbReserved v = false →
          (q.entries ≤ dbIndex v → rejected 4) ∧
          (dbIndex v < q.entries → q.stopped = true → rejected 5) ∧
          (dbIndex v < q.entries → q.stopped = false → q.dbFits (dbIndex v) = false → rejected 6) ∧
          (dbIndex v < q.entries → q.stopped = false → q.dbFits (dbIndex v) = true → doorbellValue i = none → rejected 7) ∧
          (dbIndex v < q.entries → q.stopped = false → doorbellValue i = some v → q.hostProduced = true →
            ∀ n, n < q.entries → (q.prod + n) % q.entries = dbIndex v → q.prod + n - q.cons ≤ q.entries - 1 →
            ∃ g : Queue → Queue, exec (.doorbell i) s = .next (s.modQueue i.fn slot g) ∧ (g q).prod = q.prod + n ∧
              (g q).cons = q.cons ∧ (g q).id = q.id ∧ (g q).stopped = false ∧ (g q).fetchPos = q.fetchPos) ∧
          (dbIndex v < q.entries → q.stopped = false → doorbellValue i = some v → q.hostProduced = false →
            ∀ n, n < q.entries → (q.cons + n) % q.entries = dbIndex v → q.cons + n ≤ q.prod →
            ∃ g : Queue → Queue, exec (.doorbell i) s = .next (s.modQueue i.fn slot g) ∧ (g q).cons = q.cons + n ∧
              (g q).prod = q.prod ∧ (g q).id = q.id ∧ (g q).stopped = false))))

/-- COMMAND_ACCEPT (R69, R187, R221, R222, R224). The first fetched command of a live command ring joins the accepted ones, with a slot of its
completion ring reserved, to take effect at the next commit when at least 8 us remain before its edge and else at the one after; a
FENCE that waits, a completion ring without room, a source that may not be read yet and the 64 commands of the tick hold it back. -/
def Obligations.CommandAcceptTakesTheFirst : Prop :=
  ∀ (i : AcceptIn) (s : State) (q cq : Queue) (c : FetchedCmd), s.isReady = true → (s.fnSt i.fn).sealed = true →
    (s.fnSt i.fn).resetBusy = false → s.queue? i.fn i.slot.toNat = some q → q.stopped = false → q.qtype = .command →
    q.fetched = [c] → q.paired = some cq.slot → s.queue? i.fn cq.slot = some cq → s.queueId? cq.id = some cq → cq.id ≠ q.id →
    let waits := 64 ≤ (s.fnSt i.fn).acceptedNow ∨ cq.room ≤ cq.reserved + s.unwritten cq.id ∨ s.sourceReadable i.fn c.body = false ∨
      (headFence c.head = true ∧ s.fenceOpen q c.pos = false)
    (waits → exec (.commandAccept i) s = .next s) ∧
    (¬ waits → ∃ t b, exec (.commandAccept i) s = .next t ∧
      t.host.accepted = s.host.accepted ++
        [{ at_ := { queue := q.id, pos := c.pos, done := cq.id }, due := s.clk.tick + (if 8000 ≤ i.toEdgeNs then 1 else 2),
           head := c.head, opcode := c.opcode, body := b }] ∧
      (∃ q', t.queue? i.fn i.slot.toNat = some q' ∧ q'.fetched = [] ∧ q'.prod = q.prod ∧ q'.cons = q.cons) ∧
      (∃ c', t.queueId? cq.id = some c' ∧ c'.reserved = cq.reserved + 1) ∧
      (t.fnSt i.fn).acceptedNow = (s.fnSt i.fn).acceptedNow + 1 ∧
      t.work = s.work ∧ t.dram = s.dram ∧ t.pools = s.pools ∧ t.clk = s.clk ∧ t.host.completions = s.host.completions)

/-- Reads that the module has issued end (R174, R186, R231, R269, R270, R658). A command descriptor joins its ring's fetched commands; a
poisoned descriptor, or one that has no completion for as long as the PF's Completion Timeout Value allows, stops the ring, sets FETCH_ERROR
and raises FETCH_ERROR's event with the tick of the coming commit. Chunk data reach the pictures of the ring's stream; a poisoned or timed-out
chunk is lost with FETCH_ERROR, a late one is lost. With Completion Timeout Disable set, and before its time, nothing times out. -/
def Obligations.HostReadsEnd : Prop :=
  (∀ (f : Fn) (slot : BitVec 11) (seq : U64) (bs : List Byte) (s : State) (q : Queue), s.queue? f slot.toNat = some q →
    q.qtype = .command → s.fetches f q = true →
    let ref : ReadRef := { fn := f, slot := slot, kind := .descriptor, seq := seq }
    let stops (i : Instr) : Prop := ∃ t, exec i s = .next t ∧ (∃ q', t.queue? f slot.toNat = some q' ∧ q'.stopped = true) ∧
      (t.fnSt f).fetchError = true ∧ Raised s t f 0x0006 (s.clk.tick + 1) ∧ t.clk = s.clk ∧ t.work = s.work
    (exec (.hostReadCompletion { ref := ref, data := bs, poisoned := false }) s =
      .next (s.modQueue f slot.toNat (fun q => { q with
        fetchPos := q.fetchPos + 1,
        fetched := q.fetched ++
          [{ pos := q.fetchPos, head := parseHead f q.slot bs, opcode := BitVec.ofNat 8 (rd bs 0 1),
             body := parseCommand (fit 64 bs) [] }] }))) ∧
    stops (.hostReadCompletion { ref := ref, data := bs, poisoned := true }) ∧
    (s.host.timeoutDisable = false → ∀ n, timeoutNs s.host.timeoutValue ≤ n → stops (.completionTimeout ⟨ref, n⟩))) ∧
  (∀ (i : TimeoutIn) (s : State), s.host.timeoutDisable = true ∨ i.ageNs < timeoutNs s.host.timeoutValue →
    exec (.completionTimeout i) s = .next s) ∧
  (∀ (f : Fn) (slot : BitVec 11) (seq : U64) (k : Nat) (bs : List Byte) (s : State) (x : Stream),
    s.work.streams.find? (fun y => y.fn == f && y.ingestSlot == slot.toNat) = some x → s.isReady = true →
    (s.fnSt f).sealed = true →
    let ref : ReadRef := { fn := f, slot := slot, kind := .chunk k, seq := seq }
    let chunk (g : Chunk → Chunk) : State :=
      s.modStream x.handle (fun y => (y.onPending seq.toNat k g).onDecoding seq.toNat k g)
    let loses (i : Instr) : Prop := ∃ t, exec i s = .next t ∧ t.work = (chunk (Chunk.lose 5)).work ∧ (t.fnSt f).fetchError = true ∧
      t.clk = s.clk ∧ t.dram = s.dram ∧ t.pools = s.pools ∧ t.safety = s.safety ∧ t.host.queues = s.host.queues
    (∀ c, x.awaitedChunk? seq.toNat k = some c → s.limitsFetch x c.desc.length = false →
      exec (.hostReadCompletion { ref := ref, data := bs, poisoned := false }) s = .next (chunk (Chunk.receive bs))) ∧
    loses (.hostReadCompletion { ref := ref, data := bs, poisoned := true }) ∧
    (s.host.timeoutDisable = false → ∀ n, timeoutNs s.host.timeoutValue ≤ n → loses (.completionTimeout ⟨ref, n⟩)) ∧
    exec (.fetchLate ref) s = .next (s.modStream x.handle (fun y => y.onDecoding seq.toNat k (Chunk.lose 6))))

/-! ### Streams and their tables (07_ingest_decode.md) -/

/-- STREAM_OPEN in the order of Table 7.1: the rings, the model, the ranges, admission. An admitted stream takes the lowest free handle of its
class's range, starts at frame sequence 0 with one token counted from the coming commit (R92, R246, R268), and the handle is the RESULT. -/
def Obligations.StreamOpenAdmits : Prop :=
  ∀ (h : CmdHead) (p : StreamOpenP) (s : State), Admissible s h (.streamOpen p) →
    let ends (st : Status) (off : Nat) (r : List Byte) : Prop :=
      ∃ u, exec (.streamOpen h p) s = .next u ∧ Completes s u h 0x30 st off r
    (s.queueIs h.fn p.ingestSlot.toNat .ingest = false → ends .notFound 0xFFFF []) ∧
    (s.queueIs h.fn p.ingestSlot.toNat .ingest = true → s.ingestBound h.fn p.ingestSlot.toNat = true → ends .queueBusy 0xFFFF []) ∧
    (s.queueIs h.fn p.ingestSlot.toNat .ingest = true → s.ingestBound h.fn p.ingestSlot.toNat = false →
      (s.queueIs h.fn p.metadataSlot.toNat .metadata = false ∨ s.image? h.fn p.model.toNat = none → ends .notFound 0xFFFF []) ∧
      (s.queueIs h.fn p.metadataSlot.toNat .metadata = true →
        ∀ (t : Tenant) (m : ModelImage), tenantOf h.fn = some t → s.image? h.fn p.model.toNat = some m →
          (m.classifies = true → ends .invalidField 0x0C []) ∧
          (m.classifies = false → ∀ o, openRange p = some o → ends .invalidField o []) ∧
          (m.classifies = false → openRange p = none →
            (s.work.evacuating = true → ends .admissionRefused 0xFFFF (admissionRefused 0x01).result) ∧
            (s.work.evacuating = false →
              (∀ r, s.admitReason (s.loadsWithout none) (s.openProfile h.fn p) = some r →
                ends .admissionRefused 0xFFFF (admissionRefused r).result) ∧
              (s.admitReason (s.loadsWithout none) (s.openProfile h.fn p) = none →
                (s.coming.freeHandle t (classOf p.cls.toNat) = none → ends .admissionRefused 0xFFFF (admissionRefused 0x01).result) ∧
                ∀ n, s.coming.freeHandle t (classOf p.cls.toNat) = some n →
                  ∃ (x : Stream) (u : State), exec (.streamOpen h p) s = .next u ∧
                    Completes (s.addStream x) u h 0x30 .success 0xFFFF (le 2 n ++ le 2 0) ∧
                    x.handle = n ∧ x.fn = h.fn ∧ x.nextSeq = 0 ∧ x.tokens = 1 ∧ x.refillBase = s.clk.tick + 1 ∧ x.frames = [] ∧
                    x.waiting = [] ∧ x.openPic = none ∧ x.ingestSlot = p.ingestSlot.toNat ∧ x.metadataSlot = p.metadataSlot.toNat ∧
                    x.frameRate = p.frameRate.toNat ∧ x.width = p.width.toNat ∧ x.height = p.height.toNat)))))

/-- STREAM_CLOSE and STREAM_MODIFY (R250-R255, R259, R261). A handle the function does not own, or one already closing, is NOT_FOUND.
From the coming commit a closed stream starts nothing more, and its command goes on. STREAM_MODIFY changes the properties CHANGE names,
after admission where the class, the model or the rate changes, and touches the table epoch for a model change alone. -/
def Obligations.StreamsCloseAndChange : Prop :=
  (∀ (h : CmdHead) (p : HandleP) (s : State), Admissible s h (.streamClose p) →
    (s.liveStream? h.fn p.handle.toNat = none →
      ∃ u, exec (.streamClose h p) s = .next u ∧ Completes s u h 0x31 .notFound 0xFFFF []) ∧
    (∀ x, s.liveStream? h.fn p.handle.toNat = some x → ∃ u, exec (.streamClose h p) s = .next u ∧
      u = { s with work := { s.work with streams := u.work.streams }, pools := u.pools,
                   host := { s.host with works := s.host.works ++ [begun s h 0x31 (.streamClose x.handle)] } } ∧
      (∀ y ∈ u.work.streams, y.handle = x.handle → y.closing = true ∧ y.openPic = none ∧ y.waiting = []) ∧
      (∀ y ∈ s.work.streams, y.handle ≠ x.handle → y ∈ u.work.streams))) ∧
  (∀ (h : CmdHead) (p : StreamModifyP) (s : State), Admissible s h (.streamModify p) →
    let ends (v : State) (st : Status) (off : Nat) (r : List Byte) : Prop :=
      ∃ u, exec (.streamModify h p) s = .next u ∧ Completes v u h 0x32 st off r
    (s.liveStream? h.fn p.handle.toNat = none → ends s .notFound 0xFFFF []) ∧
    (∀ x, s.liveStream? h.fn p.handle.toNat = some x →
      let y := x.modify p (s.clk.tick + 1)
      let refused := s.admitReason (s.loadsWithout (some x.handle)) (s.profileOf y)
      let changed := s.modStream x.handle (fun _ => y)
      (p.change.getLsbD 1 = true → s.image? h.fn p.model.toNat = none → ends s .notFound 0xFFFF []) ∧
      (∀ m, p.change.getLsbD 1 = true → s.image? h.fn p.model.toNat = some m →
        (m.classifies = true → ends s .invalidField 0x0C []) ∧
        (m.classifies = false →
          (∀ r, refused = some r → ends s .admissionRefused 0xFFFF (admissionRefused r).result) ∧
          (refused = none → ends (changed.touchEpoch h.fn) .success 0xFFFF []))) ∧
      (p.change.getLsbD 1 = false →
        (∀ r, readmits p = true → refused = some r → ends s .admissionRefused 0xFFFF (admissionRefused r).result) ∧
        (readmits p = true → refused = none → ends changed .success 0xFFFF []) ∧
        (readmits p = false → ends changed .success 0xFFFF []))))

/-- The end of a stream and its tokens. R256: STREAM_CLOSE_COMPLETE notes that the last frame of a closing stream retires at the coming commit;
there the stream is removed, its handle rests for 600 ticks and its STREAM_CLOSE completes. R91, R92: TOKEN_REFILL adds a stream's next
token, 2 at most, when the coming commit is the one at which it falls due, and does nothing before it. -/
def Obligations.StreamsEndAndRefill : Prop :=
  (∀ (i : HandleP) (s : State), s.isReady = true →
    exec (.streamCloseComplete i) s = .next (s.modStream i.handle.toNat (fun x => { x with closeDue := x.closing }))) ∧
  (∀ (s : State) (x : Stream), s.work.streams.filter (fun y => y.closeDue && y.frames.isEmpty) = [x] →
    let u := s.endClosing
    u.stream? x.handle = none ∧
     (∀ n, n ≤ s.clk.tick + 600 → ({ u with clk := { u.clk with tick := n } } : State).handleTaken x.handle = true) ∧
    (∀ y ∈ s.work.streams, y.handle ≠ x.handle → y ∈ u.work.streams) ∧
    u.clk = s.clk ∧ u.dram = s.dram ∧ u.safety = s.safety ∧ u.chain = s.chain ∧
    ∀ w p, s.workOf? (.streamClose x.handle) = some w → w.pos = some p → ∃ c, u.host.completions = s.host.completions ++ [c] ∧
      c.ring = p.done ∧ c.body.commandId = w.head.commandId ∧ c.body.status = 0 ∧ c.body.tick = s.clk.tick) ∧
  (∀ (i : HandleP) (s : State) (x : Stream), s.stream? i.handle.toNat = some x → s.isReady = true →
    let due := x.refillBase + ceilDiv ((x.refillCount + 1) * 600000) (max 1 x.frameRate)
    (due ≤ s.clk.tick + 1 → exec (.tokenRefill i) s = .next (s.modStream x.handle (fun y =>
      { y with tokens := min 2 (y.tokens + 1), refillCount := y.refillCount + 1 }))) ∧
    (s.clk.tick + 1 < due → exec (.tokenRefill i) s = .next s))

/-- TABLE_WRITE (R659, R228, R72). A HANDLE or TABLE that step 1 refuses, a source no window takes, and bytes that fail steps 2 to 6
complete it without effect; sound bytes are stored in the table they are for, and tables 1 to 6 touch the tenant's epoch. -/
def Obligations.TableWriteChecksThenStores : Prop :=
  ∀ (h : CmdHead) (p : TableWriteP) (s : State), Admissible s h (.tableWrite p) →
    let ends (a : Answer) : Prop := ∃ u, exec (.tableWrite h p) s = .next u ∧ Completes s u h 0x40 a.status a.offset a.result
    (∀ a, s.tableTarget h.fn p = .error a → ends a) ∧
    (∀ x, s.tableTarget h.fn p = .ok x →
      (s.reaches h.fn p.source.toNat p.bytes.toNat false = false →
        ∃ u, exec (.tableWrite h p) s = .next u ∧
          Completes (s.atNext (fun s => s.addressFault h.fn 0xFFFF p.source.toNat false)) u h 0x40 .addressFault 0x10 []) ∧
      (s.reaches h.fn p.source.toNat p.bytes.toNat false = true →
        (∀ a, checkTable p.table.toNat p.bytes.toNat p.data = .error a → ends a) ∧
        (∀ c, checkTable p.table.toNat p.bytes.toNat p.data = .ok c →
          (∀ a, s.tableRules h.fn x c = some a → ends a) ∧
          (s.tableRules h.fn x c = none →
            ∃ v u, exec (.tableWrite h p) s = .next u ∧ Completes v u h 0x40 .success 0xFFFF (le 4 0xFFFFFFFF) ∧
              v = { s with work := { s.work with
                streams := v.work.streams, tenants := v.work.tenants, balance := v.work.balance } } ∧
              (∀ z ∈ s.work.streams, (∀ y, x = some y → z.handle ≠ y.handle) → z ∈ v.work.streams) ∧
              (∀ zs ls y, c = .zones zs ls → x = some y →
                ∀ z ∈ v.work.streams, z.handle = y.handle → z.zones = zs ∧ z.lines = ls) ∧
              (∀ rs y, c = .rules rs → x = some y → ∀ z ∈ v.work.streams, z.handle = y.handle → z.rules = rs) ∧
              (∀ es y, c = .binding es → x = some y → ∀ z ∈ v.work.streams, z.handle = y.handle → z.binding = es) ∧
              (∀ ts y, c = .subscribers ts → x = some y → ∀ z ∈ v.work.streams, z.handle = y.handle → z.subscribers = ts) ∧
              (∀ b y, c = .filter b → x = some y → ∀ z ∈ v.work.streams, z.handle = y.handle → z.filter = some b) ∧
              (∀ b, c = .balance b → v.work = { s.work with balance := b }) ∧
              (∀ r (t : Tenant), c = .format r → tenantOf h.fn = some t →
                (v.tenantSt t).format = r) ∧
              (∀ t : Tenant, tenantOf h.fn = some t → (∀ b, c ≠ .balance b) → (v.tenantSt t).epochTouched = true)))))

/-! ### Models, calibration and samples (09, 10, 08) -/

/-- MODEL_LOAD and MODEL_UNLOAD (R348, R349, R662, R228). An ID that stands is MODEL_BUSY, a package beyond the partition's free region
NO_RESOURCES, one that no window takes ADDRESS_FAULT; otherwise the model stands without an image, and the command goes on. A model that
is not there does not unload, nor does one that loads or is bound; another one is gone. -/
def Obligations.ModelsLoadAndUnload : Prop :=
  (∀ (h : CmdHead) (p : ModelLoadP) (s : State), Admissible s h (.modelLoad p) →
    ((s.model? h.fn p.model.toNat).isSome = true →
      ∃ u, exec (.modelLoad h p) s = .next u ∧ Completes s u h 0x20 .modelBusy 0xFFFF []) ∧
    (s.model? h.fn p.model.toNat = none →
      (s.freeRegion (s.partOf h.fn) < p.bytes.toNat →
        ∃ u, exec (.modelLoad h p) s = .next u ∧ Completes s u h 0x20 .noResources 0xFFFF []) ∧
      (p.bytes.toNat ≤ s.freeRegion (s.partOf h.fn) →
        (s.reaches h.fn p.package.toNat p.bytes.toNat false = false → ∃ u, exec (.modelLoad h p) s = .next u ∧
          Completes (s.atNext (fun s => s.addressFault h.fn 0xFFFF p.package.toNat false)) u h 0x20 .addressFault 0x10 []) ∧
        (s.reaches h.fn p.package.toNat p.bytes.toNat false = true → ∃ m : Model, exec (.modelLoad h p) s = .next { s with
            work := { s.work with models := s.work.models ++ [m] },
            host := { s.host with works := s.host.works ++ [begun s h 0x20 (.modelLoad p.model p.bytes.toNat)] } } ∧
          m.fn = h.fn ∧ m.id = p.model.toNat ∧ m.image = none ∧ m.packageBytes = p.bytes.toNat ∧ m.policy = CalPolicy.default)))) ∧
  (∀ (h : CmdHead) (p : ModelP) (s : State), Admissible s h (.modelUnload p) →
    (s.model? h.fn p.model.toNat = none →
      ∃ u, exec (.modelUnload h p) s = .next u ∧ Completes s u h 0x21 .notFound 0xFFFF []) ∧
    (∀ m, s.model? h.fn p.model.toNat = some m →
      (m.image = none ∨ s.modelBound h.fn m.id = true →
        ∃ u, exec (.modelUnload h p) s = .next u ∧ Completes s u h 0x21 .modelBusy 0xFFFF []) ∧
      (m.image ≠ none → s.modelBound h.fn m.id = false →
        ∃ u, exec (.modelUnload h p) s = .next u ∧
          Completes { s with work := { s.work with models := s.work.models.filter (fun x => !(x.fn == h.fn && x.id == m.id)) } } u h 0x21
            .success 0xFFFF [])))

/-- MODEL_LOAD_COMPLETE (R346-R348, R662): the package of a load under way has arrived. A package that fails a check is rejected with its reason, one
not signed under the tenant's key with SIGNATURE_INVALID, one whose resident image no longer fits with NO_RESOURCES, and the model is gone; a
sound one gives the model its image and quantization epoch 1. The command's work ends so, and the coming commit completes it. -/
def Obligations.ModelPackageArrives : Prop :=
  ∀ (i : ModelLoadedIn) (s : State) (w : Work) (bytes : Nat), s.host.works = [w] → w.head.fn = i.fn →
    w.kind = .modelLoad i.model bytes → s.isReady = true → s.mayIssue i.fn = true →
    let id := i.model.toNat
    let others := s.work.models.filter (fun m => !(m.fn == i.fn && m.id == id))
    let ends (models : List Model) (a : Answer) : Prop := exec (.modelLoadComplete i) s = .next { s with
      work := { s.work with models := models },
      host := { s.host with works := [], ending := s.host.ending ++ [(w, a)] } }
    let reason := packageReason i.package bytes
    (reason ≠ 0 → ends others (modelRejected reason)) ∧
    (reason = 0 → s.signatureBad i.fn i.package = true → ends others (failWith .signatureInvalid)) ∧
    (reason = 0 → s.signatureBad i.fn i.package = false → ∃ m : Model,
      m.fn = i.fn ∧ m.id = id ∧ m.image = some (parseImage i.package) ∧ m.qepoch = 1 ∧ m.policy = CalPolicy.default ∧
      ((s.dropModel i.fn id).freeRegion (s.partOf i.fn) < m.residentBytes → ends others (failWith .noResources)) ∧
      (m.residentBytes ≤ (s.dropModel i.fn id).freeRegion (s.partOf i.fn) →
        ends (s.work.models.map (fun x => if x.fn == i.fn && x.id == id then m else x)) (okWith (le 2 0 ++ le 2 0 ++ le 4 1))))

/-- CALIBRATION_POLICY and QUANT_RETUNE (R367-R369, R372, R373). A policy replaces a loaded model's, clears its window and, with MODE 2 and a
group moved, returns every d to 0 under a new quantization epoch. QUANT_RETUNE has the coming commit evaluate a loaded model: without
candidates nothing of it changes; otherwise d of the chosen groups only, at most 8, takes the values R369 gives, under the next epoch,
every counter clears and QUANT_RETUNE is raised on the function. -/
def Obligations.CalibrationAndRetune : Prop :=
  (∀ (h : CmdHead) (p : CalibrationP) (s : State), Admissible s h (.calibrationPolicy p) →
    (s.image? h.fn p.model.toNat = none →
      ∃ u, exec (.calibrationPolicy h p) s = .next u ∧ Completes s u h 0x60 .notFound 0xFFFF []) ∧
    (∀ m, s.model? h.fn p.model.toNat = some m → m.image ≠ none → (p.mode ≠ 2 ∨ ∀ g ∈ m.groups, g.d = 0) →
      ∃ (m' : Model) (u : State), exec (.calibrationPolicy h p) s = .next u ∧
        Completes (s.modModel h.fn m.id (fun _ => m')) u h 0x60 .success 0xFFFF [] ∧
        m'.policy = policyOf p ∧ m'.qepoch = m.qepoch ∧ m'.windowStart = s.clk.tick + 1 ∧ m'.image = m.image ∧
        m'.groups.map (·.d) = m.groups.map (·.d) ∧ ∀ g ∈ m'.groups, g.total = 0 ∧ g.clip = 0) ∧
    (∀ m, s.model? h.fn p.model.toNat = some m → m.image ≠ none → p.mode = 2 → (∃ g ∈ m.groups, g.d ≠ 0) →
      ∃ (m' : Model) (d : List Byte) (u : State), exec (.calibrationPolicy h p) s = .next u ∧
        Completes (s.atNext (fun s => (s.modModel h.fn m.id (fun _ => m')).raise h.fn 0x0202 d)) u h 0x60 .success 0xFFFF [] ∧
        m'.policy = policyOf p ∧ m'.qepoch = m.qepoch + 1 ∧ ∀ g ∈ m'.groups, g.d = 0 ∧ g.total = 0)) ∧
  (∀ (i : ModelRef) (s : State), s.isReady = true →
    (s.image? i.fn i.model.toNat = none → exec (.quantRetune i) s = .next s) ∧
    (s.image? i.fn i.model.toNat ≠ none →
      exec (.quantRetune i) s = .next { s with work := { s.work with retunes := s.work.retunes ++ [(i.fn, i.model.toNat)] } })) ∧
  (∀ (s : State) (f : Fn) (id : Nat) (m : Model), s.work.retunes = [(f, id)] → s.model? f id = some m →
    let s' := { s with work := { s.work with retunes := [] } }
    (m.candidates s.clk.tick = [] → s.takeRetunes = s') ∧
    (m.candidates s.clk.tick ≠ [] → ∃ (m' : Model) (d : List Byte),
      s.takeRetunes = (s'.modModel f m.id (fun _ => m')).raise f 0x0202 d ∧
      m'.qepoch = m.qepoch + 1 ∧ m'.windowStart = s.clk.tick ∧ m'.image = m.image ∧ m'.groups.length = m.groups.length ∧
      (m.candidates s.clk.tick).length ≤ 8 ∧ (∀ g ∈ m'.groups, g.total = 0 ∧ g.clip = 0) ∧
      ∀ (k : Nat) (g g' : ScaleGroup), m.groups[k]? = some g → m'.groups[k]? = some g' →
        ((∀ c ∈ m.candidates s.clk.tick, c.group ≠ k) → g'.d = g.d) ∧
        (g'.d ≠ g.d → ∃ c ∈ m.candidates s.clk.tick, c.group = k ∧ g'.d = c.want)))

/-- The sample channel (R54, R180, R313, R317, R318). A tenant not allowed is NOT_PERMITTED; a session stands on a sample ring that carries none,
four at most, with its counters at 0; SAMPLE_STOP ends it; SAMPLE_EPOCH_END notes that the coming commit is the last one of the session's epoch,
where the counters return to 0 and a summary is written if the ring has room. A write of SAMPLE_ALLOW reads back at once and takes effect at
the commit that R14 and R15 give. -/
def Obligations.SampleChannel : Prop :=
  (∀ (h : CmdHead) (p : SampleStartP) (s : State), Admissible s h (.sampleStart p) →
    (s.sampleAllowed h.fn = false →
      ∃ u, exec (.sampleStart h p) s = .next u ∧ Completes s u h 0x70 .notPermitted 0xFFFF []) ∧
    (∀ q, s.sampleAllowed h.fn = true → s.queue? h.fn p.sampleSlot.toNat = some q → q.qtype = .sample → p.stream = 0xFFFF →
      (s.session? h.fn p.sampleSlot.toNat ≠ none →
        ∃ u, exec (.sampleStart h p) s = .next u ∧ Completes s u h 0x70 .queueBusy 0xFFFF []) ∧
      (s.session? h.fn p.sampleSlot.toNat = none → 4 ≤ (s.work.sessions.filter (fun x => x.fn == h.fn)).length →
        ∃ u, exec (.sampleStart h p) s = .next u ∧ Completes s u h 0x70 .quotaExceeded 0xFFFF []) ∧
      (s.session? h.fn p.sampleSlot.toNat = none → (s.work.sessions.filter (fun x => x.fn == h.fn)).length < 4 →
        s.reaches h.fn p.dataBase.toNat (q.entries * slotBytes p.outWidth.toNat p.outHeight.toNat p.format.toNat) true = true →
        ∃ (x : Session) (u : State), exec (.sampleStart h p) s = .next u ∧
          Completes { s with work := { s.work with sessions := s.work.sessions ++ [x] } } u h 0x70 .success 0xFFFF [] ∧
          x.fn = h.fn ∧ x.slot = p.sampleSlot.toNat ∧ x.start = s.clk.tick + 1 ∧ x.epoch = 0 ∧ x.counter = 0 ∧ x.delivered = 0 ∧
          x.dropped = 0 ∧ x.epochTicks = p.epochTicks.toNat))) ∧
  (∀ (h : CmdHead) (p : SlotP) (s : State), Admissible s h (.sampleStop p) →
    (s.session? h.fn p.slot.toNat = none →
      ∃ u, exec (.sampleStop h p) s = .next u ∧ Completes s u h 0x71 .notFound 0xFFFF []) ∧
    (s.session? h.fn p.slot.toNat ≠ none → ∃ v u, exec (.sampleStop h p) s = .next u ∧ Completes v u h 0x71 .success 0xFFFF [] ∧
      v.session? h.fn p.slot.toNat = none ∧ v.work.streams = s.work.streams ∧ v.clk = s.clk ∧ v.dram = s.dram ∧
      v.safety = s.safety ∧ ∀ x ∈ s.work.sessions, ¬(x.fn = h.fn ∧ x.slot = p.slot.toNat) → x ∈ v.work.sessions)) ∧
  (∀ (i : RingIn) (s : State) (x : Session), s.isReady = true → s.work.sessions = [x] → x.fn = i.fn → x.slot = i.slot.toNat →
    (s.clk.tick + 1 < x.lastCommit → exec (.sampleEpochEnd i) s = .next s) ∧
    (x.lastCommit ≤ s.clk.tick + 1 → exec (.sampleEpochEnd i) s =
      .next { s with work := { s.work with sessions := [{ x with epochDue := true }] } })) ∧
  (∀ (s : State) (x : Session) (q : Queue), s.work.sessions = [x] → x.epochDue = true → x.lastCommit ≤ s.clk.tick →
    s.queue? x.fn x.slot = some q →
    s.endEpochs.work = { s.work with sessions :=
      [{ x with epoch := x.epoch + 1, counter := 0, delivered := 0, dropped := 0, epochDue := false }] } ∧
    (s.writable q = 0 → s.endEpochs.host = s.host) ∧
    (s.writable q ≠ 0 → ∃ a e, s.endEpochs.host.sampleOut = s.host.sampleOut ++ [.sample x.fn x.slot (q.prod % q.entries) a e] ∧
      e.type = 2 ∧ e.candidates = x.counter ∧ e.delivered = x.delivered ∧ e.dropped = x.dropped)) ∧
  (∀ (i : SampleAllowIn) (s : State), s.barOpen pfFn = true →
    exec (.sampleAllow i) s = .next { s with host := { s.host with
      sampleAllowWritten := i.value,
      sampleWrites := s.host.sampleWrites ++
        [{ value := i.value, due := s.clk.tick + (if 8000 ≤ i.toEdgeNs then 1 else 2) }] } })

/-! ### Firmware update and AUDIT_READ (19, 16) -/

/-- R631: FW_DOWNLOAD_CHUNK, FW_VERIFY, FW_ACTIVATE and FW_CONFIRM with a COMPONENT other than 2 and 3 complete with INVALID_FIELD. A firmware
update over the rings (R634-R645): each command needs the idle slot, or the running one, in the state before it, and is INVALID_STATE
otherwise; the download fills the idle slot and the running slot keeps its state and image until activation. -/
def Obligations.FirmwareCommandsFollowTheSlotStates : Prop :=
  (∀ (h : CmdHead) (s : State), s.takesCommands h.fn = true → h.fn = pfFn → h.flags.toNat < 4 → h.doneClasp.toNat < 0x2000 →
    (∀ p : FwChunkP, p.component ≠ 2 → p.component ≠ 3 →
      ∃ u, exec (.fwDownloadChunk h p) s = .next u ∧ Completes s u h 0x90 .invalidField 8 []) ∧
    (∀ p : ComponentP, p.component ≠ 2 → p.component ≠ 3 →
      (∃ u, exec (.fwVerify h p) s = .next u ∧ Completes s u h 0x91 .invalidField 8 []) ∧
      (∃ u, exec (.fwActivate h p) s = .next u ∧ Completes s u h 0x92 .invalidField 8 []) ∧
      (∃ u, exec (.fwConfirm h p) s = .next u ∧ Completes s u h 0x93 .invalidField 8 []))) ∧
  ∀ (h : CmdHead) (s : State),
    let works (op : Byte) (k : WorkKind) : State := { s with host := { s.host with works := s.host.works ++ [begun s h op k] } }
    (∀ p : FwChunkP, Admissible s h (.fwDownloadChunk p) →
      let x := s.fw p.component.toNat
      (slotSize p.component.toNat < p.offset.toNat + p.bytes.toNat →
        ∃ u, exec (.fwDownloadChunk h p) s = .next u ∧ Completes s u h 0x90 .invalidField 0x0C []) ∧
      (p.offset.toNat + p.bytes.toNat ≤ slotSize p.component.toNat → x.downloadBarred .ring = true →
        ∃ u, exec (.fwDownloadChunk h p) s = .next u ∧ Completes s u h 0x90 .invalidState 0xFFFF []) ∧
      (p.offset.toNat + p.bytes.toNat ≤ slotSize p.component.toNat → x.downloadBarred .ring = false → p.offset = 0 →
        chunkSizeOk p.bytes.toNat = true →
        ∃ u, exec (.fwDownloadChunk h p) s = .next u ∧ (u.fw p.component.toNat).idleSlot.state = .downloading ∧
          (u.fw p.component.toNat).idleSlot.image = fit p.bytes.toNat p.data ∧
          (u.fw p.component.toNat).idleSlot.nextOffset = (fit p.bytes.toNat p.data).length ∧
          (u.fw p.component.toNat).holder = some .ring ∧ (u.fw p.component.toNat).running = x.running ∧
          (x.running = 1 ∨ x.running = 2 → (u.fw p.component.toNat).slot x.running = x.slot x.running) ∧
          u = { works 0x90 (.fwChunk p.component.toNat) with nor := u.nor })) ∧
    (∀ p : ComponentP, Admissible s h (.fwVerify p) →
      let x := s.fw p.component.toNat
      let sound := x.holder ≠ some .pldm ∧ x.idleSlot.state = .downloaded ∧ rd x.idleSlot.image 4 1 = p.component.toNat
      (¬ sound → ∃ u, exec (.fwVerify h p) s = .next u ∧ Completes s u h 0x91 .invalidState 0xFFFF []) ∧
      (sound → exec (.fwVerify h p) s = .next (works 0x91 (.fwVerify p.component.toNat)))) ∧
    (∀ p : ComponentP, Admissible s h (.fwActivate p) →
      let x := s.fw p.component.toNat
      let sound := x.holder ≠ some .pldm ∧ x.idleSlot.state = .verified
      (¬ sound → ∃ u, exec (.fwActivate h p) s = .next u ∧ Completes s u h 0x92 .invalidState 0xFFFF []) ∧
      (sound → exec (.fwActivate h p) s = .next (works 0x92 (.fwActivate p.component.toNat)))) ∧
    (∀ p : ComponentP, Admissible s h (.fwConfirm p) →
      let x := s.fw p.component.toNat
      let sound := x.holder ≠ some .pldm ∧ (x.slot x.running).state = .trial
      (¬ sound → ∃ u, exec (.fwConfirm h p) s = .next u ∧ Completes s u h 0x93 .invalidState 0xFFFF []) ∧
      (sound → exec (.fwConfirm h p) s = .next (works 0x93 (.fwConfirm p.component.toNat))))

/-- The ends of firmware work (R635, R637, R639, R644, R645), for the one Work command under way on a component: a whole image with a
correct header is DOWNLOADED; a signature that holds makes it VERIFIED, one that fails REJECTED with SIGNATURE_INVALID; activation makes the
verified slot PENDING and the running one STANDBY under a record that names both, unconfirmed; confirmation makes the trial CONFIRMED. The
coming commit completes each (R207, R225, R226): it forms one completion and signals DONE_CLASP. A trial that AUTO_CONFIRM seconds have
passed for is confirmed with event FW_AUTO_CONFIRMED. -/
def Obligations.FirmwareWorkEnds : Prop :=
  (∀ (c : Byte) (s : State) (w : Work), c = 2 ∨ c = 3 → s.dead = false → s.fwWritable c.toNat = true → s.host.works = [w] →
    let x := s.fw c.toNat
    let done (t : State) (a : Answer) : Prop := Ends s t w a ∧ t.clk = s.clk ∧ t.work = s.work ∧ t.dram = s.dram
    (w.kind = .fwChunk c.toNat → x.idleSlot.state = .downloading → x.idleSlot.whole = true →
      ∃ t, exec (.fwChunkWritten ⟨c⟩) s = .next t ∧ done t ok ∧
        (headerOk x.idleSlot.image = true → (t.fw c.toNat).idleSlot.state = .downloaded) ∧
        (headerOk x.idleSlot.image = false → (t.fw c.toNat).idleSlot.state = .empty)) ∧
    (w.kind = .fwVerify c.toNat → x.idleSlot.state = .downloaded → x.running = 1 ∨ x.running = 2 →
      (signatureOk x.idleSlot.image = true → ∃ t, exec (.fwVerifyDone ⟨c⟩) s = .next t ∧ done t ok ∧
        (t.fw c.toNat).idleSlot.state = .verified ∧ (t.fw c.toNat).idleSlot.image = x.idleSlot.image) ∧
      (signatureOk x.idleSlot.image = false → ∃ t, exec (.fwVerifyDone ⟨c⟩) s = .next t ∧ done t (failWith .signatureInvalid) ∧
        (t.fw c.toNat).idleSlot.state = .rejected)) ∧
    (w.kind = .fwActivate c.toNat → x.idleSlot.state = .verified → x.running = 1 ∨ x.running = 2 →
      ∃ t, exec (.fwActivateDone ⟨c⟩) s = .next t ∧ done t ok ∧ (t.fw c.toNat).idleSlot.state = .pending ∧
        ((t.fw c.toNat).slot x.running).state = .standby ∧ (t.fw c.toNat).running = x.running ∧
        (∃ r, (t.fw c.toNat).ptr0 = some r ∧ (t.fw c.toNat).ptr1 = some r ∧ r.active = x.idle ∧ r.previous = x.running ∧
          r.confirmed = false ∧ r.trials = 0) ∧ (c = 3 → t.mmc.restartDue = true)) ∧
    (w.kind = .fwConfirm c.toNat → (x.slot x.running).state = .trial →
      ∃ t, exec (.fwConfirmDone ⟨c⟩) s = .next t ∧ done t ok ∧ ((t.fw c.toNat).slot x.running).state = .confirmed ∧
        ∀ r, x.record = some r → ∃ r', (t.fw c.toNat).ptr0 = some r' ∧ (t.fw c.toNat).ptr1 = some r' ∧ r'.confirmed = true ∧
          r'.active = r.active) ∧
    (s.isReady = true → x.autoDue (s.clk.tick + 1) = true →
      ∃ t, exec (.fwAutoConfirmed ⟨c⟩) s = .next t ∧ ((t.fw c.toNat).slot x.running).state = .confirmed ∧
        Raised s t pfFn 0x0702 (s.clk.tick + 1) ∧ t.clk = s.clk ∧ t.work = s.work ∧ t.host.works = s.host.works)) ∧
  (∀ (s : State) (w : Work) (a : Answer), s.host.ending = [(w, a)] → ∃ (b : Completion) (qs : List Queue),
    s.endWorks = { s with host := { s.host with
      ending := [], queues := qs, clasps := signalled w.head s.host.clasps,
      completions := s.host.completions ++ (match w.pos with
        | some p => [{ fn := w.head.fn, ring := p.done, body := b, clasp := a.clasp }]
        | none => answers s w.head b a.clasp) } } ∧
    b.opcode = w.opcode ∧ b.commandId = w.head.commandId ∧ b.status = statusCode a.status ∧ b.fieldOffset = a.offset ∧
    b.tick = s.clk.tick ∧ b.result = fit 32 a.result)

/-! ### Registers, sealing and resets (05_pcie_setup_registers.md) -/

/-- R16, R181: a write to an RWL field of a sealed function is discarded and recorded in FN_STATUS.RWL_VIOLATION of that function; a
write to a window of a tenant, locked from the sealing of its VF to the commit that begins its reset, is discarded and recorded in the PF,
because the PF made it. Nothing else changes, but that FN_CONTROL's SEAL bit, which is no RWL field, may ask for an examination. -/
def Obligations.LockedRegistersKeepTheirValues : Prop :=
  ∀ (i : RegWriteIn) (s : State), s.barOpen i.fn = true → i.poisoned = false →
    (i.size = 4 ∧ i.offset.toNat % 4 = 0 ∨ i.size = 8 ∧ i.offset.toNat % 8 = 0) →
    ((s.fnSt i.fn).sealed = true → i.offset.toNat ∈ [0x4018, 0x401C, 0x4020, 0x4028, 0x402C, 0x4030, 0x4034, 0x4038, 0x4040, 0x4044] →
      exec (.registerWrite i) s = .next (s.modFn i.fn (fun x => { x with rwlViolation := true }))) ∧
    ((s.fnSt i.fn).sealed = true → i.offset.toNat = 0x4010 →
      ∃ d, exec (.registerWrite i) s = .next (s.modFn i.fn (fun x => { x with rwlViolation := true, sealDue := d }))) ∧
    (i.fn = pfFn → ∀ t : Tenant, (s.fnSt (fnOf t)).windowLock = true → 0x6100 + 0x100 * t.val ≤ i.offset.toNat →
      i.offset.toNat < 0x6200 + 0x100 * t.val → i.offset.toNat % 0x20 < 0x1C →
      exec (.registerWrite i) s = .next (s.modFn pfFn (fun x => { x with rwlViolation := true })))

/-- REGISTER_WRITE on an unlocked field (R11, R13-R15, R123, R168, R169, Tables 5.6 to 5.11): each set-up and window register, and each MSI-X
entry, takes the value of its bits; a status bit clears where a 1 is written; SEAL asks for an examination, and SAMPLE_ALLOW changes, at
the commit whose edge is at least 8 us off. A poisoned write is logged alone (R186); an unaligned write, one of another size, one to the
Hallmark range and one to no block do nothing. A read (R124, R167-R169) gives what stands at an aligned offset, an RWC field as last
written, 0 beyond the Hallmark table and in no block, and 0 for any other size; none answers where the BAR does not decode. -/
def Obligations.RegisterWritesSetTheirFields : Prop :=
  (∀ (i : RegWriteIn) (s : State), s.barOpen i.fn = true →
    let due := s.clk.tick + if 8000 ≤ i.toEdgeNs then 1 else 2
    let v := i.value.toNat % 2 ^ 32
    let sets (g : FnState → FnState) : Prop := exec (.registerWrite i) s = .next (s.modFn i.fn g)
    (i.poisoned = true → exec (.registerWrite i) s = .next (s.logError i.fn aerPoisoned)) ∧
    (i.poisoned = false → (i.size ≠ 4 ∧ i.size ≠ 8) ∨ i.offset.toNat % i.size ≠ 0 ∨ i.offset.toNat + i.size ≤ 0x4000 ∨
      0x9000 ≤ i.offset.toNat → exec (.registerWrite i) s = .next s) ∧
    (i.poisoned = false → i.size = 4 →
      (i.offset = 0x4008 → sets (fun x => { x with
        rwlViolation := x.rwlViolation && !bitOf v 2, dbDiscarded := x.dbDiscarded && !bitOf v 3,
        addressFault := x.addressFault && !bitOf v 4, fetchError := x.fetchError && !bitOf v 5 })) ∧
      (i.fn = pfFn → i.offset = 0x6000 →
        exec (.registerWrite i) s = .next { s with host := { s.host with autoRehomeWritten := bitOf v 0 } }) ∧
      (i.fn = pfFn → i.offset = 0x6008 → exec (.registerWrite i) s = .next { s with host := { s.host with
        sampleAllowWritten := BitVec.ofNat 16 v,
        sampleWrites := s.host.sampleWrites ++ [{ value := BitVec.ofNat 16 v, due := due }] } }) ∧
      ((s.fnSt i.fn).sealed = false →
        (i.offset = 0x4010 → sets (fun x => { x with
          hbEnable := bitOf v 1, sealDue := if bitOf v 0 && x.sealDue.isNone then some due else x.sealDue })) ∧
        (i.offset = 0x4020 → sets (fun x => { x with adminRingSize := v % 32 })) ∧
        (i.offset = 0x4038 → sets (fun x => { x with eventRingSize := v % 32 })))) ∧
    (i.poisoned = false → i.size = 8 → (s.fnSt i.fn).sealed = false →
      (i.offset = 0x4018 → sets (fun x => { x with adminSqBase := i.value })) ∧
      (i.offset = 0x4028 → sets (fun x => { x with adminCqBase := i.value })) ∧
      (i.offset = 0x4030 → sets (fun x => { x with eventRingBase := i.value })) ∧
      (i.offset = 0x4040 → sets (fun x => { x with heartbeatAddr := i.value }))) ∧
    (i.poisoned = false → i.fn = pfFn → ∀ (t : Tenant) (w : Fin 8), s.windowsLocked t = false →
      let base := 0x6100 + 0x100 * t.val + 0x20 * w.val
      let k : Fin 128 := ⟨8 * t.val + w.val, by omega⟩
      let old := s.host.windows.get k
      let puts (new : Window) : Prop := exec (.registerWrite i) s =
        .next { s with host := { s.host with windows := s.host.windows.set k.val new } }
      (i.size = 8 → i.offset.toNat = base → puts { old with taBase := i.value.toNat % 2 ^ 48 / 4096 * 4096 }) ∧
      (i.size = 8 → i.offset.toNat = base + 0x08 → puts { old with size := i.value.toNat % 2 ^ 48 / 4096 * 4096 }) ∧
      (i.size = 8 → i.offset.toNat = base + 0x10 → puts { old with hostBase := i.value.toNat / 4096 * 4096 }) ∧
      (i.size = 4 → i.offset.toNat = base + 0x18 → puts { old with read := bitOf v 0, write := bitOf v 1 })) ∧
    (i.poisoned = false → i.size = 4 → ∀ n, n < vectorsOf i.fn →
      let e := (s.fnSt i.fn).msixOf n
      (i.offset.toNat = 0x8008 + 16 * n → sets (fun x => x.setMsix { e with data := i.value.setWidth 32 })) ∧
      (i.offset.toNat = 0x800C + 16 * n → bitOf v 0 = true → sets (fun x => x.setMsix { e with masked := true })) ∧
      (i.offset.toNat = 0x800C + 16 * n → bitOf v 0 = false → exec (.registerWrite i) s = exec (.msixUnmask ⟨i.fn, n⟩) s))) ∧
  (∀ (s : State) (f : Fn),
    (s.linkAnswers = false ∨ s.barDecodes f = false → ∀ off size, s.barRead f off size = none) ∧
    (s.linkAnswers = true → s.barDecodes f = true →
      let table := (s.host.views.get f).bytes (viewCode f)
      let reads (off v : Nat) : Prop := s.barRead f off 8 = some v
      (∀ off size, (size ≠ 4 ∧ size ≠ 8) ∨ off % size ≠ 0 → s.barRead f off size = some 0) ∧
      (∀ off, off % 8 = 0 → off < 0x4000 → reads off (rd table off 8) ∧ (table.length ≤ off → reads off 0)) ∧
      (reads 0x4018 (s.fnSt f).adminSqBase.toNat ∧ reads 0x4028 (s.fnSt f).adminCqBase.toNat ∧
        reads 0x4030 (s.fnSt f).eventRingBase.toNat ∧ reads 0x4040 (s.fnSt f).heartbeatAddr.toNat ∧ reads 0x5000 0 ∧ reads 0xA000 0) ∧
      (f = pfFn → reads 0x6000 (boolNat s.host.autoRehomeWritten) ∧ reads 0x6008 s.host.sampleAllowWritten.toNat ∧
        ∀ (t : Tenant) (w : Fin 8), reads (0x6100 + 0x100 * t.val + 0x20 * w.val) (s.window t w).taBase)))

/-- SEAL (R175, R176, Table 5.10): a request that is due at the coming commit goes to it. There the first failing check is the SEAL_ERROR of
a function that stays as it was, its SEAL cleared; when every check passes the function is sealed, with its admin queues, and its event
ring where it has one, empty under their reserved IDs. -/
def Obligations.SealExaminesTheRequest : Prop :=
  (∀ (i : FnIn) (s : State) (due : Nat), s.dead = false → (s.fnSt i.fn).resetBusy = false → (s.fnSt i.fn).sealDue = some due →
    (due ≤ s.clk.tick + 1 → exec (.sealRow i) s = .next (s.modFn i.fn (fun x => { x with sealNow := true }))) ∧
    (s.clk.tick + 1 < due → exec (.sealRow i) s = .next s)) ∧
  ∀ (f : Fn) (s : State), (s.fnSt f).sealNow = true → (s.fnSt f).sealed = false →
    let x := s.fnSt f
    let fails (code : Nat) : Prop :=
      s.takeSeal f = s.modFn f (fun y => { y with sealNow := false, sealDue := none, sealError := code })
    (s.isReady = false → fails 1) ∧
    (s.isReady = true → (∀ t : Tenant, f = fnOf t → (s.tenantSt t).configured = false → fails 2) ∧
      ((∀ t : Tenant, f = fnOf t → (s.tenantSt t).configured = true) →
        (x.adminRingSize < 6 ∨ 16 < x.adminRingSize ∨ x.adminSqBase.toNat % 4096 ≠ 0 ∨ x.adminCqBase.toNat % 4096 ≠ 0 → fails 3) ∧
        (6 ≤ x.adminRingSize → x.adminRingSize ≤ 16 → x.adminSqBase.toNat % 4096 = 0 → x.adminCqBase.toNat % 4096 = 0 →
          (x.eventRingBase ≠ 0 → x.eventRingBase.toNat % 4096 ≠ 0 ∨ x.eventRingSize < 6 ∨ 16 < x.eventRingSize → fails 4) ∧
          ((x.eventRingBase = 0 ∨ x.eventRingBase.toNat % 4096 = 0 ∧ 6 ≤ x.eventRingSize ∧ x.eventRingSize ≤ 16) →
            (x.hbEnable = true → x.heartbeatAddr.toNat % 32 ≠ 0 → fails 5) ∧
            ((x.hbEnable = true → x.heartbeatAddr.toNat % 32 = 0) →
              (∀ t : Tenant, f = fnOf t → windowsDisjoint (s.windowsOf t) = false → fails 6) ∧
              ((∀ t : Tenant, f = fnOf t → windowsDisjoint (s.windowsOf t) = true) →
                (f ≠ pfFn → s.reaches f x.adminSqBase.toNat (64 * 2 ^ x.adminRingSize) false = false ∨
                  s.reaches f x.adminCqBase.toNat (64 * 2 ^ x.adminRingSize) true = false → fails 7) ∧
                (f = pfFn ∨
                  s.reaches f x.adminSqBase.toNat (64 * 2 ^ x.adminRingSize) false = true ∧
                  s.reaches f x.adminCqBase.toNat (64 * 2 ^ x.adminRingSize) true = true ∧
                  (x.eventRingBase ≠ 0 → s.reaches f x.eventRingBase.toNat (64 * 2 ^ x.eventRingSize) true = true) ∧
                  (x.hbEnable = true → s.reaches f x.heartbeatAddr.toNat 32 true = true) →
                  let t := s.takeSeal f
                  (t.fnSt f).sealed = true ∧ (t.fnSt f).sealDue = none ∧ (t.fnSt f).sealError = 0 ∧
                    (t.fnSt f).adminSqBase = x.adminSqBase ∧ (∀ g, g ≠ f → t.fnSt g = s.fnSt g) ∧
                    t = { s with host := { s.host with fns := t.host.fns, queues := s.host.queues ++ x.adminQueues f } })))))))

/-- MSIX_UNMASK clears a vector's mask, and a message it had pending is owed to the next commit, its pending bit set until then (R173).
BUS_MASTER_ENABLE gives a function's configuration enables, and its other configuration registers where they are named, the values written,
and the messages pending on its unmasked vectors are owed (R187; log entry 34). A retraining that ends brings the link up and notes the
width and rate that the host ports' capacity follows from the next commit (R162). Widths, rates and vectors that do not exist change
nothing. -/
def Obligations.ConfigurationEventsTakeTheirValues : Prop :=
  (∀ (i : MsixUnmaskIn) (s : State), s.barOpen i.fn = true →
    let e := (s.fnSt i.fn).msixOf i.vector
    let u := s.modFn i.fn (fun x => x.setMsix { e with masked := false })
    (vectorsOf i.fn ≤ i.vector → exec (.msixUnmask i) s = .next s) ∧
    (i.vector < vectorsOf i.fn → e.masked = false ∨ e.pending = false → exec (.msixUnmask i) s = .next u) ∧
    (i.vector < vectorsOf i.fn → e.masked = true → e.pending = true → ∃ o, (i.fn, i.vector) ∈ o ∧
      exec (.msixUnmask i) s = .next { u with host := { u.host with owedMsix := o } })) ∧
  (∀ (i : BusMasterIn) (s : State), s.dead = false → s.boot.broughtUp = true → s.host.linkUp = true →
    ∃ t, exec (.busMasterEnable i) s = .next t ∧ t = { s with host := t.host } ∧ t.host.queues = s.host.queues ∧
      (t.fnSt i.fn).busMaster = i.enable ∧ (t.fnSt i.fn).memEnable = i.memory ∧ (t.fnSt i.fn).msixEnable = i.msix ∧
      (∀ f, f ≠ i.fn → t.fnSt f = s.fnSt f) ∧ t.host.vfEnable = (s.host.vfEnable || (i.fn != pfFn && i.memory)) ∧
      (i.config = none → t.host.timeoutValue = s.host.timeoutValue ∧ t.host.timeoutDisable = s.host.timeoutDisable ∧
        (t.fnSt i.fn).bar0 = (s.fnSt i.fn).bar0) ∧
      (∀ c, i.config = some c → (t.fnSt i.fn).bar0 = c.bar0 ∧ (t.fnSt i.fn).bar2 = c.bar2 ∧ (t.fnSt i.fn).aerMask = c.aerMask ∧
        (i.fn = pfFn → t.host.timeoutValue = c.timeoutValue ∧ t.host.timeoutDisable = c.timeoutDisable)) ∧
      (i.enable = true → i.msix = true → ∀ e ∈ (s.fnSt i.fn).msix, e.pending = true → e.masked = false →
        (i.fn, e.vector) ∈ t.host.owedMsix)) ∧
  (∀ (i : LinkTrainIn) (s : State), s.boot.running = true →
    (i.lanes ∈ [1, 2, 4, 8, 16] → i.rate10 ∈ [25, 50, 80, 160, 320] →
      exec (.linkRetraining i) s = .next { s with host := { s.host with linkUp := true, retrained := some (i.lanes, i.rate10) } }) ∧
    (i.lanes ∉ [1, 2, 4, 8, 16] ∨ i.rate10 ∉ [25, 50, 80, 160, 320] → exec (.linkRetraining i) s = .next s))

/-- The reset triggers (R188, R189, R190, R195). An FLR of a VF, the VF Enable cleared, an FLR of the PF, a hot reset, a link down and
the PF's entry into D3hot set RESET_BUSY at once, return the set-up registers of the functions they reset to their reset values and let the
module issue nothing more for them; a function whose reset is in progress is left as it is; nothing but the host side changes. -/
def Obligations.ResetTriggersActAtOnce : Prop :=
  ∀ s : State, s.pcieUsable = true →
    let cleared (t : State) (f : Fn) : Prop := (t.fnSt f).resetBusy = true ∧ t.mayIssue f = false ∧
      (t.fnSt f).sealed = false ∧ (t.fnSt f).sealDue = none ∧ (t.fnSt f).sealError = 0 ∧ (t.fnSt f).hbEnable = false ∧
      (t.fnSt f).adminSqBase = 0 ∧ (t.fnSt f).adminCqBase = 0 ∧ (t.fnSt f).adminRingSize = 0 ∧
      (t.fnSt f).eventRingBase = 0 ∧ (t.fnSt f).eventRingSize = 0 ∧ (t.fnSt f).heartbeatAddr = 0
    (∀ v : Tenant, ∃ t, exec (.flr ⟨fnOf v⟩) s = .next t ∧ t = { s with host := { s.host with fns := t.host.fns } } ∧
      (∀ f : Fn, f ≠ fnOf v → t.fnSt f = s.fnSt f) ∧
      ((s.fnSt (fnOf v)).resetBusy = true → t = s) ∧ ((s.fnSt (fnOf v)).resetBusy = false → cleared t (fnOf v))) ∧
    (∃ t, exec .vfEnableClear s = .next t ∧ t = { s with host := { s.host with fns := t.host.fns, vfEnable := false } } ∧
      t.fnSt pfFn = s.fnSt pfFn ∧
      ∀ v : Tenant, (s.fnSt (fnOf v)).resetBusy = false → cleared t (fnOf v)) ∧
    (∀ i : Instr, i = .flr ⟨pfFn⟩ ∨ i = .hotReset ∨ i = .pcieLinkDown ∨ i = .d3hotEntry → ∃ t, exec i s = .next t ∧
      t.host.linkUp = (s.host.linkUp && i != .pcieLinkDown) ∧ t = { s with host := t.host } ∧
      t.host.queues = s.host.queues ∧ t.host.accepted = s.host.accepted ∧
      ((s.fnSt pfFn).resetBusy = true → t = { s with host := { s.host with linkUp := t.host.linkUp } }) ∧
      ((s.fnSt pfFn).resetBusy = false → cleared t pfFn ∧ t.host.windows = Vector.replicate 128 Window.reset ∧
        t.host.sampleAllowWritten = 0 ∧ ∀ v : Tenant, (s.fnSt (fnOf v)).resetBusy = false → cleared t (fnOf v)))

/-- RESET_END (R192, R194, R196). A reset that a commit has begun ends at the coming one: RESET_BUSY clears, and nothing the reset handed to
scrubbing stays unreturned. The end of the PF's reset leaves one partition, which holds every tenant, ends every tenant's reset under way and
discards what TIME_SET armed; a tenant's own reset ends no earlier. With no reset begun nothing happens. R197: no reset changes the tick
counter, the time unit's state, the defect ledger or an RWS field (AUTO_REHOME): not its trigger, not the commit that begins it, not its
end, which may only discard what TIME_SET armed (R196). -/
def Obligations.ResetsEndAndKeepWhatIsSticky : Prop :=
  (∀ (t : Tenant) (c : Nat) (s : State), s.dead = false → (s.fnSt (fnOf t)).resetCommit = some c →
    ((s.fnSt pfFn).resetBusy = true → exec (.resetEnd ⟨fnOf t⟩) s = .next s) ∧
    ((s.fnSt pfFn).resetBusy = false → ∃ u, exec (.resetEnd ⟨fnOf t⟩) s = .next u ∧
      (u.fnSt (fnOf t)).resetBusy = false ∧ (u.fnSt (fnOf t)).resetCommit = none ∧ (u.fnSt (fnOf t)).scrubs = [] ∧
      (∀ b ∈ u.pools.bufs, b.owner = .scrub → bufKey b ∉ (s.fnSt (fnOf t)).scrubs) ∧
      u.clk = s.clk ∧ u.host.queues = s.host.queues ∧ u.work = s.work ∧ u.nor = s.nor ∧ u.chain = s.chain ∧
      u.mmc = s.mmc ∧ u.power = s.power)) ∧
  (∀ (c : Nat) (s : State), s.dead = false → (s.fnSt pfFn).resetCommit = some c →
    ∃ u, exec (.resetEnd ⟨pfFn⟩) s = .next u ∧ (u.fnSt pfFn).resetBusy = false ∧ (u.fnSt pfFn).resetCommit = none ∧
      u.work.startMask = 1 ∧ (∀ t : Tenant, (u.tenantSt t).partition = 0) ∧
      (∀ t : Tenant, (s.fnSt (fnOf t)).resetCommit ≠ none → (u.fnSt (fnOf t)).resetBusy = false) ∧
      (∀ a, u.clk.armed = some a → a.head = none) ∧ (∀ l, u.clk.loaded = some l → l.head = none) ∧
      u.host.queues = s.host.queues ∧ u.nor = s.nor ∧ u.chain = s.chain ∧ u.mmc = s.mmc ∧ u.power = s.power) ∧
  (∀ (i : FnIn) (s : State), (s.fnSt i.fn).resetCommit = none → exec (.resetEnd i) s = .next s) ∧
  (∀ s : State,
    let kept (t : State) : Prop := t.clk = { s.clk with armed := t.clk.armed, loaded := t.clk.loaded } ∧
      t.nor.ledger0 = s.nor.ledger0 ∧ t.nor.ledger1 = s.nor.ledger1 ∧
      t.host.autoRehome = s.host.autoRehome ∧ t.host.autoRehomeWritten = s.host.autoRehomeWritten
    (∀ i : Instr, (∃ f, i = .flr f) ∨ i = .vfEnableClear ∨ i = .hotReset ∨ i = .pcieLinkDown ∨ i = .d3hotEntry ∨
      (∃ f, i = .resetEnd f) → ∃ t, exec i s = .next t ∧ kept t) ∧
    kept s.beginResets ∧ s.beginResets.clk = s.clk)

/-! ### Buffer pools (12_buffer_pools.md) -/

/-- BUFFER_ALLOCATE (R412, R416-R418). A request no class holds, or one its pool's level refuses, takes nothing. Else the buffer taken is of
the smallest class that holds the request, in a row of the same partition, free before, not committed yet, and from the requesting
row when that has a free one, at its lowest free index; everything else stays.
BUFFER_RELEASE (R420, R421, R422, R414). A release that passes every check marks its buffer, which the commit frees, and there its
generation advances. One that fails leaves every buffer as it was, raises POOL_RELEASE_REJECTED with the first failing check's code on the
PF's event ring and reports a fault of the job. -/
def Obligations.BuffersAreAllocatedAndReleased : Prop :=
  (∀ (i : AllocIn) (s : State), s.dead = false →
    let p := partOfRow s.work.startMask i.row.val
    (33554432 < i.bytes.toNat → exec (.bufferAllocate i) s = .next s) ∧
    (∀ c, classFor i.bytes.toNat = some c →
      let allowed := poolAllows (s.level p c) i.owner i.cls i.job
      i.bytes.toNat ≤ bufferBytes c ∧ (∀ k, k < c → bufferBytes k < i.bytes.toNat) ∧
      (allowed = false ∨ (∀ r : Row, s.freeInRow r c = none) → exec (.bufferAllocate i) s = .next s) ∧
      (allowed = true → (∃ r : Row, partOfRow s.work.startMask r.val = p ∧ s.freeInRow r c ≠ none) →
        ∃ b : Buffer, exec (.bufferAllocate i) s = .next { s with pools := { s.pools with bufs := b :: s.pools.bufs } } ∧
          b.cls = c ∧ b.index < poolBuffers c ∧ partOfRow s.work.startMask b.row.val = p ∧ b.owner = i.owner ∧ b.since = none ∧
          b.releasing = false ∧ b.job = i.job ∧ (∀ x ∈ s.pools.bufs, bufKey x ≠ bufKey b) ∧
          ∀ k, s.freeInRow i.row c = some k → b.row = i.row ∧ b.index = k ∧
            ∀ j, j < k → ∃ x ∈ s.pools.bufs, bufKey x = (i.row.val, c, j)))) ∧
  (∀ (i : ReleaseIn) (s : State), s.dead = false →
    (∀ b, s.releaseCheck i = 0 → s.namedBuffer (partOfRow s.work.startMask i.row.val) i.handle.toNat = some b →
      ∃ bs, exec (.bufferRelease i) s = .next { s with pools := { s.pools with bufs := bs } } ∧
        bs.map bufKey = s.pools.bufs.map bufKey ∧ (∀ x ∈ bs, bufKey x = bufKey b → x.releasing = true ∧ x.releaser = i.job) ∧
        (∀ x ∈ s.pools.bufs, bufKey x ≠ bufKey b → x ∈ bs)) ∧
    (∀ code, s.releaseCheck i = code → code ≠ 0 →
      ∃ t, exec (.bufferRelease i) s = .next t ∧ t.pools = s.pools ∧ t.clk = s.clk ∧ t.dram = s.dram ∧ t.work = s.work ∧
        (∃ es, (t.fnSt pfFn).eventHeld = (s.fnSt pfFn).eventHeld ++ es ∧ ∃ e ∈ es, e.code = 0x0303 ∧ e.tick = s.clk.tick + 1 ∧
          e.detail.head? = some (BitVec.ofNat 8 code)) ∧
        ∃ n, t.safety = { s.safety with faults := s.safety.faults ++ [n] })) ∧
  (∀ (x : Pools) (tick : Nat) (discarded : Buffer → Bool) (withdrawn : FrameRef → Bool) (b : Buffer), x.bufs = [b] →
    b.releasing = true → b.owner ≠ .scrub → (∀ j, b.releaser = some j → withdrawn j = false) →
    (x.commit tick discarded withdrawn).bufs = [] ∧
    (x.commit tick discarded withdrawn).genOf b.row b.cls b.index = (x.genOf b.row b.cls b.index + 1) % 256)

/-- The leak audit, reclaim and zeroing (R192, R424, R431, R432). A stream's buffer that nothing has referred to for 5 ticks is marked suspect
once, with POOL_LEAK_SUSPECT, and not reclaimed. What a closed owner still holds 5 commits later goes to the scrub owner with
POOL_FORCED_RECLAIM, but what is being released. A zeroed buffer of the scrub owner reads 0 over its length and is released. -/
def Obligations.PoolsAuditAndReclaim : Prop :=
  (∀ (i : PoolBufIn) (s : State) (b : Buffer), s.bufByHandle i.partition i.handle.toNat = some b → s.isReady = true →
    isStreamOwner b.owner = true →
    (b.unreferenced < 5 ∨ b.suspect = true → exec (.poolLeakSuspect i) s = .next s) ∧
    (5 ≤ b.unreferenced → b.suspect = false → ∃ t, exec (.poolLeakSuspect i) s = .next t ∧
      (∀ x ∈ t.pools.bufs, bufKey x = bufKey b → x.suspect = true) ∧ t.pools.bufs.map (·.owner) = s.pools.bufs.map (·.owner) ∧
      Raised s t pfFn 0x0301 (s.clk.tick + 1) ∧ t.clk = s.clk ∧ t.work = s.work ∧ t.dram = s.dram)) ∧
  (∀ (i : ReclaimIn) (s : State) (c : ClosedOwner), s.dead = false → s.pools.closed = [c] → c.partition = i.partition → c.owner = i.owner →
    (s.clk.tick + 1 < c.commit + 5 → exec (.poolForcedReclaim i) s = .next s) ∧
    (c.commit + 5 ≤ s.clk.tick + 1 → ∃ t, exec (.poolForcedReclaim i) s = .next t ∧ t.pools.closed = [] ∧
      t.pools.bufs.map bufKey = s.pools.bufs.map bufKey ∧
      (∀ (k : Nat) (b b' : Buffer), s.pools.bufs[k]? = some b → t.pools.bufs[k]? = some b' →
        let reclaimed := b.heldBy s.work.startMask c.partition c.owner c.session && !b.releasing
        b' = if reclaimed then { b with owner := .scrub, session := none } else b) ∧
      ((∃ b ∈ s.pools.bufs, b.heldBy s.work.startMask c.partition c.owner c.session = true ∧ b.releasing = false) →
        Raised s t pfFn 0x0302 (s.clk.tick + 1)) ∧ t.clk = s.clk ∧ t.work = s.work ∧ t.dram = s.dram)) ∧
  (∀ (i : PoolBufIn) (s : State) (b : Buffer), s.dead = false → s.bufByHandle i.partition i.handle.toNat = some b → b.owner = .scrub →
    ∃ t, exec (.zeroingComplete i) s = .next t ∧ (∀ x ∈ t.pools.bufs, bufKey x = bufKey b → x.releasing = true) ∧
      (∀ k a off, s.mapOffset b.row off = some (k, a) → off < s.rowSize b.row → poolBase b.cls + b.index * bufferBytes b.cls ≤ off →
        off < poolBase b.cls + (b.index + 1) * bufferBytes b.cls → t.dramByte k a = 0) ∧
      t.clk = s.clk ∧ t.work = s.work ∧ t.host = s.host ∧ t.dram.sram = s.dram.sram)

/-! ### Memory nodes (13_memory_qos.md) -/

/-- DRAM_REQUEST, refused (R440, R438, R507): an address that names nothing, a row other than the node's or of another partition, a byte at or
above the row's usable size. The request changes nothing else, and the requesting unit reports a fault of its job.
DRAM_REQUEST, a read within one 256 B block of the row (R451-R453), and an access to tile SRAM (R480). A read that the write queue covers is
answered at once and charged its data bytes; another waits at its channel. SRAM is read and written at once. -/
def Obligations.RequestsAreRefusedOrServed : Prop :=
  (∀ (i : DramReqIn) (s : State), s.dead = false →
    s.portOpen i = false ∨ s.devTarget i.address = .nothing ∨
    (∃ row off, s.devTarget i.address = .dram row off ∧
      (row ≠ i.row.val ∨ (i.port ≠ 7 ∧ partOfRow s.work.startMask row ≠ i.partition) ∨ s.rowSize i.row ≤ off ∨
        s.rowSize i.row < off + reqSize i)) →
    ∃ n, exec (.dramRequest i) s = .next { s with
      dram := { s.dram with refused := s.dram.refused + 1 }, safety := { s.safety with faults := s.safety.faults ++ [n] } } ∧
      n.cls = none) ∧
  ((∀ (i : DramReqIn) (s : State) (off : Nat) (c : Channel) (a : Nat), s.dead = false → s.portOpen i = true → i.write = false →
    s.devTarget i.address = .dram i.row.val off → (i.port = 7 ∨ partOfRow s.work.startMask i.row.val = i.partition) →
    off + i.bytes ≤ s.rowSize i.row → s.mapOffset i.row off = some (c, a) → 0 < i.bytes → off % 256 + i.bytes ≤ 256 →
    (wqCovers (s.channel c).wq a i.bytes = true →
      ∃ t, exec (.dramRequest i) s = .next t ∧ t = { s with dram := { s.dram with
        nextSeq := s.dram.nextSeq + 1, ports := t.dram.ports,
        replies := { seq := s.dram.nextSeq, port := i.port.val, data := (List.range i.bytes).map (fun k => s.dramByte c (a + k)),
                     poisoned := false } :: s.dram.replies } } ∧
        t.dram.ports.get (portIndex i.row i.port) = (s.dram.ports.get (portIndex i.row i.port)).charge i.bytes) ∧
    (wqCovers (s.channel c).wq a i.bytes = false →
      exec (.dramRequest i) s = .next (State.modChannel { s with dram := { s.dram with nextSeq := s.dram.nextSeq + 1 } } c
        (fun x => { x with reqs := x.reqs ++
          [{ seq := s.dram.nextSeq, port := i.port.val, write := false, addr := a, bytes := i.bytes, raw := rawCost a i.bytes,
             deadline := i.deadline.toNat, job := i.job }] })))) ∧
  (∀ (i : DramReqIn) (s : State) (tile addr : Nat), s.dead = false → s.memoryOk → s.portOpen i = true →
    s.devTarget i.address = .sram tile addr → (i.port = 7 ∨ partOfRow s.work.startMask (tile / 2) = i.partition) →
    let key := tile * 2 ^ 23 + addr
    (s.available .facetTile tile = true → addr + reqSize i ≤ 2 ^ 23 →
      (i.write = false → exec (.dramRequest i) s = .next { s with dram := { s.dram with
        nextSeq := s.dram.nextSeq + 1,
        replies := { seq := s.dram.nextSeq, port := i.port.val, data := Memory.read s.dram.sram key i.bytes, poisoned := false } ::
          s.dram.replies } }) ∧
      (i.write = true → ∃ m, exec (.dramRequest i) s = .next { s with dram := { s.dram with sram := m } } ∧
        (∀ k, k < i.data.length → Memory.get m (key + k) =
          if nth true i.enables k then nth 0 i.data k else Memory.get s.dram.sram (key + k)) ∧
        (∀ k, k < key ∨ key + i.data.length ≤ k → Memory.get m k = Memory.get s.dram.sram k))) ∧
    (s.available .facetTile tile = false → ∃ t n, exec (.dramRequest i) s = .next t ∧ t.dram.sram = s.dram.sram ∧
      t.safety = { s.safety with faults := s.safety.faults ++ [n] })))

/-- DRAM_REQUEST, a write within the row (R441, R443, R451, R452, R455). It waits while a write queue of the row has no entry for one of its
granules. Once accepted, every byte it enables reads as written, at the channel address of its row offset; every other byte of
every channel reads as before, and nothing but write queues and port accounts changes. -/
def Obligations.AcceptedWritesAreRead : Prop :=
  ∀ (i : DramReqIn) (s : State) (off : Nat), s.dead = false → s.memoryOk → s.portOpen i = true → i.write = true →
    s.devTarget i.address = .dram i.row.val off → (i.port = 7 ∨ partOfRow s.work.startMask i.row.val = i.partition) →
    off < s.rowSize i.row → off + i.data.length ≤ s.rowSize i.row →
    let ps := pieces i.data.length off i.data.length
    (s.writeFits i ps = false → exec (.dramRequest i) s = .next s) ∧
    (s.writeFits i ps = true → ∃ t, exec (.dramRequest i) s = .next t ∧
      t = { s with dram := { s.dram with channels := t.dram.channels, ports := t.dram.ports } } ∧
      (∀ k c a, k < i.data.length → s.mapOffset i.row (off + k) = some (c, a) →
        t.dramByte c a = if nth true i.enables k then nth 0 i.data k else s.dramByte c a) ∧
      (∀ c a, (∀ k, k < i.data.length → s.mapOffset i.row (off + k) ≠ some (c, a)) → t.dramByte c a = s.dramByte c a))

/-- SCHEDULING_DECISION (R444, R447, R452, R454, R459, R461, R462). The first waiting request whose bank is not blocked is granted and answered
with what the queue and DRAM hold, which two damaged bytes of a granule do not change; it is poisoned where a granule read from DRAM is
uncorrectable. In a drain, but where fewer than 56 entries let a below-minimum read go first, the oldest entry whose bank is not
blocked goes to DRAM instead, which changes no byte that a read sees. A channel with nothing to do changes nothing but its drain state. -/
def Obligations.DecisionsGrantOrDrain : Prop :=
  ∀ (i : SchedIn) (s : State), s.dead = false → s.available .dramChannel i.channel.val = true →
    let c := i.channel
    let x := s.channel c
    let drains := decide (48 ≤ x.wq.length) || x.draining && decide (16 < x.wq.length)
    let granted (r : DramReq) : Prop := ∃ t, exec (.schedulingDecision i) s = .next t ∧
      ((∀ g, (damagedIn i.ecc g).length ≤ 2) → t.dram.mem = s.dram.mem) ∧
      t.dram.sram = s.dram.sram ∧ (t.channel c).wq = x.wq ∧ (t.channel c).draining = drains ∧
      (t.channel c).reqs = x.reqs.filter (fun y => y.seq != r.seq) ∧ (∀ d, d ≠ c → t.channel d = s.channel d) ∧
      t.clk = s.clk ∧ t.host = s.host ∧ t.work = s.work ∧ t.pools = s.pools ∧
      ∃ y, t.dram.replies = y :: s.dram.replies ∧ y.seq = r.seq ∧ y.port = r.port ∧
        y.data = (List.range r.bytes).map (fun k => t.dramByte c (r.addr + k)) ∧
        (∀ g ∈ granulesOf r.addr r.bytes, wqFind x.wq g = none → i.ecc.misplaced = true ∨ (damagedIn i.ecc g).length = 2 →
          y.poisoned = true) ∧
        (i.ecc.misplaced = false → (∀ g, (damagedIn i.ecc g).length ≤ 1) → s.dram.poison = [] → y.poisoned = false) ∧
        (y.poisoned = true → ∃ n, t.safety = { s.safety with faults := s.safety.faults ++ [n] } ∧ n.cls = some .eccUncorrectable) ∧
        (y.poisoned = false → t.safety = s.safety)
    let drained (e : WqEntry) : Prop := ∃ t, exec (.schedulingDecision i) s = .next t ∧
      (t.channel c).wq = x.wq.filter (fun y => y.granule != e.granule) ∧ (t.channel c).reqs = x.reqs ∧
      (t.channel c).draining = drains ∧ (s.memoryOk → ∀ d a, a < 2 ^ 32 → t.dramByte d a = s.dramByte d a) ∧
      t = { s with dram := { s.dram with mem := t.dram.mem, poison := t.dram.poison, channels := t.dram.channels } }
    (∀ r, s.dramChoice c i.blocked = some r → drainChoice x.wq i.blocked = none → granted r) ∧
    (∀ r e, s.dramChoice c i.blocked = some r → drainChoice x.wq i.blocked = some e →
      (drains = false → granted r) ∧
      (drains = true → x.wq.length < 56 → r.raw ≤ (s.portOf c r.port).tokens → granted r) ∧
      (drains = true → 56 ≤ x.wq.length ∨ (s.portOf c r.port).tokens < r.raw → drained e)) ∧
    (∀ e, s.dramChoice c i.blocked = none → drainChoice x.wq i.blocked = some e → drained e) ∧
    (s.dramChoice c i.blocked = none → drainChoice x.wq i.blocked = none →
      exec (.schedulingDecision i) s = .next (s.modChannel c (fun y => { y with draining := drains })))

/-- The memory nodes' own work (R444, R446-R450, R459, R465, R466): the nine ports of a node gain MIN_RATE tokens up to BURST; a refresh
counts, on a node's second channel staggered against its first by the interval; a temperature read sets the interval that R449 and R450
give, the faster one on both channels of the node, with DRAM_THERMAL when it first passes 105 C; ZQ calibration latches once in 18 ticks;
patrol scrub takes 64 raw bytes of its share for a granule, counts a correctable error, of one byte, and poisons a granule with two or one
read from a wrong location. -/
def Obligations.MemoryUpkeep : Prop :=
  ∀ s : State, s.dead = false →
    (∀ i : ClusterIn, ∃ t, exec (.regulatorRefill i) s = .next t ∧ t = { s with dram := { s.dram with ports := t.dram.ports } } ∧
      (∀ p : Fin 9, t.dram.ports.get (portIndex i.row p) = { s.dram.ports.get (portIndex i.row p) with
        tokens := min (s.dram.ports.get (portIndex i.row p)).burst
          ((s.dram.ports.get (portIndex i.row p)).tokens + (s.dram.ports.get (portIndex i.row p)).minRate) }) ∧
      ∀ (r : Row) (p : Fin 9), r ≠ i.row → t.dram.ports.get (portIndex r p) = s.dram.ports.get (portIndex r p)) ∧
    (∀ c : Channel, s.available .dramChannel c.val = true →
      let x := s.channel c
      (∃ g, exec (.refresh ⟨c⟩) s = .next (s.modChannel c g) ∧ (g x).refreshes = x.refreshes + 1 ∧ (g x).interval = x.interval ∧
        (g x).stagger = if c.val % 2 = 1 then x.interval else 0) ∧
      ((∀ t, x.zqTick = some t → t + 18 ≤ s.clk.tick) → exec (.zqCalibration ⟨c⟩) s =
        .next ((s.modChannel c (fun y => { y with zqs := y.zqs + 1, zqTick := some s.clk.tick })).chargeBackground c (stallBytes 32))) ∧
      (∀ t, x.zqTick = some t → s.clk.tick < t + 18 → exec (.zqCalibration ⟨c⟩) s = .next s) ∧
      (∀ temp : Int, ∃ t, exec (.temperatureRead ⟨c, temp⟩) s = .next t ∧ (t.channel c).celsius = temp ∧
        (105 < temp → (t.channel c).wanted = 975) ∧ (85 < temp → temp ≤ 105 → (t.channel c).wanted = 1950) ∧
        (temp ≤ 80 → 95 ≤ x.coolReads → (t.channel c).wanted = 3900) ∧
        (temp ≤ 80 → x.coolReads < 95 → x.wanted = 1950 → (t.channel c).wanted = 1950) ∧
        (80 < temp → temp ≤ 85 → x.wanted ≠ 975 → (t.channel c).wanted = x.wanted ∧ (t.channel c).coolReads = 0) ∧
        (s.available .dramChannel (otherChannel c).val = true →
          (t.channel c).interval = min (t.channel c).wanted (s.channel (otherChannel c)).wanted ∧
          (t.channel (otherChannel c)).interval = (t.channel c).interval) ∧
        (105 < temp → x.wanted ≠ 975 → Raised s t pfFn 0x0305 (s.clk.tick + 1)) ∧
        (temp ≤ 105 → t = { s with dram := { s.dram with channels := t.dram.channels, ports := t.dram.ports } })) ∧
      (∀ (g : U32) (e : PageDamage), x.scrubBytes + 64 ≤ 121089 → 32 * g.toNat < 0xE0000000 →
        let key := dramKey c (32 * g.toNat)
        let bad := (damagedIn e g.toNat).length
        ∃ t, exec (.patrolScrub ⟨c, g, e⟩) s = .next t ∧ (bad ≤ 2 → t.dram.mem = s.dram.mem) ∧ (t.channel c).wq = x.wq ∧
          (t.channel c).scrubBytes = x.scrubBytes + 64 ∧ (t.channel c).scrubPos = g.toNat ∧ t.clk = s.clk ∧ t.work = s.work ∧
          (bad = 0 → e.misplaced = false → key ∉ s.dram.poison →
            t = { s with dram := t.dram } ∧ t.dram.poison = s.dram.poison ∧ (t.channel c).corrected = x.corrected) ∧
          (bad = 1 → e.misplaced = false → key ∉ s.dram.poison →
            (t.channel c).corrected = x.corrected + 1 ∧ t.dram.poison = s.dram.poison) ∧
          (bad = 2 ∨ e.misplaced = true ∨ key ∈ s.dram.poison → key ∈ t.dram.poison ∧
            ∃ n, t.safety = { s.safety with faults := s.safety.faults ++ [n] } ∧ n.cls = some .eccUncorrectable)))

/-! ### Filigree and the chain (14_filigree_chain.md) -/

/-- Filigree packets, credits and segments (R35, R469-R473, R478, R479, R481, R485, R486). A hop that enters a ring needs two credits of the
link and VC it takes, another hop one, and the link must serve its VC: VC3 first when it has used none of the last 8 cycles; without them nothing
happens. A hop spends one credit of the link out; at its destination a packet is delivered and gone. A fence waits for the packets before it. A
returned credit reaches its sender. A trailing acknowledgement ends its multicast, or has the nodes that missed it re-sent to under the next
generation. Rows whose segments latched empty pass to their partitions from the commit after the plan's; 2 ticks after it the others are
unassigned, with a fault each. -/
def Obligations.FiligreePacketsAndCredits : Prop :=
  ∀ s : State, s.dead = false →
    (∀ (i : HopIn) (f : Flying) (p : Port), s.fab.packets.find? (samePacket i.packet) = some f → f.next = some p →
      let f' := { f with at_ := stepNode f.at_ p, inPort := some p }
      let vc := f.pkt.vc.val
      let need := if f.enters p then 2 else 1
      let served := (s.fab.link f.at_ p i.idle).grant (vc :: s.fab.readyVcs f.at_ p)
      ((s.fab.credit f.at_ p vc).held < need → exec (.filigreePacketHop i) s = .next s) ∧
      (vc ≠ 3 → 3 ∈ s.fab.readyVcs f.at_ p → some 3 ∉ (s.fab.link f.at_ p i.idle).recent →
        exec (.filigreePacketHop i) s = .next s) ∧
      (need ≤ (s.fab.credit f.at_ p vc).held → served = some vc → f.pkt.mcast = none →
        ∃ x : Fabric, exec (.filigreePacketHop i) s = .next { s with fab := x } ∧ x.draining = s.fab.draining ∧
          (f'.next ≠ none → x.packets = f' :: s.fab.packets.filter (fun g => !samePacket f.pkt g) ∧
            x.deliveries = s.fab.deliveries ∧ x.unacked = s.fab.unacked ∧
            (f.inPort = none → (x.credit f.at_ p vc).held = (s.fab.credit f.at_ p vc).held - 1)) ∧
          (f'.next = none → x.packets = s.fab.packets.filter (fun g => !samePacket f.pkt g) ∧
            x.deliveries = (f.pkt.id, stepNode f.at_ p) :: s.fab.deliveries))) ∧
    (∀ i : HopIn, s.fab.packets.find? (samePacket i.packet) = none → i.packet.fence = true →
      (s.fab.fenceOpen i.packet = false → exec (.filigreePacketHop i) s = .next s ∧ exec (.fencedInjection i) s = .next s) ∧
      (s.fab.fenceOpen i.packet = true → exec (.fencedInjection i) s = exec (.filigreePacketHop i) s)) ∧
    (∀ (i : HopIn) (p : Port), let q := i.packet
      let f' := { s.flyingOf q with at_ := stepNode q.src.toNat p, inPort := some p }
      s.fab.packets.find? (samePacket q) = none → s.mayInject q = true →
      (q.fence = true → s.fab.fenceOpen q = true) → q.mcast = none → q.vc ≠ 1 → q ∉ s.fab.resends →
      (s.flyingOf q).next = some p → f'.next ≠ none →
      ((s.fab.credit q.src.toNat p q.vc.val).held < 2 → exec (.filigreePacketHop i) s = .next s) ∧
      (2 ≤ (s.fab.credit q.src.toNat p q.vc.val).held →
        (s.fab.link q.src.toNat p i.idle).grant (q.vc.val :: s.fab.readyVcs q.src.toNat p) = some q.vc.val →
        ∃ x : Fabric, exec (.filigreePacketHop i) s = .next { s with fab := x } ∧
          (q.fence = true → exec (.fencedInjection i) s = .next { s with fab := x }) ∧
          x.packets = f' :: s.fab.packets ∧
          x.unacked = s.fab.unacked ++ [{ pkt := q, trailing := false, missed := 0, gen := 0 }] ∧
          (x.credit q.src.toNat p q.vc.val).held = (s.fab.credit q.src.toNat p q.vc.val).held - 1)) ∧
    (∀ i : CreditIn, let c := s.fab.credit i.node.toNat i.port i.vc.val
      (c.returning = 0 → exec (.creditReturn i) s = .next s) ∧
      (0 < c.returning → ∃ x : Fabric, exec (.creditReturn i) s = .next { s with fab := x } ∧
        x.credit i.node.toNat i.port i.vc.val = { c with held := c.held + 1, returning := c.returning - 1 } ∧
        x.packets = s.fab.packets)) ∧
    (∀ (i : TrailAckIn) (u : Unacked) (m : Mcast), s.fab.unacked = [u] → u.pkt.src = i.source → u.pkt.mcast = some m →
      m.mseq = i.mseq →
      (i.missed = 0 → exec (.trailingAcknowledgement i) s = .next { s with fab := { s.fab with unacked := [] } }) ∧
      (i.missed ≠ 0 → ∃ rs, exec (.trailingAcknowledgement i) s = .next { s with fab := { s.fab with
          unacked := [{ u with trailing := true, missed := i.missed.toNat, gen := u.gen + 1 }], resends := s.fab.resends ++ rs } } ∧
        rs.length = ((List.range 16).filter (fun b => i.missed.toNat.testBit b)).length ∧
        ∀ r ∈ rs, r.id = u.pkt.id ∧ r.vc = 0 ∧ ∃ n, r.mcast = some n ∧ n.mseq = m.mseq ∧ n.gen = BitVec.ofNat 8 (u.gen + 1))) ∧
    (let left := s.fab.draining.filter s.fab.rowHolds
     (s.drainAge = 0 → exec .segmentHandover s = .next s) ∧
      (0 < s.drainAge → exec .segmentHandover s = .next { s with fab := { s.fab with
        draining := left, planCommit := if left = [] then none else s.fab.planCommit } })) ∧
    ((s.drainAge < 2 ∨ s.fab.draining = [] → exec .filigreeDrainFault s = .next s) ∧
      (2 ≤ s.drainAge → s.fab.draining ≠ [] → ∃ fs : List FaultNote, exec .filigreeDrainFault s = .next { s with
          fab := { s.fab with draining := [], planCommit := none, unassigned := s.fab.unassigned ++ s.fab.draining },
          safety := { s.safety with faults := s.safety.faults ++ fs } } ∧
        fs.map (fun n => (n.cls, n.unit.num)) = s.fab.draining.map (fun r => (some .filigreeDrainFault, r))))

/-- Chain links come up and go down (R491, R496-R500, R503, R504, R518). TRAIN from the peer takes an UP link DOWN and begins the handshake, in
which this end trains and gives its credits, but for a miswired peer, whose link stays DOWN with CHAIN_MISWIRED. CREDIT_RESET gives this end's credits
and is acknowledged; the link is UP, with its event, at the commit after both ends have acknowledged. A NAK and a timeout send again what is
unacknowledged; the eighth replay without progress, or another cause of R499, takes the link DOWN with its event, and what it held returns as
NACKs. Equalisation is retuned once in 600 ticks. -/
def Obligations.ChainLinksTrainAndReplay : Prop :=
  ∀ (s : State) (k : Link), s.dead = false →
    let x := s.link k
    let sent (y : LinkSt) : List (Nat × Nat) := y.out.map (fun p => (p.type, p.linkSeq))
    let goesDown (i : Instr) (y : LinkSt) (code : Nat) : Prop := ∃ t, exec i s = .next t ∧ (t.link k).state = .down ∧
      (t.link k).replay = [] ∧ (t.link k).queue = [] ∧ (∀ j, j ≠ k → t.link j = s.link j) ∧ t.clk = s.clk ∧ t.work = s.work ∧
      t.dram = s.dram ∧ t.chain.nacks = s.chain.nacks ++ y.replay ++ y.queue ∧
      (∃ es, (t.fnSt pfFn).eventHeld = (s.fnSt pfFn).eventHeld ++ es ∧
        ∃ e ∈ es, e.code = 0x0500 ∧ e.tick = s.clk.tick + 1 ∧ e.detail = detail28 (le 1 k.val ++ le 1 0 ++ le 1 code))
    let replays (i : Instr) (y : LinkSt) : Prop := ∃ z : LinkSt, exec i s = .next (s.modLink k (fun _ => z)) ∧
      z.noProgress = y.noProgress + 1 ∧ z.replay = y.replay ∧ z.queue = y.queue ∧ z.state = x.state ∧ z.txSeq = x.txSeq ∧
      z.rxExpect = x.rxExpect ∧ sent z = (y.replay.map (fun r => (1, r.seq))).reverse ++ sent y
    (∀ f : PeerFlit, s.available .chainLink k.val = true →
      (s.miswired ⟨k, f⟩ = true ∨ flitModule f = none → ∃ t, exec (.train ⟨k, f⟩) s = .next t ∧ (t.link k).state = .down ∧
        Raised s t pfFn 0x0501 (s.clk.tick + 1) ∧ (∀ j, j ≠ k → t.link j = s.link j) ∧ t.clk = s.clk ∧ t.work = s.work) ∧
      (∀ m, s.miswired ⟨k, f⟩ = false → flitModule f = some m → ∃ t, exec (.train ⟨k, f⟩) s = .next t ∧
        (t.link k).state = .handshake ∧ (t.link k).peer = some m.val ∧ (t.link k).txSeq = 0 ∧ (t.link k).rxExpect = 0 ∧
        (t.link k).gotReset = false ∧ (t.link k).gotAck = false ∧ (t.peer m).offset = (f.tick.toNat : Int) - s.clk.tick ∧
        ((t.link k).out.map (·.type)).take 2 = [4, 7] ∧
        (∀ j, j ≠ k → t.link j = s.link j) ∧ t.clk = s.clk ∧ t.work = s.work ∧
        (x.isUp = true → Raised s t pfFn 0x0500 (s.clk.tick + 1)))) ∧
    (∀ i : CreditResetIn, i.link = k → (x.state ≠ .handshake → exec (.creditReset i) s = .next s) ∧
      (x.state = .handshake → ∃ z : LinkSt, exec (.creditReset i) s = .next (s.modLink k (fun _ => z)) ∧ z.credits = i.free ∧
        z.gotReset = true ∧ z.gotAck = x.gotAck ∧ z.state = .handshake ∧ z.peer = x.peer ∧ z.txSeq = 0 ∧ z.rxExpect = 0 ∧
        ∃ p, z.out = p :: x.out ∧ p.type = 5)) ∧
    ((x.state = .handshake → exec (.creditResetAck ⟨k⟩) s = .next (s.modLink k (fun y => { y with gotAck := true }))) ∧
      (x.state ≠ .handshake → exec (.creditResetAck ⟨k⟩) s = .next s ∧ exec (.chainLinkUp ⟨k⟩) s = .next s) ∧
      (x.gotReset = false ∨ x.gotAck = false → exec (.chainLinkUp ⟨k⟩) s = .next s) ∧
      (x.state = .handshake → x.gotReset = true → x.gotAck = true → ∃ t, exec (.chainLinkUp ⟨k⟩) s = .next t ∧
        (t.link k).state = .up ∧ (t.link k).credits = x.credits ∧ (∀ j, j ≠ k → t.link j = s.link j) ∧
        Raised s t pfFn 0x0500 (s.clk.tick + 1) ∧ t.clk = s.clk ∧ t.work = s.work)) ∧
    (x.isUp = true →
      (∀ a : U16, let y := x.acked a.toNat
        (y.noProgress < 7 → replays (.nak ⟨k, a⟩) y) ∧ (7 ≤ y.noProgress → goesDown (.nak ⟨k, a⟩) y 3)) ∧
      (x.replay ≠ [] → x.noProgress < 7 → replays (.replayTimeout ⟨k⟩) x) ∧
      (x.replay ≠ [] → 7 ≤ x.noProgress → goesDown (.replayTimeout ⟨k⟩) x 3) ∧
      (x.replay = [] → exec (.replayTimeout ⟨k⟩) s = .next s) ∧
      (∀ c, goesDown (.chainLinkState ⟨k, c⟩) x (downCode c)) ∧
      (x.eqTick = none → exec (.equalisationRetune ⟨k⟩) s = .next (s.modLink k (fun y => { y with eqTick := some s.clk.tick }))) ∧
      (∀ t, x.eqTick = some t → (s.clk.tick < t + 600 → exec (.equalisationRetune ⟨k⟩) s = .next s) ∧
        (t + 600 ≤ s.clk.tick → exec (.equalisationRetune ⟨k⟩) s =
          .next (s.modLink k (fun y => { y with eqTick := some s.clk.tick })))))

/-- DATA over a chain link (R497, R501, R502, R506). A packet of a wrong CRC or number is answered with a NAK and nothing else. A good one
advances the number expected; of the source's current route epoch, it is accepted once if it is for this module, and else goes on by its route, or
returns as a NACK without one. A packet that came back is sent again over the alternate route; without a route its job faults. -/
def Obligations.ChainDataIsCarriedOnce : Prop :=
  ∀ s : State, s.dead = false →
    (∀ i : ChainDataIn, let k := i.link
      let x := s.link k
      let d := i.dstModule.val
      let fresh := epochFresh (s.peer i.srcModule).epoch i.epoch.toNat
      let stale := e2eStale (s.e2eOf i.srcModule.val) i.e2eSeq.toNat
      x.isUp = true →
      (crcOk i = false ∨ i.linkSeq.toNat ≠ x.rxExpect → ∃ (z : LinkSt) (p : ChainPacket),
        exec (.chainData i) s = .next (s.modLink k (fun _ => z)) ∧ z.out = p :: x.out ∧ p.type = 3 ∧ p.ackSeq = x.rxExpect ∧
        z.rxExpect = x.rxExpect ∧ z.replay = x.replay ∧ z.queue = x.queue ∧ z.credits = x.credits) ∧
      (crcOk i = true → i.linkSeq.toNat = x.rxExpect →
        ∃ t, exec (.chainData i) s = .next t ∧ t.clk = s.clk ∧ t.work = s.work ∧ t.dram = s.dram ∧
          (t.link k).rxExpect = (x.rxExpect + 1) % 65536 ∧
          (fresh = false ∨ d ≠ s.boot.moduleNo ∨ stale = true →
            t.chain.accepted = s.chain.accepted ∧ t.chain.incoming = s.chain.incoming) ∧
          (fresh = true → d = s.boot.moduleNo → stale = false →
            t.chain.accepted = (i.srcModule.val, i.e2eSeq.toNat, i.dstNode.toNat) :: s.chain.accepted ∧
            t.chain.incoming = s.chain.incoming ++ i.mirror.toList) ∧
          (fresh = true → d ≠ s.boot.moduleNo → s.outLink? d = none →
            ∃ r, t.chain.nacks = s.chain.nacks ++ [r] ∧ r.dstModule = d ∧ r.e2eSeq = i.e2eSeq.toNat ∧ r.payload = i.payload) ∧
          (∀ j, fresh = true → d ≠ s.boot.moduleNo → s.outLink? d = some j → j ≠ k →
            ∃ r, t.link j = (s.link j).send r ∧ r.srcModule = i.srcModule.val ∧ r.dstModule = d ∧ r.payload = i.payload))) ∧
    (∀ i : NackIn, let d := i.dstModule.val
      (s.altLink? d = none → s.primaryLink? d = none →
        ∃ t n, exec (.nack i) s = .next t ∧ t.chain.links = s.chain.links ∧ t.clk = s.clk ∧ t.work = s.work ∧
          t.safety = { s.safety with faults := s.safety.faults ++ [n] } ∧ n.cls = none) ∧
      (∀ k, s.altLink? d = some k ∨ (s.altLink? d = none ∧ s.primaryLink? d = some k) →
        ∃ t r, exec (.nack i) s = .next t ∧ t.link k = (s.link k).send r ∧ r.dstModule = d ∧ r.e2eSeq = i.e2eSeq.toNat ∧
          r.srcNode = i.srcNode.toNat ∧ (∀ j, j ≠ k → t.link j = s.link j) ∧ t.safety = s.safety ∧ t.work = s.work))

/-- Peers, the buddy and mirrors (R492, R493, R506, R512-R514, R517). A PEER_TICK for this module gives the peer's flags, and its offset over the
direct link; one for another module goes on. Behind a commit at a multiple of 30 ticks, or when one is owed, every stream processed here is mirrored
to the buddy; mirrors not acknowledged are abandoned with MIRROR_INCOMPLETE's event; a released buddy drops its copies. A peer silent for 3 ticks
at the coming commit is lost: its mirrors are to be re-homed at the commit after, its shares end. -/
def Obligations.PeersAndMirrors : Prop :=
  ∀ s : State,
    (∀ (i : PeerTickIn) (m : ModuleNo), s.dead = false → flitModule i.flit = some m → m.val ≠ s.boot.moduleNo →
      ((s.link i.link).state = .down → exec (.peerTick i) s = .next s) ∧
      ((s.link i.link).state ≠ .down → i.dstModule.val = s.boot.moduleNo → ∃ t, exec (.peerTick i) s = .next t ∧
        (t.peer m).lastSeen = some s.clk.tick ∧ (t.peer m).ready = i.flit.flags.getLsbD 0 ∧
        (t.peer m).evacuating = i.flit.flags.getLsbD 1 ∧ (t.peer m).heard = true ∧
        (t.peer m).lost = false ∧ (t.peer m).epoch = i.flit.routeEpoch.toNat ∧
        (i.direct = true → (t.peer m).offset = (i.flit.tick.toNat : Int) - s.clk.tick) ∧
        (i.direct = false → (t.peer m).offset = (s.peer m).offset) ∧ (∀ n, n ≠ m → t.peer n = s.peer n) ∧ t.clk = s.clk ∧
        t.work = s.work ∧ (∀ k, k ≠ i.link → t.link k = s.link k) ∧ t.chain.mirrors = s.chain.mirrors) ∧
      (∀ k, (s.link i.link).state ≠ .down → i.dstModule.val ≠ s.boot.moduleNo → s.outLink? i.dstModule.val = some k → k ≠ i.link →
        ∃ t p, exec (.peerTick i) s = .next t ∧ (t.link k).out = p :: (s.link k).out ∧ p.type = 6 ∧ p.srcModule = m.val ∧
          p.dstModule = i.dstModule.val ∧ p.payload = flitBytes i.flit ∧ t.chain.peers = s.chain.peers ∧ t.work = s.work)) ∧
    (∀ b, s.isReady = true → s.chain.buddy = some b →
      ((∀ n, s.chain.mirrorDue = some n → s.clk.tick < n) → s.clk.tick % 30 ≠ 0 → exec .mirrorCapture s = .next s) ∧
      ((∃ n, s.chain.mirrorDue = some n ∧ n ≤ s.clk.tick) ∨ s.clk.tick % 30 = 0 →
        ∃ c : Chain, exec .mirrorCapture s = .next { s with chain := c } ∧
          c.capturing = some (s.clk.tick, (s.work.streams.filter s.infersHere).map (·.handle)) ∧ c.mirrorDue = none ∧
          c.mirrors = s.chain.mirrors ∧ ∀ x ∈ s.work.streams, s.infersHere x = true → .mirrorOf b (s.mirrorOf x) ∈ c.out)) ∧
    (s.chain.buddy = none → exec .mirrorCapture s = .next s) ∧
    (∀ (i : ModuleIn) (t : Nat) (hs : List Nat), s.dead = false → s.chain.capturing = some (t, hs) →
      (s.chain.buddy ≠ some i.moduleNo.val → exec (.mirrorAbandoned i) s = .next s) ∧
      (s.chain.buddy = some i.moduleNo.val → ∃ u, exec (.mirrorAbandoned i) s = .next u ∧
        u.chain = { s.chain with capturing := none } ∧ Raised s u pfFn 0x0506 (s.clk.tick + 1) ∧ u.clk = s.clk ∧ u.work = s.work)) ∧
    (∀ i : ModuleIn, s.dead = false → ∃ t, exec (.buddyRelease i) s = .next t ∧
      t.chain.mirrors = s.chain.mirrors.filter (fun m => m.home != i.moduleNo.val) ∧
      t.chain.incoming = s.chain.incoming.filter (fun m => m.home != i.moduleNo.val) ∧ t.chain.links = s.chain.links ∧
      t.clk = s.clk ∧ t.work = s.work) ∧
    (∀ (i : ModuleIn) (n : Nat), s.dead = false → (s.peer i.moduleNo).heard = true → (s.peer i.moduleNo).lost = false →
      (s.peer i.moduleNo).lastSeen = some n →
      (s.clk.tick < n + 3 → exec (.chainPeerLost i) s = .next s) ∧
      (n + 3 ≤ s.clk.tick → ∃ t, exec (.chainPeerLost i) s = .next t ∧ (t.peer i.moduleNo).lost = true ∧
        (t.peer i.moduleNo).ready = false ∧ Raised s t pfFn 0x0502 (s.clk.tick + 1) ∧
        (∀ x ∈ s.chain.mirrors, x.home = i.moduleNo.val → (s.clk.tick + 2, i.moduleNo.val, x) ∈ t.chain.rehoming) ∧
        t.chain.mirrors = s.chain.mirrors.filter (fun x => x.home != i.moduleNo.val) ∧
        t.chain.grants = s.chain.grants.filter (fun g => g.home != i.moduleNo.val) ∧ t.clk = s.clk ∧ t.dram = s.dram ∧
        t.chain.links = s.chain.links))

/-- Re-homing and the load balancer (R92, R515, R516, R534-R536). A stream of a lost module is restored from its mirror at the commit after the
loss, at sequence + 64, with 2 tokens at most and STREAM_REHOMED; or REHOME_FAILED is raised. A load is noted and answered with this module's. An
evaluation of the balancer keeps to its ticks, which the module number spreads, and to its mode, and starts at most MAX_MOVES migrations. -/
def Obligations.StreamsRehomeAndBalance : Prop :=
  ∀ s : State, s.isReady = true →
    (∀ (i : RehomeIn) (lost due : Nat) (m : Mirror), s.chain.rehoming = [(due, lost, m)] →
      m.handle = i.handle.toNat →
      let u := { s with chain := { s.chain with rehoming := [] } }
      (s.clk.tick + 1 < due → exec (.streamRehomed i) s = .next s) ∧
      (due ≤ s.clk.tick + 1 → u.coming.rehomeFault lost m = none → ∃ t, exec (.streamRehomed i) s = .next t ∧ t.chain = u.chain ∧
        t.clk = s.clk ∧ Raised s t m.fn 0x0203 (s.clk.tick + 1) ∧
        (u.homeStream? lost m = none → ∃ x ∈ t.work.streams, x.handle = m.handle ∧ x.fn = m.fn ∧ x.nextSeq = m.frameSeq + 64 ∧
          x.tracker = m.tracker ∧ x.tokens = min 2 m.tokens ∧ x.frames = [] ∧ x.dpb = [] ∧ x.remote = none) ∧
        (∀ y, s.work.streams = [y] → u.homeStream? lost m = some y → ∃ x, t.work.streams = [x] ∧ x.handle = y.handle ∧
          x.nextSeq = max y.nextSeq (m.frameSeq + 64) ∧ x.tracker = m.tracker ∧ x.tokens = min 2 m.tokens ∧ x.dpb = [] ∧
          x.remote = none)) ∧
      (∀ reason r, due ≤ s.clk.tick + 1 → u.coming.rehomeFault lost m = some (reason, r) → u.homeStream? lost m = none →
        ∃ t, exec (.streamRehomed i) s = .next t ∧ t.work = s.work ∧ t.chain = u.chain ∧
          Raised s t pfFn 0x0204 (s.clk.tick + 1))) ∧
    (∀ i : LoadIn, i.moduleNo.val ≠ s.boot.moduleNo → ∃ c : Chain,
      exec (.loadExchange i) s = .next { s with chain := c } ∧ (c.peers.get i.moduleNo).load = some i.load ∧
      ∃ v, c.out = .loadReport i.moduleNo.val v :: s.chain.out) ∧
    (let b := s.work.balance
     (b.mode = 0 ∨ (s.clk.tick + 1) % max 1 b.interval ≠ s.boot.moduleNo * b.interval / 8 →
        exec .balanceEvaluation s = .next s) ∧
      ∃ t, exec .balanceEvaluation s = .next t ∧ t.work = s.work ∧ t.clk = s.clk ∧ t.dram = s.dram ∧
        (b.mode = 1 → t.chain = s.chain) ∧
        t.chain.migrations.length ≤ s.chain.migrations.length + b.maxMoves ∧
        ((∀ p, p < partCount s.work.startMask → s.coming.loadPercent p (s.coming.loadsWithout none) ≤ b.highWater) → t = s))

/-- Migration (R508-R511, Tables 14.4 and 14.5). STREAM_MIGRATE refuses an urgent or migrating stream with INVALID_STATE and an
unreachable module with UNIT_UNAVAILABLE; else the migration begins with an admission request to every other module it names. Home
T+0 stops 3 commits later at the earliest; at the commit at which the copy is complete the stream is served by the named modules and the command's
work ends. A share is admitted or refused with its reason in the reply. A frame served elsewhere ends at the coming commit with the records it
returned. -/
def Obligations.StreamsMigrate : Prop :=
  (∀ (h : CmdHead) (p : StreamMigrateP) (s : State), Admissible s h (.streamMigrate p) →
    let target := p.targetModule.toNat
    let decode := if p.decodeModule.toNat = 0xFF then target else p.decodeModule.toNat
    let ends (st : Status) : Prop := ∃ u, exec (.streamMigrate h p) s = .next u ∧ Completes s u h 0x33 st 0xFFFF []
    (s.liveStream? h.fn p.handle.toNat = none → ends .notFound) ∧
    (∀ x, s.liveStream? h.fn p.handle.toNat = some x →
      (x.cls = .urgent ∨ s.migrating x.handle = true → ends .invalidState) ∧
      (x.cls ≠ .urgent → s.migrating x.handle = false → s.routeUp target = false ∨ s.routeUp decode = false →
        ends .unitUnavailable) ∧
      (s.coming.migrationFault x target decode = none → ∃ c : Chain, exec (.streamMigrate h p) s = .next { s with
          chain := c, host := { s.host with works := s.host.works ++ [begun s h 0x33 (.streamMigrate x.handle)] } } ∧
        (∃ m, c.migrations = s.chain.migrations ++ [m] ∧ m.handle = x.handle ∧ m.target = target ∧ m.decode = decode ∧
          m.start = s.clk.tick + 1 ∧ m.switched = false) ∧
        (∀ n, n = target ∨ n = decode → n ≠ s.boot.moduleNo → .admissionRequest n x.handle ∈ c.out)))) ∧
  (∀ (i : HandleP) (s : State) (m : Migration), s.isReady = true → s.chain.migrations = [m] → m.handle = i.handle.toNat →
    (s.clk.tick + 1 < m.start + 3 ∨ m.switched = true → exec (.migrationSwitch i) s = .next s) ∧
    (m.start + 3 ≤ s.clk.tick + 1 → m.switched = false → m.ownRefusal = none →
      ∃ c : Chain, exec (.migrationSwitch i) s = .next { s with chain := c } ∧ c.migrations = [{ m with switched := true }] ∧
        ∀ n, n = m.target ∨ n = m.decode → n ≠ s.boot.moduleNo → .migrationCopy n m.handle ∈ c.out) ∧
    (∀ r w, m.start + 3 ≤ s.clk.tick + 1 → m.switched = false → m.ownRefusal = some r → s.workOf? (.streamMigrate m.handle) = some w →
      ∃ t, exec (.migrationSwitch i) s = .next t ∧ t.chain = { s.chain with migrations := [] } ∧ Ends s t w (admissionRefused r) ∧
        t.work = s.work)) ∧
  (∀ (i : MigrationCopyIn) (s : State) (m : Migration) (w : Work) (x : Stream), s.isReady = true → s.chain.migrations = [m] →
    m.handle = i.handle.toNat → s.stream? i.handle.toNat = some x → s.workOf? (.streamMigrate m.handle) = some w →
    let done (t : State) (a : Answer) : Prop := t.chain = { s.chain with migrations := [] } ∧ Ends s t w a ∧ t.clk = s.clk ∧
      t.dram = s.dram
    (∀ r, i.refused = some r → ∃ t, exec (.migrationCopyComplete i) s = .next t ∧ done t (admissionRefused r.toNat) ∧ t.work = s.work) ∧
    (i.refused = none → m.switched = false ∨ x.frames ≠ [] → exec (.migrationCopyComplete i) s = .next s) ∧
    (i.refused = none → m.switched = true → x.frames = [] → ∃ t, exec (.migrationCopyComplete i) s = .next t ∧ done t ok ∧
      (∀ y ∈ t.work.streams, y.handle = x.handle → y.remote = s.remotePair m.decode m.target ∧ y.lastMoved = s.clk.tick + 1) ∧
      (∀ y ∈ s.work.streams, y.handle ≠ x.handle → y ∈ t.work.streams))) ∧
  (∀ (i : MigrationRequestIn) (s : State), s.isReady = true → ∃ c : Chain,
    exec (.migrationAdmissionRequest i) s = .next { s with chain := c } ∧
    c.out = .admissionReply i.home.val i.handle.toNat (s.shareReason i) :: s.chain.out ∧
    (s.shareReason i = 0 → grantOf i ∈ c.grants) ∧ (s.shareReason i ≠ 0 → c.grants = s.chain.grants)) ∧
  (∀ (i : RemoteRecordsIn) (s : State) (x : Stream) (f : Frame), s.stream? i.handle.toNat = some x → s.isReady = true →
    x.frames.find? (fun (f : Frame) => f.seq == i.seq.toNat) = some f → s.infersHere x = false →
    let e : RemoteEnd := { handle := x.handle, seq := i.seq.toNat, records := some i }
    exec (.remoteRecords i) s = .next { s with work := { s.work with remoteEnds := s.work.remoteEnds ++ [e] } } ∧
    ∃ r, (s.takeRemoteEnd e).work.ended = s.work.ended ++ [r] ∧ r.handle = x.handle ∧
      r.dets = i.dets ∧ r.summaries = i.summaries ∧ r.alerts = i.alerts ∧
      (∀ y ∈ (s.takeRemoteEnd e).work.streams, y.handle = x.handle → ∀ g ∈ y.frames, g.seq ≠ f.seq) ∧
      (s.takeRemoteEnd e).clk = s.clk ∧ (s.takeRemoteEnd e).chain = s.chain)

/-- Evacuation (R607, R609, R610). A request begins it from the coming commit, with EVACUATION_REQUESTED for the PF and every sealed tenant.
EVAC_DONE_N is asserted, with EVACUATION_COMPLETE, only when nothing depends on the module: no stream, no migration, no mirror. Before that it may be
cancelled, with EVACUATION_CANCELLED. -/
def Obligations.EvacuationEmptiesTheModule : Prop :=
  ∀ s : State, s.dead = false →
    (s.work.evacuating = true → exec .evacuationRequested s = .next s) ∧
    (s.work.evacuating = false → exec .evacuationCancelled s = .next s ∧ exec .evacuationComplete s = .next s ∧
      ∃ t, exec .evacuationRequested s = .next t ∧
      t.work = { s.work with evacuating := true, evacDone := false } ∧ t.clk = s.clk ∧ t.chain = s.chain ∧ t.dram = s.dram ∧
      Raised s t pfFn 0x0503 (s.clk.tick + 1) ∧
      ∀ f : Fn, (s.fnSt f).sealed = true → Raised s t f 0x0503 (s.clk.tick + 1)) ∧
    (s.work.evacuating = true → s.work.evacDone = false →
      (∃ t, exec .evacuationCancelled s = .next t ∧ t.work = { s.work with evacuating := false } ∧ t.clk = s.clk ∧
        t.chain = s.chain ∧ t.dram = s.dram ∧ Raised s t pfFn 0x0505 (s.clk.tick + 1)) ∧
      (s.work.streams ≠ [] ∨ s.chain.migrations ≠ [] ∨ s.chain.mirrors ≠ [] ∨ s.chain.incoming ≠ [] →
        exec .evacuationComplete s = .next s) ∧
      (s.isReady = true → s.work.streams = [] → s.chain.migrations = [] → s.chain.mirrors = [] → s.chain.incoming = [] →
        ∃ t, exec .evacuationComplete s = .next t ∧ t.work = { s.work with evacDone := true } ∧ t.clk = s.clk ∧
          t.chain = s.chain ∧ t.dram = s.dram ∧ Raised s t pfFn 0x0504 (s.clk.tick + 1))) ∧
    (s.work.evacDone = true → exec .evacuationCancelled s = .next s ∧ exec .evacuationComplete s = .next s)

/-! ### Faults, gaps, safety checks (02, 11, 16) -/

/-- What the units and the host tell the die between commits, and what the coming commit owes a ring (R64, R85, R88, R89, R94, R243, R352, R408). A
stage that overruns is withdrawn, and no other frame; a fault is noted for the decision point; the inputs of a discarded frame are released 2 ticks
later with REPLAY_INPUTS_RELEASED for its tenant. The open GAP records of a ring are written together, one entry each, once it has room for all;
EVENTS_LOST is written with the count once the event ring has room: both stand first in the coming issue step. -/
def Obligations.FaultsAndLossesAreTold : Prop :=
  ∀ s : State, s.isReady = true →
    (∀ i : OverrunIn, ∃ g : Stream → Stream, exec (.stageOverrun i) s = .next (s.modStream i.handle.toNat g) ∧
      ∀ x : Stream, (g x).frames.length = x.frames.length ∧ g x = { x with frames := (g x).frames } ∧
        ∀ (k : Nat) (f f' : Frame), x.frames[k]? = some f → (g x).frames[k]? = some f' →
          (f.seq = i.seq.toNat → f.idle = false → f' = { f with withdrawn := some (overrunCause i.unit.kind) }) ∧
          (f.seq ≠ i.seq.toNat ∨ f.idle = true → f' = f)) ∧
    (∀ i : FaultIn, exec (.faultReport i) s = .next { s with safety := { s.safety with faults := s.safety.faults ++
      [{ cls := i.cls, handle := i.handle.toNat, seq := i.seq.toNat, unit := i.unit, stateLost := i.stateLost, column := none }] } }) ∧
    (∀ (i : FrameRef) (r : Retained), s.work.retained = [r] → r.handle = i.handle.toNat → r.frame.seq = i.seq.toNat →
      (s.clk.tick + 1 < r.commit + 2 → exec (.replayInputsReleased i) s = .next s) ∧
      (r.commit + 2 ≤ s.clk.tick + 1 → ∃ t, exec (.replayInputsReleased i) s = .next t ∧ t.work = { s.work with retained := [] } ∧
        Raised s t r.fn 0x0008 (s.clk.tick + 1) ∧ t.clk = s.clk ∧ t.dram = s.dram ∧ (∀ b ∈ t.pools.bufs, b ∈ s.pools.bufs) ∧
        (∀ b ∈ s.pools.bufs, s.bufHandle b ∉ r.buffers → b ∈ t.pools.bufs) ∧
        (∀ b, s.pools.bufs = [b] → partOfRow s.work.startMask b.row.val = s.partOf r.fn → r.buffers = [s.bufHandle b] →
          s.stream? r.handle = none → t.pools.bufs = []))) ∧
    (∀ (i : RingIn) (q : Queue), s.queue? i.fn i.slot.toNat = some q →
      (q.gaps = [] ∨ s.writable q < q.gaps.length → exec (.gapWrite i) s = .next s) ∧
      (∀ g, q.gaps = [g] → q.missedRetractions = [] → 1 ≤ s.writable q → ∃ t, exec (.gapWrite i) s = .next t ∧
        (∃ addr, t.host.ahead = s.host.ahead ++
          [.record i.fn i.slot.toNat (q.prod % q.entries) addr (.gap g q.recordSeq s.coming.clk.stateByte (s.clk.tick + 1))]) ∧
        (∃ q', t.queue? i.fn i.slot.toNat = some q' ∧ q'.gaps = [] ∧ q'.prod = q.prod + 1 ∧
          q'.recordSeq = (q.recordSeq + 1) % 2 ^ 32 ∧ q'.cons = q.cons) ∧ t = { s with host := t.host }) ∧
      (q.gaps ≠ [] → q.missedRetractions = [] → q.gaps.length ≤ s.writable q → ∃ t, exec (.gapWrite i) s = .next t ∧
        (∃ q', t.queue? i.fn i.slot.toNat = some q' ∧ q'.gaps = [] ∧ q'.prod = q.prod + q.gaps.length) ∧
        (∃ rs, t.host.ahead = s.host.ahead ++ rs ∧ rs.length = q.gaps.length) ∧ t = { s with host := t.host })) ∧
    (∀ (f : Fn) (q : Queue), s.queue? f 2 = some q →
      ((s.fnSt f).eventDropped = 0 ∨ s.writable q = 0 → exec (.eventsLost ⟨f⟩) s = .next s) ∧
      ((s.fnSt f).eventDropped ≠ 0 → s.writable q ≠ 0 → ∃ t e addr, exec (.eventsLost ⟨f⟩) s = .next t ∧
        t = { s with host := t.host } ∧
        t.host.ahead = s.host.ahead ++ [.event q.fn (q.prod % q.entries) addr (q.phaseAt q.prod) e] ∧ e.code = 0x0001 ∧
        e.detail = detail28 (le 4 (s.fnSt f).eventDropped) ∧ e.tick = s.clk.tick + 1 ∧ (t.fnSt f).eventDropped = 0 ∧
        (∃ q', t.queue? f 2 = some q' ∧ q'.prod = q.prod + 1)))

/-- The safety checks (R544, R545, R547, R549-R551). A touchstone runs in its unit's slot of 96 ticks or 1 tick later: the right signature
is a pass, a wrong one a TOUCHSTONE_MISMATCH for the decision point. A retest counts and remembers whether it failed. A lockstep mismatch of
a working cluster is noted as such, one of the assay monitor as a HEARTBEAT_FAULT. A reloaded cluster works again from the fourth commit
after detection. -/
def Obligations.SafetyChecksAreNoted : Prop :=
  ∀ s : State,
    (∀ (i : TouchstoneIn) (slot : Nat), touchSlot i.unit = some slot → s.touchable i.unit = true →
      (∀ r ∈ s.safety.retests, r.unit ≠ i.unit) →
      let right := i.signature = Config.touchstoneSignature i.unit.kind (s.safety.runs i.unit % 8)
      (s.clk.tick % 96 ≠ slot → s.clk.tick % 96 ≠ (slot + 1) % 96 → slot < 96 → exec (.touchstone i) s = .next s) ∧
      (s.clk.tick % 96 = slot ∨ s.clk.tick % 96 = (slot + 1) % 96 → slot < 96 →
        ∃ x : Safety, exec (.touchstone i) s = .next { s with safety := x } ∧
        x.runs i.unit = s.safety.runs i.unit + 1 ∧ x.retired = s.safety.retired ∧
        (right → x.suspectFrom i.unit = s.clk.tick + 1 ∧ x.faults = s.safety.faults) ∧
        (¬ right → x.lastPass = s.safety.lastPass ∧ ∃ n, x.faults = s.safety.faults ++ [n] ∧
          n.cls = some .touchstoneMismatch ∧ n.unit = i.unit ∧ n.column = i.column))) ∧
    (∀ (i : TouchstoneIn) (r : Retest), s.safety.retests = [r] → r.unit = i.unit → s.touchable i.unit = true →
      let right := i.signature = Config.touchstoneSignature i.unit.kind (s.safety.runs i.unit % 8)
      (r.failed = true ∨ 2 ≤ r.runs ∨ s.clk.tick ≤ r.tick → exec (.touchstoneRetest i) s = .next s) ∧
      (r.failed = false → r.runs < 2 → r.tick < s.clk.tick → ∃ (x : Safety) (r' : Retest),
        exec (.touchstoneRetest i) s = .next { s with safety := x } ∧ x.retests = [r'] ∧ r'.unit = r.unit ∧ r'.runs = r.runs + 1 ∧
        r'.tick = s.clk.tick ∧ (right → r'.failed = false) ∧ (¬ right → r'.failed = true) ∧ x.faults = s.safety.faults)) ∧
    (∀ i : ClusterIn, s.isReady = true →
      (s.available .controlCluster i.row.val = false → exec (.lockstepMismatch i) s = .next s) ∧
      (s.available .controlCluster i.row.val = true → (∀ x ∈ s.safety.reloading, x.1 ≠ i.row.val) →
        ∃ n, exec (.lockstepMismatch i) s = .next { s with safety := { s.safety with faults := s.safety.faults ++ [n] } } ∧
          n.cls = some .lockstepMismatch ∧ n.unit = ⟨.controlCluster, i.row.val⟩)) ∧
    (s.isReady = true → ∃ n, exec .assayLockstepMismatch s =
        .next { s with safety := { s.safety with faults := s.safety.faults ++ [n] } } ∧ n.cls = some .heartbeatFault) ∧
    (∀ i : ClusterIn, s.dead = false → ∃ rs, exec (.clusterReload i) s = .next { s with safety := { s.safety with reloading := rs } } ∧
      (∀ x ∈ rs, x.1 = i.row.val → s.clk.tick + 1 < x.2 + 4) ∧
      ∀ x ∈ s.safety.reloading, x.1 ≠ i.row.val ∨ s.clk.tick + 1 < x.2 + 4 → x ∈ rs)

/-! ### Heat and power (18_management_power.md) -/

/-- Thermal protection (R618-R620, R602), each step at the coming commit. At 100 C and more the step rises by 1, at most once in 60 ticks
and to 5 at most; after 600 ticks at 95 C or less it falls by 1; each change is told to every sealed function. Above 110 C the arrays stop
and FAN_FULL_N is asserted, with a THERMAL_RUNAWAY for the decision point; 600 cool ticks later they restart at step 5. Above 120 C power
goes, without retry. -/
def Obligations.HeatThrottlesThenStops : Prop :=
  ∀ s : State, s.boot.running = true →
    (∀ i : JunctionIn,
      let changed (n : Nat) : Prop := ∃ t, exec (.thermalThrottle i) s = .next t ∧ t.safety.throttle = n ∧
        t.safety.stepTick = some (s.clk.tick + 1) ∧ t.safety.arraysStopped = s.safety.arraysStopped ∧ t.clk = s.clk ∧
        t.work = s.work ∧ t.dram = s.dram ∧
        (s.safety.state ≠ .failed → ∀ f : Fn, (s.fnSt f).sealed = true → Raised s t f 0x0600 (s.clk.tick + 1))
      let counts (n : Nat) : Prop := exec (.thermalThrottle i) s = .next { s with safety := { s.safety with coolTicks := n } }
      (100 ≤ i.celsius → s.safety.throttle < 5 →
        (∀ t, s.safety.stepTick = some t → t + 60 ≤ s.clk.tick) → changed (s.safety.throttle + 1)) ∧
      (100 ≤ i.celsius → 5 ≤ s.safety.throttle → counts 0) ∧
      (∀ t, 100 ≤ i.celsius → s.safety.stepTick = some t → s.clk.tick < t + 60 → counts 0) ∧
      (95 < i.celsius → i.celsius < 100 → counts 0) ∧
      (i.celsius ≤ 95 → s.safety.coolTicks + 1 < 600 ∨ s.safety.throttle = 0 ∨ s.safety.arraysStopped = true →
        counts (s.safety.coolTicks + 1)) ∧
      (i.celsius ≤ 95 → 600 ≤ s.safety.coolTicks + 1 → s.safety.arraysStopped = false → 0 < s.safety.throttle →
        changed (s.safety.throttle - 1)) ∧
      (i.celsius ≤ 110 → exec (.thermalRunaway i) s = .next s) ∧
      (110 < i.celsius → ∃ x : Safety, exec (.thermalRunaway i) s = .next { s with safety := x } ∧ x.arraysStopped = true ∧
        x.fanFull = true ∧ x.coolTicks = 0 ∧ x.throttle = s.safety.throttle ∧
        (s.isReady = true → s.safety.arraysStopped = false → ∃ n, x.faults = s.safety.faults ++ [n] ∧ n.cls = some .thermalRunaway)) ∧
      (i.celsius ≤ 120 → exec (.thermtrip i) s = .next s) ∧
      (120 < i.celsius → ∃ t, exec (.thermtrip i) s = .next t ∧ t.power.gate = .off ∧ t.power.pwrgd = false ∧
        t.boot.running = false ∧ t.power.faultLatched = true ∧ t.power.noRetry = true ∧ t.power.thermtrip = true ∧
        t.clk = s.clk ∧ t.work = s.work ∧ t.host = s.host ∧ t.nor = s.nor)) ∧
    (s.safety.arraysStopped = false ∨ s.safety.coolTicks < 600 → exec .thermalResume s = .next s) ∧
    (s.safety.arraysStopped = true → 600 ≤ s.safety.coolTicks → ∃ t, exec .thermalResume s = .next t ∧
      t.safety.arraysStopped = false ∧ t.safety.throttle = 5 ∧ t.clk = s.clk ∧ t.work = s.work ∧ t.dram = s.dram ∧
      (s.safety.state ≠ .failed → ∀ f : Fn, (s.fnSt f).sealed = true → Raised s t f 0x0601 (s.clk.tick + 1)))

/-- The hot-swap stage (R598-R606, R611). EN starts a ramp, but with a latched fault only after 10 ms low; the rails in regulation assert
PWRGD, and EN's end, a fault of R600, R601 or R602 and a bad input take the gate down and PWRGD with it; the faults latch FAULT_N, a bad
input does not; below 10.2 V it stops flash writes until it is good again, when a new ramp starts; auto-retry starts a ramp after a fault of
R600 until the third in 60 s. What turned the gate off is held, or already logged. Nothing else of the module changes but that the die loses
its power. -/
def Obligations.HotSwapStage : Prop :=
  ∀ s : State,
    let off (i : Instr) (latch noRetry : Bool) : Prop := ∃ t, exec i s = .next t ∧ t.power.gate = .off ∧ t.power.pwrgd = false ∧
      t.boot = { s.boot with running := false } ∧ t.power.faultLatched = (s.power.faultLatched || latch) ∧
      (noRetry = true → t.power.noRetry = true) ∧ t.power.en = s.power.en ∧ t.clk = s.clk ∧ t.work = s.work ∧ t.host = s.host ∧
      t.dram = s.dram ∧ t.safety = s.safety ∧ (t.power.heldTrip ≠ none ∨ ∃ e, t.mmc.log.head? = some e)
    (∀ i : EnIn,
      (s.power.en = true → exec (.enAssert i) s = .next s) ∧
      (s.power.en = false → ∃ x : Power, exec (.enAssert i) s = .next { s with power := x } ∧ x.en = true ∧
        (s.power.faultLatched = true → i.lowMs < 10 → x.faultLatched = true ∧ x.gate = s.power.gate) ∧
        (s.power.inputBad = true → x.gate = s.power.gate ∧ x.faultLatched = s.power.faultLatched) ∧
        (s.power.faultLatched = false ∨ 10 ≤ i.lowMs → s.power.inputBad = false → x.gate = .ramp ∧ x.faultLatched = false))) ∧
    (s.power.en = true → s.power.gate ≠ .off → s.mmc.state ≠ .absent →
      exec .pwrgd s = .next { s with power := { s.power with gate := .on, pwrgd := true } }) ∧
    (s.power.gate = .off → exec .pwrgd s = .next s) ∧
    exec .enDeassert s = .next { s with
      power := { s.power with gate := .off, pwrgd := false, en := false }, boot := { s.boot with running := false } } ∧
    (∀ i : TripIn,
      (s.power.gate ≠ .off → off (.currentLimitTimeout i) true false ∧ off (.overcurrentComparator i) true true) ∧
      (s.power.gate = .off → exec (.currentLimitTimeout i) s = .next s ∧ exec (.overcurrentComparator i) s = .next s) ∧
      (s.power.gate = .ramp → off (.rampTimeout i) true false) ∧
      (s.power.gate ≠ .ramp → exec (.rampTimeout i) s = .next s) ∧
      ∀ below : Bool,
        (s.power.gate ≠ .off → off (.p12vOutOfRange ⟨i, below⟩) false false) ∧
        ∃ t, exec (.p12vOutOfRange ⟨i, below⟩) s = .next t ∧ t.power.inputBad = true ∧
          t.nor.writesStopped = (s.nor.writesStopped || below) ∧ t.nor.ledger0 = s.nor.ledger0) ∧
    (s.power.inputBad = false → exec .p12vRecovered s = .next s) ∧
    (s.power.inputBad = true → ∃ t, exec .p12vRecovered s = .next t ∧ t.power.inputBad = false ∧ t.nor.writesStopped = false ∧
      t.host = s.host ∧ t.work = s.work ∧
      (s.power.en = true → s.power.faultLatched = false → s.power.gate = .off → t.power.gate = .ramp)) ∧
    (s.mmc.autoRetry = true → s.power.faultLatched = true → s.power.noRetry = false → s.power.en = true → s.power.inputBad = false →
      (s.power.recent < 3 → ∃ x : Power, exec .retryRamp s = .next { s with power := x } ∧ x.gate = .ramp ∧ x.faultLatched = false ∧
        x.retryNo = s.power.recent) ∧
      (3 ≤ s.power.recent → exec .retryRamp s = .next s)) ∧
    (s.mmc.autoRetry = false ∨ s.power.noRetry = true → exec .retryRamp s = .next s) ∧
    (s.power.gate = .on → exec .railOutOfRegulation s = .next { s with power := { s.power with pwrgd := false } }) ∧
    (s.power.gate ≠ .on → exec .railOutOfRegulation s = .next s)

/-- From power to READY (R569, R572, R576, R586, R588, R590). A die start returns everything in the die to its reset value, but for what the time
unit counts since power-on, and keeps the ledger, the power stage, the MMC's state and what waits to be done; PERST_N does not leave FAILED. The
watchdog of the boot ROM starts a die that has not come to READY. Bring-up gives the module its number and one ledger in both copies, with every
entry that was sound in one of them; READY, at the coming commit, makes the retired units of that ledger unavailable. -/
def Obligations.StartsAndReady : Prop :=
  ∀ s : State,
    let started (i : Instr) (st : ModuleState) : Prop := ∃ t, exec i s = .next t ∧ t.clk.tick = 0 ∧ t.host = State.reset.host ∧
      t.work = State.reset.work ∧ t.dram = State.reset.dram ∧ t.chain = State.reset.chain ∧ t.pools = State.reset.pools ∧
      t.fab = State.reset.fab ∧ t.boot = State.reset.boot ∧ t.safety.state = st ∧ t.safety.throttle = 0 ∧ t.safety.faults = [] ∧
      t.nor.ledger0 = s.nor.ledger0 ∧ t.nor.ledger1 = s.nor.ledger1 ∧ t.power = s.power ∧ t.pending = s.pending ∧
      t.mmc.log = s.mmc.log ∧ t.mmc.keys = s.mmc.keys ∧ t.mmc.state = s.mmc.state ∧
      (s.boot.running = true → t.clk = { State.reset.clk with lockedTicks := s.clk.lockedTicks, todValid := s.clk.todValid }) ∧
      (s.boot.running = false → t.clk = State.reset.clk) ∧
      (s.mmc.state ≠ .absent → t.mmc.starts = s.mmc.starts + 1)
    (s.power.pwrgd = true → s.boot.running = false → started (.dieStart .powerOn) .starting) ∧
    (s.power.pwrgd = false → exec (.dieStart .powerOn) s = .next s) ∧
    (s.boot.running = true → s.safety.state ≠ .failed → started (.dieStart .perstAssert) .starting) ∧
    (s.boot.running = true → s.safety.state = .failed → started (.dieStart .perstAssert) .failed) ∧
    (s.boot.running = true → s.safety.state = .starting → started .bootRomWatchdog .starting) ∧
    (s.safety.state ≠ .starting → exec .bootRomWatchdog s = .next s) ∧
    (∀ i : BringUpIn, s.boot.running = true → s.boot.broughtUp = false → s.power.pwrgd = true → ∃ t, exec (.bringUp i) s = .next t ∧
      t.boot.broughtUp = true ∧ t.boot.moduleNo = 4 * i.tray.val + i.slot.val ∧ t.boot.slot = i.slot.val ∧ t.boot.tray = i.tray.val ∧
      t.clk = s.clk ∧ t.work = s.work ∧ t.dram = s.dram ∧ t.power = s.power ∧
      (s.ledgerOk → t.ledgerOk ∧ ((∀ k ∈ i.torn0, k ∉ i.torn1) → LedgerKept s t)) ∧
      (s.safety.state = .failed → t.safety.state = .failed) ∧
      (∀ k, .partFails k ∈ i.findings → vital k = true → t.safety.state = .failed)) ∧
    (∀ i : BringUpIn, s.boot.broughtUp = true → exec (.bringUp i) s = .next s) ∧
    (s.boot.running = true → s.boot.broughtUp = true → s.safety.state = .starting → ∃ t, exec .ready s = .next t ∧
      t.safety.state = .ready ∧ (∀ u ∈ retiredBy s.nor.ledger0, u ∈ t.safety.retired) ∧ t.clk = s.clk ∧ t.work = s.work ∧
      t.dram = s.dram ∧ t.nor.ledger0 = s.nor.ledger0 ∧ t.boot.readyEvents = [] ∧
      ∀ e ∈ s.boot.readyEvents, Raised s t pfFn e.2.1 (s.clk.tick + 1)) ∧
    (s.safety.state ≠ .starting → exec .ready s = .next s)

/-- The MMC (R592, R593, R606, R615, R621, R622, R625, R626, R628, R158). A start and a return serve requests again with the stage's entry
logged; the watchdog and a power-up assert FAN_FULL_N; an evaluation of the fan curve takes the greatest level at once, falls by at most 5
and releases FAN_FULL_N unless the arrays are stopped. Keep-alives count for the die; three missing ones make its telemetry stale, and
nothing else of the die changes. -/
def Obligations.ManagementController : Prop :=
  ∀ s : State,
    (∃ t, exec .auxPowerUp s = .next t ∧ t.mmc.fanFull = true ∧ t.clk = s.clk ∧ t.work = s.work ∧ t.dram = s.dram ∧
       t.safety = s.safety ∧
      (t.mmc.state = .serving ∨ t.mmc.state = .absent) ∧ t.mmc.keys = s.mmc.keys) ∧
    (s.boot.running = true → s.mmc.state = .serving →
      exec .keepAlive s = .next { s with safety := { s.safety with missedAlive := 0, staleNext := false } }) ∧
    (s.boot.running = true → s.mmc.state = .rebuilding →
      exec .keepAlive s = .next { s with safety := { s.safety with missedAlive := 0 } }) ∧
    (s.mmc.state = .absent → exec .keepAlive s = .next s ∧ (∀ i, exec (.sensorRefresh i) s = .next s) ∧
      exec .fanCurveEvaluation s = .next s ∧ exec .mmcActivationRestart s = .next s) ∧
    (s.boot.running = true → exec .telemetryStale s = .next { s with safety := { s.safety with missedAlive := 3, staleNext := true } }) ∧
    (∃ t, exec .mmcWatchdog s = .next t ∧ t.mmc.state = .absent ∧ t.mmc.fanFull = true ∧ t.mmc.keys = s.mmc.keys ∧
      t.mmc.log = s.mmc.log ∧ t.clk = s.clk ∧ t.work = s.work ∧ t.host = s.host ∧ t.safety = s.safety ∧ t.power = s.power ∧
      t.nor.ledger0 = s.nor.ledger0) ∧
    (s.mmc.state = .rebuilding ∨ s.mmc.state = .serving → ∃ t, exec .mmcReturn s = .next t ∧ t.mmc.state = .serving ∧
      (s.boot.running = true → t.safety.missedAlive = 0 ∧ t.safety.staleNext = false) ∧
      (s.safety.arraysStopped = false → t.mmc.fanFull = false ∧ t.safety.fanFull = false) ∧
      (s.nor.writesStopped = false → t.power.heldTrip = none) ∧ t.clk = s.clk ∧ t.work = s.work ∧ t.host = s.host) ∧
    (s.mmc.restartDue = false → exec .mmcActivationRestart s = .next s) ∧
    (s.mmc.restartDue = true → s.mmc.state ≠ .absent → ∃ t, exec .mmcActivationRestart s = .next t ∧
      (t.mmc.state = .rebuilding ∨ t.mmc.state = .absent) ∧ t.mmc.restartDue = false ∧ t.mmc.keys = s.mmc.keys ∧ t.clk = s.clk ∧
      t.work = s.work) ∧
    (s.mmc.state = .serving → ∃ t, exec .fanCurveEvaluation s = .next t ∧
      t.mmc.fan = (if s.mmc.sensors.dram.any (fun t => t.any (fun t => decide (105 < t))) then 100
        else max (fanDemand s.mmc.sensors) (s.mmc.fan - 5)) ∧
      (s.safety.arraysStopped = false → t.mmc.fanFull = false ∧ t.safety = { s.safety with fanFull := false }) ∧
      (s.safety.arraysStopped = true → t.mmc.fanFull = s.mmc.fanFull ∧ t.safety = s.safety) ∧
      t.clk = s.clk ∧ t.work = s.work ∧ t.host = s.host ∧ t.power = s.power) ∧
    (∀ i : SensorIn, s.mmc.state ≠ .absent → exec (.sensorRefresh i) s = .next { s with mmc := { s.mmc with sensors := i } })

/-! ### Management and test port (18_management_power.md, 19_firmware_update.md) -/

/-- Requests to the MMC (R612-R617, R627, Tables 18.4 to 18.6). An SMBus transaction that is not addressed to the MMC, or whose PEC is wrong, and
a request that cannot reach it change nothing; while it is absent or rebuilds its state PLDM answers ERROR_NOT_READY, vendor commands NOT_READY and
MCTP control nothing. Each command served gets its one response, over the path it came by; those that only report change nothing but that, and those
that set an endpoint ID, terminus ID, event receiver, key or AUTO_RETRY set it where the value is one that may be set. TOD_ARM from PCIe VDM is
NOT_PERMITTED, a value of no whole seconds INVALID_FIELD, another value goes to the die. -/
def Obligations.ManagementRequestsAreServed : Prop :=
  ∀ (p : MgmtPath) (s : State),
    let reports (i : Instr) (ty cmd code : Nat) (data : List Byte) : Prop := exec i s = .next (s.respond p ty cmd code data)
    let sets (i : Instr) (ty cmd : Nat) (m : Mmc) (data : List Byte) : Prop :=
      exec i s = .next { s with mmc := { m with
        response := some { smbus := masters p, msgType := ty, command := cmd, code := 0, data := data } } }
    let simple : List (Instr × Nat × Nat) :=
      [(.getEndpointId ⟨p⟩, 0, 0x02), (.getEndpointUuid ⟨p⟩, 0, 0x03), (.getMessageTypeSupport ⟨p⟩, 0, 0x05), (.getTid ⟨p⟩, 1, 0x002),
       (.getPldmTypes ⟨p⟩, 1, 0x004), (.getEventReceiver ⟨p⟩, 1, 0x205), (.pollForPlatformEventMessage ⟨p⟩, 1, 0x20B),
       (.getPdrRepositoryInfo ⟨p⟩, 1, 0x250), (.getFruRecordTableMetadata ⟨p⟩, 1, 0x401), (.getFruRecordTable ⟨p⟩, 1, 0x402),
       (.queryDeviceIdentifiers ⟨p⟩, 1, 0x501), (.getFirmwareParameters ⟨p⟩, 1, 0x502)]
    (∀ t, p = .smbus t → t.address.toNat ≠ 0x60 + s.boot.slot ∨ t.pec = false ∨ s.mmc.state = .absent → s.access p = .silent) ∧
    (∀ t, p = .smbus t → t.address.toNat = 0x60 + s.boot.slot → t.pec = true → t.kHz ∈ [100, 400, 1000] → s.mmc.state = .serving →
      s.access p = .serve) ∧
    (s.access p = .silent → ∀ x ∈ simple, exec x.1 s = .next s) ∧
    (s.access p = .notReady → ∀ x ∈ simple, (x.2.1 = 0 → exec x.1 s = .next s) ∧ (x.2.1 = 1 → reports x.1 1 x.2.2 4 [])) ∧
    (s.access p = .notReady → ∀ v, reports (.autoRetry ⟨p, v⟩) 0x7E 0x05 1 [] ∧ reports (.modelKeyClear ⟨p, v⟩) 0x7E 0x03 1 [] ∧
      reports (.hotswapLogRead ⟨p, v⟩) 0x7E 0x04 1 [] ∧ (∀ t k, reports (.modelKeySet ⟨p, t, k⟩) 0x7E 0x02 1 []) ∧
      ∀ n, reports (.todArm ⟨p, n⟩) 0x7E 0x01 1 []) ∧
    (s.access p = .serve →
      reports (.getEndpointId ⟨p⟩) 0 0x02 0 (s.mmc.eid :: Config.mgmtData 0x02 0) ∧
      reports (.getEndpointUuid ⟨p⟩) 0 0x03 0 Config.uuid ∧
      reports (.getMessageTypeSupport ⟨p⟩) 0 0x05 0 [3, 0x00, 0x01, 0x7E] ∧
      reports (.getTid ⟨p⟩) 1 0x002 0 [s.mmc.tid] ∧
      reports (.getPldmTypes ⟨p⟩) 1 0x004 0 [0x35, 0, 0, 0, 0, 0, 0, 0] ∧
      reports (.getEventReceiver ⟨p⟩) 1 0x205 0 [s.mmc.receiver.getD 0] ∧
      reports (.getPdrRepositoryInfo ⟨p⟩) 1 0x250 0 (Config.mgmtData 0x250 0) ∧
      reports (.getFruRecordTableMetadata ⟨p⟩) 1 0x401 0 (Config.mgmtData 0x401 0) ∧
      reports (.getFruRecordTable ⟨p⟩) 1 0x402 0 (Config.mgmtData 0x402 0) ∧
      reports (.queryDeviceIdentifiers ⟨p⟩) 1 0x501 0 (le 2 Config.vendorId.toNat ++ Config.mgmtData 0x501 0) ∧
      reports (.getFirmwareParameters ⟨p⟩) 1 0x502 0 (s.componentBytes 2 ++ s.componentBytes 3) ∧
      (s.mmc.events = [] → reports (.pollForPlatformEventMessage ⟨p⟩) 1 0x20B 0 []) ∧
      (∀ e es, s.mmc.events = e :: es →
        sets (.pollForPlatformEventMessage ⟨p⟩) 1 0x20B { s.mmc with events := es } (le 2 e.1 ++ leS 4 e.2)) ∧
      (∀ v : Byte,
        (v = 0 ∨ v = 0xFF → reports (.setEndpointId ⟨p, v⟩) 0 0x01 2 [] ∧ reports (.setTid ⟨p, v⟩) 1 0x001 2 []) ∧
        (v ≠ 0 → v ≠ 0xFF →
          sets (.setEndpointId ⟨p, v⟩) 0 0x01 { s.mmc with eid := v } (Config.mgmtData 0x01 v.toNat) ∧
          sets (.setTid ⟨p, v⟩) 1 0x001 { s.mmc with tid := v } []) ∧
        sets (.setEventReceiver ⟨p, v⟩) 1 0x204 { s.mmc with receiver := if v = 0 then none else some v } [] ∧
        (v ∈ [0x00, 0x01, 0x7E, 0xFF] → reports (.getMctpVersionSupport ⟨p, v⟩) 0 0x04 0 (Config.mgmtData 0x04 v.toNat)) ∧
        (v ∉ [0x00, 0x01, 0x7E, 0xFF] → reports (.getMctpVersionSupport ⟨p, v⟩) 0 0x04 0x80 []) ∧
        (v ≠ 0 → reports (.getVendorDefinedMessageSupport ⟨p, v⟩) 0 0x06 2 []) ∧
        (v = 0 → ∃ d, reports (.getVendorDefinedMessageSupport ⟨p, v⟩) 0 0x06 0 d) ∧
        (v ∈ [0, 2, 4, 5] → reports (.getPldmVersion ⟨p, v⟩) 1 0x003 0 (Config.mgmtData 0x003 v.toNat) ∧
          ∃ d, reports (.getPldmCommands ⟨p, v⟩) 1 0x005 0 d ∧ d.length = 32) ∧
        (v ∉ [0, 2, 4, 5] → reports (.getPldmVersion ⟨p, v⟩) 1 0x003 0x83 [] ∧ reports (.getPldmCommands ⟨p, v⟩) 1 0x005 0x83 []) ∧
        (2 ≤ v.toNat → reports (.autoRetry ⟨p, v⟩) 0x7E 0x05 2 []) ∧
        (v.toNat < 2 → s.nor.writesStopped = false → sets (.autoRetry ⟨p, v⟩) 0x7E 0x05 { s.mmc with autoRetry := v == 1 } []) ∧
        (∀ e, s.mmc.log[v.toNat]? = some e → reports (.hotswapLogRead ⟨p, v⟩) 0x7E 0x04 0 e.bytes) ∧
        (s.mmc.log[v.toNat]? = none → reports (.hotswapLogRead ⟨p, v⟩) 0x7E 0x04 2 []) ∧
        (16 ≤ v.toNat → reports (.modelKeyClear ⟨p, v⟩) 0x7E 0x03 2 [] ∧ ∀ k, reports (.modelKeySet ⟨p, v, k⟩) 0x7E 0x02 2 []) ∧
        (v.toNat < 16 → s.nor.writesStopped = false → ∃ t, exec (.modelKeyClear ⟨p, v⟩) s = .next t ∧ t = { s with mmc := t.mmc } ∧
          t.mmc.keys = s.mmc.keys.filter (fun k => k.1 != v.toNat)) ∧
        (∀ k, v.toNat < 16 → k.length = 97 → k.head? = some 4 → s.nor.writesStopped = false →
          ∃ t, exec (.modelKeySet ⟨p, v, k⟩) s = .next t ∧ t = { s with mmc := t.mmc } ∧
            t.mmc.keys = s.mmc.keys.filter (fun x => x.1 != v.toNat) ++ [(v.toNat, k)] ∧
            (s.isReady = true → t.mmc.keysDue = s.mmc.keysDue ++ [(v.toNat, some k)]))) ∧
      (∀ v : U16,
        reports (.getPdr ⟨p, v⟩) 1 0x251 0 (Config.mgmtData 0x251 v.toNat) ∧
        (∀ r, s.sensor v.toNat = some r → reports (.getSensorReading ⟨p, v⟩) 1 0x211 0 (readingBytes r)) ∧
        (s.sensor v.toNat = none → reports (.getSensorReading ⟨p, v⟩) 1 0x211 0x80 []) ∧
        (v = 44 → reports (.getStateSensorReadings ⟨p, v⟩) 1 0x221 0 [BitVec.ofNat 8 s.power.sensor]) ∧
        (v = 43 → s.safety.failCause = none →
          reports (.getStateSensorReadings ⟨p, v⟩) 1 0x221 0 [BitVec.ofNat 8 (moduleStateCode s.safety.state)]) ∧
        (v ≠ 43 → v ≠ 44 → reports (.getStateSensorReadings ⟨p, v⟩) 1 0x221 0x80 [])) ∧
      (∀ n : U64,
        (∀ f, p = .vdm f → reports (.todArm ⟨p, n⟩) 0x7E 0x01 3 []) ∧
        (∀ t, p = .smbus t → n.toNat % 1000000000 ≠ 0 → reports (.todArm ⟨p, n⟩) 0x7E 0x01 2 []) ∧
        (∀ t, p = .smbus t → n.toNat % 1000000000 = 0 → s.dead = false → s.clk.fromMmc = none →
          exec (.todArm ⟨p, n⟩) s = .next { s with clk := { s.clk with fromMmc := some n.toNat } })))

/-- The IEEE 1149.1 port (R597). Each of its four instructions selects itself and shifts as many bits out as in: BYPASS one clock later, IDCODE
behind the identification code, SAMPLE/PRELOAD and EXTEST from the pins into the boundary-scan register. EXTEST alone drives the pins. -/
def Obligations.TestPortShiftsItsRegisters : Prop :=
  ∀ (i : JtagIn) (s : State),
    exec (.bypass i) s = .next { s with jtag := { s.jtag with
      instr := .bypass, driven := none, out := (false :: i.bits).take i.bits.length } } ∧
    exec (.idcode i) s = .next { s with jtag := { s.jtag with
      instr := .idcode, driven := none, out := ((List.range 32).map Config.idcode.getLsbD ++ i.bits).take i.bits.length } } ∧
    (∃ j : Jtag, exec (.samplePreload i) s = .next { s with jtag := j, safety := { s.safety with draws := s.safety.draws + 1 } } ∧
      j.instr = .samplePreload ∧ j.driven = none ∧ j.out.length = i.bits.length ∧ (i.bits ≠ [] → j.scan = i.bits)) ∧
    ∃ j : Jtag, exec (.extest i) s = .next { s with jtag := j, safety := { s.safety with draws := s.safety.draws + 1 } } ∧
      j.instr = .extest ∧ j.driven = some j.scan ∧ j.out.length = i.bits.length ∧ (i.bits ≠ [] → j.scan = i.bits)

/-- A firmware update over PLDM (R634-R636, R639, R646, R647). A component is held by one path at a time; the download goes to its idle slot
and leaves the running one; activation needs a verified slot; out of update mode a command answers NOT_IN_UPDATE_MODE; a cancellation gives
the component back. -/
def Obligations.PldmUpdate : Prop :=
  ∀ (p : MgmtPath) (s : State), s.access p = .serve →
    let reports (i : Instr) (cmd code : Nat) (data : List Byte) : Prop := exec i s = .next (s.respond p 1 cmd code data)
    let answered (t : State) (cmd : Nat) : Prop := (∃ r, t.mmc.response = some r ∧ r.msgType = 1 ∧ r.command = cmd ∧ r.code = 0) ∧
      t.clk = s.clk ∧ t.host = s.host ∧ t.work = s.work ∧ t.nor.ledger0 = s.nor.ledger0
    reports (.getStatus ⟨p⟩) 0x51B 0 (le 1 s.updateState ++ Config.mgmtData 0x51B s.updateState) ∧
    (∀ c : U16, c ≠ 2 → c ≠ 3 → reports (.requestUpdate ⟨p, c⟩) 0x510 2 []) ∧
    (s.mmc.update = none →
      (∀ c, reports (.passComponentTable ⟨p, c⟩) 0x513 0x80 []) ∧ (∀ c d, reports (.updateComponent ⟨p, c, d⟩) 0x514 0x80 []) ∧
      reports (.activateFirmware ⟨p⟩) 0x51A 0x80 [] ∧ reports (.cancelUpdateComponent ⟨p⟩) 0x51C 0x80 [] ∧
      reports (.cancelUpdate ⟨p⟩) 0x51D 0x80 []) ∧
    (∀ c : U16, c = 2 ∨ c = 3 →
      (s.mmc.update ≠ none ∨ (s.fw c.toNat).holder ≠ none → reports (.requestUpdate ⟨p, c⟩) 0x510 0x81 []) ∧
      (s.mmc.update = none → (s.fw c.toNat).holder = none → ∃ t, exec (.requestUpdate ⟨p, c⟩) s = .next t ∧ answered t 0x510 ∧
        t.mmc.update = some { passed := [], component := none, activating := false } ∧ (t.fw c.toNat).holder = some .pldm ∧
        (t.fw c.toNat).slotA = (s.fw c.toNat).slotA ∧ (t.fw c.toNat).slotB = (s.fw c.toNat).slotB)) ∧
    (∀ u, s.mmc.update = some u →
      (∀ c : U16, c = 2 ∨ c = 3 → ∃ t, exec (.passComponentTable ⟨p, c⟩) s = .next t ∧ answered t 0x513 ∧
        t.mmc.update = some { u with passed := c.toNat :: u.passed } ∧ t.nor = s.nor) ∧
      (∀ (c : U16) (d : List Byte), c = 2 ∨ c = 3 →
        (c.toNat ∉ u.passed ∨ (s.fw c.toNat).downloadBarred .pldm = true ∨ d = [] ∨ slotSize c.toNat < d.length →
          reports (.updateComponent ⟨p, c, d⟩) 0x514 0x84 []) ∧
        (c.toNat ∈ u.passed → (s.fw c.toNat).downloadBarred .pldm = false → d ≠ [] → d.length ≤ slotSize c.toNat →
          s.nor.writesStopped = false → ∃ t, exec (.updateComponent ⟨p, c, d⟩) s = .next t ∧ answered t 0x514 ∧
            t.mmc.update = some { u with component := some c.toNat } ∧ (t.fw c.toNat).holder = some .pldm ∧
            (t.fw c.toNat).idleSlot.state = .downloading ∧ (t.fw c.toNat).idleSlot.image = d ∧
            ((s.fw c.toNat).running = 1 ∨ (s.fw c.toNat).running = 2 →
              (t.fw c.toNat).slot (s.fw c.toNat).running = (s.fw c.toNat).slot (s.fw c.toNat).running))) ∧
      (∀ c, u.component = some c →
        ((s.fw c).idleSlot.state = .verified → ∃ t, exec (.activateFirmware ⟨p⟩) s = .next t ∧ answered t 0x51A ∧
          t.mmc.update = some { u with activating := true } ∧ t.nor = s.nor) ∧
        ((s.fw c).idleSlot.state ≠ .verified → reports (.activateFirmware ⟨p⟩) 0x51A 0x84 []) ∧
        ∃ t, exec (.cancelUpdateComponent ⟨p⟩) s = .next t ∧ answered t 0x51C ∧
          t.mmc.update = some { u with component := none, activating := false }) ∧
      (u.component = none → reports (.activateFirmware ⟨p⟩) 0x51A 0x84 [] ∧ reports (.cancelUpdateComponent ⟨p⟩) 0x51C 0x84 []) ∧
      ∃ t, exec (.cancelUpdate ⟨p⟩) s = .next t ∧ answered t 0x51D ∧ t.mmc.update = none ∧
        ∀ c, c = 2 ∨ c = 3 → (t.fw c).holder ≠ some .pldm ∧ (t.fw c).running = (s.fw c).running ∧ (t.fw c).ptr0 = (s.fw c).ptr0)
end

