-- ==== Sys2Proof/Laws/Memory.lean ====
section
/-! SUPPORT. The laws of the sparse memories: every operation keeps the canonical form, a read after a write gives what was written,
and a write leaves every other place alone; then the same for a channel's write queue (13_memory_qos.md, R451-R454). -/

namespace Sys2Proof.Machine

/-! ### One byte -/

/-- The canonical form, entry by entry. -/
theorem Memory.wf_cons (a : Nat) (b : Byte) (m : Memory) :
    Memory.wf ((a, b) :: m) = true ↔ b ≠ 0 ∧ (∀ x ∈ m, a < x.1) ∧ Memory.wf m = true := by
  induction m generalizing a b with
  | nil => simp [Memory.wf]
  | cons x m ih =>
    obtain ⟨c, d⟩ := x
    simp only [Memory.wf, Bool.and_eq_true, decide_eq_true_eq, bne_iff_ne, ne_eq, List.mem_cons, forall_eq_or_imp]
    constructor
    · rintro ⟨⟨h1, h2⟩, h3⟩
      exact ⟨h2, ⟨h1, fun y hy => Nat.lt_trans h1 (((ih c d).1 h3).2.1 y hy)⟩, h3⟩
    · rintro ⟨h1, ⟨h2, _⟩, h3⟩
      exact ⟨⟨h2, h1⟩, h3⟩

theorem Memory.wf_nil : Memory.wf [] = true := rfl

/-- A key below every listed one reads 0. -/
theorem Memory.get_of_lt {m : Memory} {a : Nat} (h : ∀ x ∈ m, a < x.1) : m.get a = 0 := by
  induction m with
  | nil => rfl
  | cons x m ih =>
    simp only [List.mem_cons, forall_eq_or_imp] at h
    simp only [Memory.get, Nat.ne_of_gt h.1, if_false]
    exact ih h.2

/-- The keys after a write are those before and the written one. -/
theorem Memory.mem_set {m : Memory} {a : Nat} {v : Byte} {x : Nat × Byte} (h : x ∈ m.set a v) : x.1 = a ∨ x ∈ m := by
  induction m with
  | nil => unfold Memory.set at h; split at h <;> simp_all
  | cons y m ih =>
    obtain ⟨k, b⟩ := y
    unfold Memory.set at h
    split at h
    · split at h
      · exact .inr h
      · exact (List.mem_cons.1 h).imp (fun e => by rw [e]) id
    · split at h
      · split at h
        · exact .inr (List.mem_cons_of_mem _ h)
        · exact (List.mem_cons.1 h).imp (fun e => by rw [e]) (List.mem_cons_of_mem _)
      · rcases List.mem_cons.1 h with rfl | h
        · simp
        · rcases ih h with h | h
          · exact .inl h
          · exact .inr (List.mem_cons_of_mem _ h)

/-- Writing a byte keeps the canonical form. -/
theorem Memory.wf_set {m : Memory} (a : Nat) (v : Byte) (h : Memory.wf m = true) : Memory.wf (m.set a v) = true := by
  induction m with
  | nil => unfold Memory.set; split <;> simp_all [Memory.wf]
  | cons y m ih =>
    obtain ⟨k, b⟩ := y
    have hc := (Memory.wf_cons k b m).1 h
    unfold Memory.set
    split
    · rename_i hk
      split
      · exact h
      · rename_i hv
        refine (Memory.wf_cons _ _ _).2 ⟨hv, ?_, h⟩
        simp only [List.mem_cons, forall_eq_or_imp]
        exact ⟨hk, fun x hx => Nat.lt_trans hk (hc.2.1 x hx)⟩
    · split
      · rename_i hk
        subst hk
        split
        · exact hc.2.2
        · rename_i hv
          exact (Memory.wf_cons _ _ _).2 ⟨hv, hc.2.1, hc.2.2⟩
      · rename_i h1 h2
        refine (Memory.wf_cons _ _ _).2 ⟨hc.1, fun x hx => ?_, ih hc.2.2⟩
        rcases Memory.mem_set hx with h3 | h3
        · omega
        · exact hc.2.1 x h3

/-- Reading after a write of one byte. -/
theorem Memory.get_set {m : Memory} (h : Memory.wf m = true) (a : Nat) (v : Byte) (x : Nat) :
    (m.set a v).get x = if x = a then v else m.get x := by
  induction m with
  | nil =>
    unfold Memory.set
    by_cases hx : x = a
    · rw [if_pos hx, hx]
      split <;> simp_all [Memory.get]
    · rw [if_neg hx]
      split
      · rfl
      · simp [Memory.get, Ne.symm hx]
  | cons y m ih =>
    obtain ⟨k, b⟩ := y
    have hc := (Memory.wf_cons k b m).1 h
    unfold Memory.set
    split
    · rename_i hk
      split
      · rename_i hv
        split
        · rename_i hx
          subst hx hv
          exact Memory.get_of_lt (by
            simp only [List.mem_cons, forall_eq_or_imp]
            exact ⟨hk, fun y hy => Nat.lt_trans hk (hc.2.1 y hy)⟩)
        · rfl
      · by_cases hx : x = a
        · rw [if_pos hx, hx, Memory.get, if_pos rfl]
        · rw [if_neg hx, Memory.get, if_neg (Ne.symm hx)]
    · split
      · rename_i hk
        subst hk
        split
        · rename_i hv
          split
          · rename_i hx
            subst hx hv
            exact Memory.get_of_lt hc.2.1
          · rename_i hx
            simp only [Memory.get, Ne.symm hx, if_false]
        · by_cases hx : x = a
          · simp [Memory.get, hx]
          · simp [Memory.get, hx, Ne.symm hx]
      · rename_i h1 h2
        simp only [Memory.get, ih hc.2.2]
        by_cases hx : x = a
        · subst hx; simp [Ne.symm h2]
        · simp [hx]

/-! ### Runs of bytes -/

theorem Memory.wf_write {m : Memory} (h : Memory.wf m = true) (a : Nat) (bs : List Byte) : Memory.wf (m.write a bs) = true := by
  induction bs generalizing m a with
  | nil => exact h
  | cons b bs ih => exact ih (Memory.wf_set a b h) (a + 1)

theorem Memory.wf_writeEn {m : Memory} (h : Memory.wf m = true) (a : Nat) (bs : List Byte) (es : List Bool) :
    Memory.wf (m.writeEn a bs es) = true := by
  induction bs generalizing m a es with
  | nil => unfold Memory.writeEn; exact h
  | cons b bs ih =>
    cases es with
    | nil => exact h
    | cons e es =>
      unfold Memory.writeEn
      refine ih ?_ (a + 1) es
      split
      · exact Memory.wf_set a b h
      · exact h

theorem Memory.wf_filter {m : Memory} (h : Memory.wf m = true) (p : Nat × Byte → Bool) : Memory.wf (m.filter p) = true := by
  induction m with
  | nil => rfl
  | cons x m ih =>
    have hc := (Memory.wf_cons x.1 x.2 m).1 h
    rw [List.filter_cons]
    split
    · exact (Memory.wf_cons x.1 x.2 _).2 ⟨hc.1, fun y hy => hc.2.1 y (List.mem_filter.1 hy).1, ih hc.2.2⟩
    · exact ih hc.2.2

/-- Reading after a write of a run of bytes under enables. -/
theorem Memory.get_writeEn {m : Memory} (h : Memory.wf m = true) (a : Nat) (bs : List Byte) (es : List Bool) (x : Nat) :
    (m.writeEn a bs es).get x =
      if a ≤ x ∧ x < a + bs.length ∧ es.getD (x - a) false = true then bs.getD (x - a) 0 else m.get x := by
  induction bs generalizing m a es with
  | nil =>
    unfold Memory.writeEn
    rw [if_neg]
    simp only [List.length_nil]
    omega
  | cons b bs ih =>
    cases es with
    | nil => simp [Memory.writeEn]
    | cons e es =>
      unfold Memory.writeEn
      rw [ih (by split; exact Memory.wf_set a b h; exact h) (a + 1) es]
      have hg : (if e = true then m.set a b else m).get x = if x = a ∧ e = true then b else m.get x := by
        split
        · rename_i he
          simp [Memory.get_set h, he]
        · rename_i he
          simp [he]
      rw [hg]
      rcases Nat.lt_trichotomy x a with hx | hx | hx
      · have h1 : ¬ a + 1 ≤ x := by omega
        have h2 : ¬ a ≤ x := by omega
        have h3 : x ≠ a := by omega
        simp [h1, h2, h3]
      · subst hx
        have h1 : ¬ x + 1 ≤ x := by omega
        simp [h1]
      · obtain ⟨n, rfl⟩ : ∃ n, x = a + 1 + n := ⟨x - a - 1, by omega⟩
        have h3 : ¬ (a + 1 + n = a) := by omega
        have h4 : a + 1 + n - a = n + 1 := by omega
        have h5 : a + 1 + n - (a + 1) = n := by omega
        simp only [h3, h4, h5, false_and, if_false, List.length_cons, List.getD_cons_succ]
        by_cases hn : n < bs.length
        · have h6 : a + 1 + n < a + 1 + bs.length := by omega
          have h7 : a + 1 + n < a + (bs.length + 1) := by omega
          have h8 : a ≤ a + 1 + n := by omega
          simp [h6, h7, h8]
        · have h6 : ¬ a + 1 + n < a + 1 + bs.length := by omega
          have h7 : ¬ a + 1 + n < a + (bs.length + 1) := by omega
          simp [h6, h7]

/-- Zeroing by a predicate on keys. -/
theorem Memory.get_filter {m : Memory} (p : Nat → Bool) (x : Nat) :
    Memory.get (m.filter (fun b => p b.1)) x = if p x then m.get x else 0 := by
  induction m with
  | nil => simp [Memory.get]
  | cons y m ih =>
    obtain ⟨k, b⟩ := y
    simp only [List.filter_cons, Memory.get]
    by_cases hp : p k = true
    · simp only [hp, if_true, Memory.get, ih]
      by_cases hk : k = x
      · subst hk; simp [hp]
      · simp [hk]
    · rw [if_neg hp, ih]
      by_cases hk : k = x
      · subst hk; simp [hp]
      · simp [hk]

/-- A read gives the bytes asked for. -/
theorem Memory.length_read (m : Memory) (a n : Nat) : (m.read a n).length = n := by
  induction n generalizing a with
  | zero => rfl
  | succ n ih => simp [Memory.read, ih]

/-! ### A channel's write queue -/

theorem mergeBytes_length (os ns : List Byte) (es : List Bool) : (mergeBytes os ns es).length = os.length := by
  induction os generalizing ns es with
  | nil => unfold mergeBytes; rfl
  | cons o os ih =>
    cases ns with
    | nil => rfl
    | cons n ns =>
      cases es with
      | nil => rfl
      | cons e es => simp [mergeBytes, ih]

/-- A merge keeps whole granules. -/
theorem queueOk_wqMerge {wq : List WqEntry} {g : Nat} {d : List Byte} {e : List Bool} (h : queueOk wq) (hg : g < 2 ^ 27)
    (hd : d.length = 32) (he : e.length = 32) : queueOk (wqMerge wq g d e) := by
  intro x hx
  unfold wqMerge at hx
  split at hx
  · simp only [updWhere, List.mem_map] at hx
    obtain ⟨y, hy, rfl⟩ := hx
    have := h y hy
    split
    · exact ⟨by simp [mergeBytes_length, this], by simp [this, he], this.2.2⟩
    · exact this
  · rcases List.mem_append.1 hx with hx | hx
    · exact h x hx
    · simp only [List.mem_singleton] at hx
      subst hx
      exact ⟨hd, he, hg⟩

/-- A write below the end of the channel's address space keeps whole granules. -/
theorem queueOk_wqWrite (fuel : Nat) {wq : List WqEntry} {a : Nat} {d : List Byte} {e : List Bool} (h : queueOk wq)
    (ha : a + d.length ≤ 2 ^ 32) (he : d.length ≤ e.length) : queueOk (wqWrite fuel wq a d e) := by
  induction fuel generalizing wq a d e with
  | zero => exact h
  | succ fuel ih =>
    unfold wqWrite
    split
    · exact h
    · rename_i hd
      have hpos : 0 < d.length := by
        cases d with
        | nil => simp at hd
        | cons _ _ => simp
      refine ih (queueOk_wqMerge h ?_ ?_ ?_) ?_ ?_
      · omega
      · simp only [List.length_append, List.length_replicate, List.length_take]; omega
      · simp only [List.length_append, List.length_replicate, List.length_take]; omega
      · simp only [List.length_drop]; omega
      · simp only [List.length_drop]; omega

/-- What a filter leaves in a queue are whole granules. -/
theorem queueOk_filter {wq : List WqEntry} (h : queueOk wq) (p : WqEntry → Bool) : queueOk (wq.filter p) :=
  fun x hx => h x (List.mem_filter.1 hx).1

theorem queueOk_nil : queueOk [] := by intro x hx; simp at hx

/-- Draining an entry writes its enabled bytes to DRAM and leaves every other byte. -/
theorem drainEntry_mem (s : State) (c : Channel) (e : WqEntry) :
    (s.drainEntry c e).dram.mem = Memory.writeEn s.dram.mem (dramKey c (32 * e.granule)) e.data e.enables := rfl

/-- DRAM and tile SRAM list nothing at reset. -/
theorem reset_mem_wf : Memory.wf State.reset.dram.mem = true ∧ Memory.wf State.reset.dram.sram = true := ⟨rfl, rfl⟩

end Sys2Proof.Machine
end

