-- ==== Sys2Proof/Laws/Frame.lean ====
section
/-! SUPPORT. The part of State that only a few operations move: the waiting commands, the tick, DRAM and
on-die memory, the channel write queues and the two ledgers; and, for each operation that leaves all of it
alone, the lemma that says so. A frame proof cites these and never unfolds the operation. -/

namespace Sys2Proof.Machine

/-- The part of a state that most operations leave alone: the queue of waiting commands, the tick, both
memories, the channel write queues and the two ledgers of the flash. -/
structure StateCore where
  pending : List Instr
  tick : Nat
  mem : Memory
  sram : Memory
  wqs : Vector (List WqEntry) 16
  ledger0 : List LedgerEntry
  ledger1 : List LedgerEntry
/-- The rarely moved part of a state. -/
def State.core (s : State) : StateCore :=
  { pending := s.pending, tick := s.clk.tick, mem := s.dram.mem, sram := s.dram.sram, wqs := s.dram.channels.map (·.wq),
    ledger0 := s.nor.ledger0, ledger1 := s.nor.ledger1 }
@[simp] theorem core_mk (s : State) (k : Clock) (n : Nor) (h : HostSide) (w : WorkSt) (p : Pools) (f : Fabric) (c : Chain) (x : Safety)
    (b : Boot) (pw : Power) (m : Mmc) (j : Jtag) (h1 : k.tick = s.clk.tick) (h2 : n.ledger0 = s.nor.ledger0)
    (h3 : n.ledger1 = s.nor.ledger1) :
    State.core ⟨k, h, w, p, s.dram, f, c, x, n, b, pw, m, j, s.pending⟩ = s.core := by
  simp only [State.core, h1, h2, h3]
@[simp] theorem core_foldl {α : Type} {f : State → α → State} (hf : ∀ s a, (f s a).core = s.core) (l : List α) (s : State) :
    (l.foldl f s).core = s.core := by
  induction l generalizing s with
  | nil => rfl
  | cons a l ih => exact (ih (f s a)).trans (hf s a)
@[simp] theorem core_foldl2 {α β : Type} {f : β × State → α → β × State} (hf : ∀ s a, (f s a).2.core = s.2.core) (l : List α) (s : β × State) :
    (l.foldl f s).2.core = s.2.core := by
  induction l generalizing s with
  | nil => rfl
  | cons a l ih => exact (ih (f s a)).trans (hf s a)
@[simp] theorem core_foldl1 {α β : Type} {f : State × β → α → State × β} (hf : ∀ s a, (f s a).1.core = s.1.core) (l : List α) (s : State × β) :
    (l.foldl f s).1.core = s.1.core := by
  induction l generalizing s with
  | nil => rfl
  | cons a l ih => exact (ih (f s a)).trans (hf s a)
theorem core_ext {t s : State} (h1 : t.pending = s.pending) (h2 : t.clk.tick = s.clk.tick) (h3 : t.dram.mem = s.dram.mem)
    (h4 : t.dram.sram = s.dram.sram) (h5 : t.dram.channels.map (·.wq) = s.dram.channels.map (·.wq))
    (h6 : t.nor.ledger0 = s.nor.ledger0) (h7 : t.nor.ledger1 = s.nor.ledger1) : t.core = s.core := by
  simp [State.core, h1, h2, h3, h4, h5, h6, h7]
@[simp] theorem core_atNext (s : State) (f : State → State) (hf : ∀ s, (f s).core = s.core) : (s.atNext f).core = s.core := by
  have := hf s.coming
  simp only [State.core, StateCore.mk.injEq] at this
  obtain ⟨h1, _, h3, h4, h5, h6, h7⟩ := this
  exact core_ext h1 rfl h3 h4 h5 h6 h7
@[simp] theorem core_modChannel (s : State) (c : Channel) (g : ChannelSt → ChannelSt) (hg : ∀ x, (g x).wq = x.wq) :
    (s.modChannel c g).core = s.core := by
  refine core_ext rfl rfl rfl rfl ?_ rfl rfl
  simp only [State.modChannel]
  ext i hi
  simp only [Vector.getElem_map, Vector.getElem_set]
  split
  · subst_vars; simp [hg, Vector.get]
  · rfl
@[simp] theorem State.withHost_core (s : State) (h : HostSide) : (State.withHost s h).core = s.core := by simp [State.withHost]
@[simp] theorem State.withWork_core (s : State) (w : WorkSt) : (State.withWork s w).core = s.core := by simp [State.withWork]
@[simp] theorem State.withSafety_core (s : State) (x : Safety) : (State.withSafety s x).core = s.core := by simp [State.withSafety]
@[simp] theorem State.modFn_core (s : State) (f : Fn) (g : FnState → FnState) : (State.modFn s f g).core = s.core := by
  simp [State.modFn]
@[simp] theorem State.modTenant_core (s : State) (t : Tenant) (g : TenantSt → TenantSt) : (State.modTenant s t g).core = s.core := by
  simp [State.modTenant]
@[simp] theorem State.raiseFull_core (s : State) (f : Fn) (code sev slot stream node : Nat) (detail : List Byte) :
    (State.raiseFull s f code sev slot stream node detail).core = s.core := by
  simp [State.raiseFull]
@[simp] theorem State.raise_core (s : State) (f : Fn) (code : Nat) (detail : List Byte) :
    (State.raise s f code detail).core = s.core := by
  simp [State.raise]
@[simp] theorem State.raiseStream_core (s : State) (f : Fn) (code handle : Nat) (detail : List Byte) :
    (State.raiseStream s f code handle detail).core = s.core := by
  simp [State.raiseStream]
@[simp] theorem State.raiseSlot_core (s : State) (f : Fn) (code slot : Nat) (detail : List Byte) :
    (State.raiseSlot s f code slot detail).core = s.core := by
  simp [State.raiseSlot]
@[simp] theorem State.raiseNode_core (s : State) (f : Fn) (code node : Nat) (detail : List Byte) :
    (State.raiseNode s f code node detail).core = s.core := by
  simp [State.raiseNode]
@[simp] theorem State.raiseAll_core (s : State) (fs : List Fn) (code : Nat) (detail : List Byte) :
    (State.raiseAll s fs code detail).core = s.core := by
  simp [State.raiseAll]
@[simp] theorem State.addressFault_core (s : State) (f : Fn) (slot a : Nat) (writing : Bool) :
    (State.addressFault s f slot a writing).core = s.core := by
  simp [State.addressFault]
@[simp] theorem State.modQueueId_core (s : State) (id : Nat) (g : Queue → Queue) : (State.modQueueId s id g).core = s.core := by
  simp [State.modQueueId]
@[simp] theorem State.modQueue_core (s : State) (f : Fn) (slot : Nat) (g : Queue → Queue) :
    (State.modQueue s f slot g).core = s.core := by
  simp [State.modQueue]
@[simp] theorem State.oweMsix_core (s : State) (f : Fn) (v : Option Nat) : (State.oweMsix s f v).core = s.core := by
  unfold State.oweMsix; (repeat' split) <;> simp
@[simp] theorem State.modClasp_core (s : State) (id : Nat) (g : Clasp → Clasp) : (State.modClasp s id g).core = s.core := by
  simp [State.modClasp]
@[simp] theorem State.signalDone_core (s : State) (h : CmdHead) : (State.signalDone s h).core = s.core := by
  unfold State.signalDone; split <;> simp
@[simp] theorem State.consume_core (s : State) (p : RingPos) : (State.consume s p).core = s.core := by simp [State.consume]
@[simp] theorem State.complete_core (s : State) (h : CmdHead) (opcode : Byte) (pos : Option RingPos) (a : Answer) :
    (State.complete s h opcode pos a).core = s.core := by
  unfold State.complete; dsimp only; (repeat' split) <;> simp
@[simp] theorem State.finishNow_core (s : State) (w : Work) (a : Answer) : (State.finishNow s w a).core = s.core := by
  simp [State.finishNow]
@[simp] theorem State.finishWork_core (s : State) (w : Work) (a : Answer) : (State.finishWork s w a).core = s.core := by
  simp [State.finishWork]
@[simp] theorem State.endWorks_core (s : State) : (State.endWorks s).core = s.core := by simp [State.endWorks]
@[simp] theorem State.modStream_core (s : State) (handle : Nat) (g : Machine.Stream → Machine.Stream) :
    (State.modStream s handle g).core = s.core := by
  simp [State.modStream]
@[simp] theorem State.modModel_core (s : State) (f : Fn) (id : Nat) (g : Model → Model) : (State.modModel s f id g).core = s.core := by
  simp [State.modModel]
@[simp] theorem State.touchEpoch_core (s : State) (f : Fn) : (State.touchEpoch s f).core = s.core := by
  unfold State.touchEpoch; split <;> simp
@[simp] theorem State.draw_core (s : State) : (State.draw s).2.core = s.core := by simp [State.draw]
@[simp] theorem State.hallmarkOne_core (s : State) (f : Fn) : (State.hallmarkOne s f).core = s.core := by
  unfold State.hallmarkOne; dsimp only; (repeat' split) <;> simp
@[simp] theorem State.hallmarkCommit_core (s : State) : (State.hallmarkCommit s).core = s.core := by simp [State.hallmarkCommit]
@[simp] theorem State.hallmarkStart_core (s : State) : (State.hallmarkStart s).core = s.core := by simp [State.hallmarkStart]
@[simp] theorem State.logError_core (s : State) (f : Fn) (bit : Nat) : (State.logError s f bit).core = s.core := by
  unfold State.logError; dsimp only; (repeat' split) <;> simp
@[simp] theorem State.postAt_core (s : State) (f : Fn) (slot a n : Nat) (make : Nat → Posted) :
    (State.postAt s f slot a n make).core = s.core := by
  unfold State.postAt; split <;> simp
@[simp] theorem State.unmask_core (s : State) (f : Fn) (v : Nat) : (State.unmask s f v).core = s.core := by
  unfold State.unmask; dsimp only; (repeat' split) <;> simp
@[simp] theorem State.owePending_core (s : State) (f : Fn) : (State.owePending s f).core = s.core := by
  unfold State.owePending; dsimp only; (repeat' split) <;> simp
@[simp] theorem State.writeSampleAllow_core (s : State) (v due : Nat) : (State.writeSampleAllow s v due).core = s.core := by
  simp [State.writeSampleAllow]
@[simp] theorem State.writeModuleReg_core (s : State) (off v due : Nat) : (State.writeModuleReg s off v due).core = s.core := by
  unfold State.writeModuleReg; dsimp only; (repeat' split) <;> simp
@[simp] theorem State.writeMsix_core (s : State) (f : Fn) (off v : Nat) : (State.writeMsix s f off v).core = s.core := by
  unfold State.writeMsix; dsimp only; (repeat' split) <;> simp
@[simp] theorem State.writeBar0_core (s : State) (f : Fn) (off v due : Nat) : (State.writeBar0 s f off v due).core = s.core := by
  unfold State.writeBar0; (repeat' split) <;> simp
@[simp] theorem State.logWrite_core (s : State) (f : Fn) (poisoned : Bool) : (State.logWrite s f poisoned).core = s.core := by
  unfold State.logWrite; (repeat' split) <;> simp
@[simp] theorem State.writeConfig_core (s : State) (f : Fn) (c : ConfigIn) : (State.writeConfig s f c).core = s.core := by
  unfold State.writeConfig; split <;> simp
@[simp] theorem State.sealFn_core (s : State) (f : Fn) : (State.sealFn s f).core = s.core := by
  unfold State.sealFn; dsimp only; (repeat' split) <;> simp
@[simp] theorem State.takeSeal_core (s : State) (f : Fn) : (State.takeSeal s f).core = s.core := by
  unfold State.takeSeal; dsimp only; (repeat' split) <;> simp
@[simp] theorem State.takeSeals_core (s : State) : (State.takeSeals s).core = s.core := by simp [State.takeSeals]
@[simp] theorem State.triggerOne_core (s : State) (f : Fn) : (State.triggerOne s f).core = s.core := by
  unfold State.triggerOne; split <;> simp
@[simp] theorem State.triggerTenants_core (s : State) : (State.triggerTenants s).core = s.core := by simp [State.triggerTenants]
@[simp] theorem State.triggerPf_core (s : State) : (State.triggerPf s).core = s.core := by unfold State.triggerPf; split <;> simp
@[simp] theorem State.raiseTimeNotes_core (s : State) (old : TimeMode) : (State.raiseTimeNotes s old).core = s.core := by
  unfold State.raiseTimeNotes; dsimp only; (repeat' first | split | refine core_foldl (fun _ _ => ?_) _ _ | refine (core_foldl (fun _ _ => ?_) _ _).trans ?_) <;> simp
@[simp] theorem State.endTimeSet_core (s : State) (head : Option CmdHead) (a : Answer) :
    (State.endTimeSet s head a).core = s.core := by
  unfold State.endTimeSet; split <;> simp
@[simp] theorem State.answerTod_core (s : State) (code : Nat) : (State.answerTod s code).core = s.core := by
  unfold State.answerTod; split <;> simp
@[simp] theorem State.supersede_core (s : State) : (State.supersede s).core = s.core := by
  unfold State.supersede; (repeat' split) <;> simp
@[simp] theorem State.arm_core (s : State) (value : Nat) (head : Option CmdHead) : (State.arm s value head).core = s.core := by
  simp [State.arm]
@[simp] theorem State.armFromMmc_core (s : State) : (State.armFromMmc s).core = s.core := by unfold State.armFromMmc; split <;> simp
@[simp] theorem State.reportRejects_core (s : State) : (State.reportRejects s).core = s.core := by simp [State.reportRejects]
@[simp] theorem State.readFailed_core (s : State) (f : Fn) (why : ReadFailure) : (State.readFailed s f why).core = s.core := by
  simp [State.readFailed]
@[simp] theorem State.stopRing_core (s : State) (f : Fn) (slot : Nat) (why : ReadFailure) :
    (State.stopRing s f slot why).core = s.core := by
  simp [State.stopRing]
@[simp] theorem State.ringFault_core (s : State) (q : Queue) : (State.ringFault s q).core = s.core := by
  unfold State.ringFault; split <;> simp
@[simp] theorem State.writeLost_core (s : State) (f : Fn) : (State.writeLost s f).core = s.core := by
  unfold State.writeLost; dsimp only; (repeat' split) <;> simp
@[simp] theorem State.writeEvents_core (s : State) (f : Fn) : (State.writeEvents s f).core = s.core := by
  unfold State.writeEvents; dsimp only; (repeat' split) <;> simp
@[simp] theorem refuse_core (s : State) (st : Status) : (refuse s st).1.core = s.core := by simp [refuse]
@[simp] theorem State.addRetireClasp_core (s : State) (t : Tenant) : (State.addRetireClasp s t).core = s.core := by
  unfold State.addRetireClasp; split <;> simp
@[simp] theorem applyTenantConfigure_core (p : TenantConfigureP) (a : State) : (applyTenantConfigure p a).1.core = a.core := by
  unfold applyTenantConfigure; dsimp only; (repeat' split) <;> simp
@[simp] theorem State.installPlan_core (s : State) (new : BitVec 8) : (State.installPlan s new).core = s.core := by
  simp [State.installPlan]
@[simp] theorem applyPartitionPlan_core (p : PartitionPlanP) (a : State) : (applyPartitionPlan p a).1.core = a.core := by
  unfold applyPartitionPlan; (repeat' split) <;> simp
@[simp] theorem State.dropQueue_core (s : State) (q : Queue) : (State.dropQueue s q).core = s.core := by simp [State.dropQueue]
@[simp] theorem applyQueueDestroy_core (h : CmdHead) (p : SlotP) (a : State) : (applyQueueDestroy h p a).1.core = a.core := by
  unfold applyQueueDestroy; (repeat' split) <;> simp
@[simp] theorem applyClaspDestroy_core (h : CmdHead) (p : ClaspP) (a : State) : (applyClaspDestroy h p a).1.core = a.core := by
  unfold applyClaspDestroy; (repeat' split) <;> simp
@[simp] theorem State.beginWork_core (s : State) (h : CmdHead) (op : Byte) (pos : Option RingPos) (k : WorkKind) :
    (State.beginWork s h op pos k).core = s.core := by
  simp [State.beginWork]
@[simp] theorem applyTimeSet_core (h : CmdHead) (pos : Option RingPos) (p : TimeSetP) (a : State) :
    (applyTimeSet h pos p a).1.core = a.core := by
  simp [applyTimeSet]
@[simp] theorem applyNop_core (a : State) : (applyNop a).1.core = a.core := by simp [applyNop]
@[simp] theorem State.modFw_core (s : State) (c : Nat) (g : FwComponent → FwComponent) : (State.modFw s c g).core = s.core := by
  unfold State.modFw; split <;> simp
@[simp] theorem applyFwDownloadChunk_core (h : CmdHead) (pos : Option RingPos) (p : FwChunkP) (a : State) :
    (applyFwDownloadChunk h pos p a).1.core = a.core := by
  unfold applyFwDownloadChunk; dsimp only; (repeat' split) <;> simp
@[simp] theorem State.closeDownload_core (s : State) (c : Nat) : (State.closeDownload s c).core = s.core := by
  unfold State.closeDownload; dsimp only; (repeat' split) <;> simp
@[simp] theorem applyFwVerify_core (h : CmdHead) (pos : Option RingPos) (p : ComponentP) (a : State) :
    (applyFwVerify h pos p a).1.core = a.core := by
  unfold applyFwVerify; dsimp only; (repeat' split) <;> simp
@[simp] theorem applyFwActivate_core (h : CmdHead) (pos : Option RingPos) (p : ComponentP) (a : State) :
    (applyFwActivate h pos p a).1.core = a.core := by
  unfold applyFwActivate; dsimp only; (repeat' split) <;> simp
@[simp] theorem State.activateFw_core (s : State) (c : Nat) : (State.activateFw s c).core = s.core := by
  unfold State.activateFw; split <;> simp
@[simp] theorem applyFwConfirm_core (h : CmdHead) (pos : Option RingPos) (p : ComponentP) (a : State) :
    (applyFwConfirm h pos p a).1.core = a.core := by
  unfold applyFwConfirm; dsimp only; (repeat' split) <;> simp
@[simp] theorem State.bootFail_core (s : State) (c : FailCause) : (State.bootFail s c).core = s.core := by simp [State.bootFail]
@[simp] theorem State.bootFirmware_core (s : State) (i : BringUpIn) : (State.bootFirmware s i).core = s.core := by
  unfold State.bootFirmware; dsimp only; (repeat' split) <;> simp
@[simp] theorem State.raiseReady_core (s : State) : (State.raiseReady s).core = s.core := by simp [State.raiseReady]
@[simp] theorem State.setLevels_core (s : State) : (State.setLevels s).core = s.core := by simp [State.setLevels]
@[simp] theorem State.raiseLevels_core (s before mid : State) : (State.raiseLevels s before mid).core = s.core := by
  unfold State.raiseLevels; dsimp only; (repeat' first | split | refine core_foldl (fun _ _ => ?_) _ _ | refine (core_foldl (fun _ _ => ?_) _ _).trans ?_) <;> simp
@[simp] theorem State.alloc_core (s : State) (row : Row) (bytes : Nat) (owner : Owner) (cls : Option ServiceClass) (job : Option FrameRef) (session : Option (Fn × Nat)) :
    (State.alloc s row bytes owner cls job session).2.core = s.core := by
  unfold State.alloc; dsimp only; (repeat' split) <;> simp
@[simp] theorem State.jobFault_core (s : State) (job : Option FrameRef) (cls : Option FaultClass) (unit : UnitRef) :
    (State.jobFault s job cls unit).core = s.core := by
  simp [State.jobFault]
@[simp] theorem State.closeOwner_core (s : State) (p : Nat) (o : Owner) (session : Option (Fn × Nat)) :
    (State.closeOwner s p o session).core = s.core := by
  unfold State.closeOwner; split <;> simp
@[simp] theorem State.reclaim_core (s : State) (c : ClosedOwner) : (State.reclaim s c).core = s.core := by
  unfold State.reclaim; dsimp only; (repeat' split) <;> simp
@[simp] theorem State.modPort_core (s : State) (i : Fin 72) (g : PortSt → PortSt) : (State.modPort s i g).core = s.core := by rfl
@[simp] theorem State.refuseRequest_core (s : State) (i : DramReqIn) : (State.refuseRequest s i).core = s.core := by rfl
@[simp] theorem State.eccReport_core (s : State) (c : Channel) (addr : Nat) (job : Option FrameRef) :
    (State.eccReport s c addr job).core = s.core := by
  simp [State.eccReport]
@[simp] theorem State.chargeBackground_core (s : State) (c : Channel) (raw : Nat) :
    (State.chargeBackground s c raw).core = s.core := by
  simp [State.chargeBackground]
@[simp] theorem State.setRefresh_core (s : State) (c : Channel) : (State.setRefresh s c).core = s.core := by simp [State.setRefresh]
@[simp] theorem execZqCalibration.zq_core (c : Channel) (s : State) : (execZqCalibration.zq c s).core = s.core := by
  simp [execZqCalibration.zq]
@[simp] theorem State.planPorts_core (s : State) (row : Row) : (State.planPorts s row).core = s.core := by simp [State.planPorts]
@[simp] theorem State.reportLate_core (s : State) : (State.reportLate s).core = s.core := by
  unfold State.reportLate; dsimp only; (repeat' first | split | refine core_foldl (fun _ _ => ?_) _ _ | refine (core_foldl (fun _ _ => ?_) _ _).trans ?_) <;> simp
@[simp] theorem State.memoryCommit_core (s : State) : (State.memoryCommit s).core = s.core := by simp [State.memoryCommit]
@[simp] theorem State.dropModel_core (s : State) (f : Fn) (id : Nat) : (State.dropModel s f id).core = s.core := by
  simp [State.dropModel]
@[simp] theorem State.loadResult_core (s : State) (f : Fn) (id bytes : Nat) (pkg : List Byte) :
    (State.loadResult s f id bytes pkg).1.core = s.core := by
  unfold State.loadResult; dsimp only; (repeat' split) <;> simp
@[simp] theorem applyModelUnload_core (h : CmdHead) (p : ModelP) (a : State) : (applyModelUnload h p a).1.core = a.core := by
  unfold applyModelUnload; (repeat' split) <;> simp
@[simp] theorem State.retuneModel_core (s : State) (fn : Fn) (id : Nat) : (State.retuneModel s fn id).core = s.core := by
  unfold State.retuneModel; dsimp only; (repeat' split) <;> simp
@[simp] theorem State.takeRetunes_core (s : State) : (State.takeRetunes s).core = s.core := by simp [State.takeRetunes]
@[simp] theorem applyCalibration_core (h : CmdHead) (p : CalibrationP) (a : State) : (applyCalibration h p a).1.core = a.core := by
  unfold applyCalibration; dsimp only; (repeat' split) <;> simp
@[simp] theorem State.overcommitCommit_core (s : State) : (State.overcommitCommit s).core = s.core := by simp [State.overcommitCommit]
@[simp] theorem State.addStream_core (s : State) (x : Machine.Stream) : (State.addStream s x).core = s.core := by
  simp [State.addStream]
@[simp] theorem applyStreamOpen_core (h : CmdHead) (p : StreamOpenP) (a : State) : (applyStreamOpen h p a).1.core = a.core := by
  unfold applyStreamOpen; (repeat' split) <;> simp
@[simp] theorem State.freeBuffer_core (s : State) (p handle : Nat) : (State.freeBuffer s p handle).core = s.core := by
  unfold State.freeBuffer; (repeat' split) <;> simp
@[simp] theorem State.freeBuffers_core (s : State) (p : Nat) (handles : List Nat) : (State.freeBuffers s p handles).core = s.core := by
  simp [State.freeBuffers]
@[simp] theorem State.beginClose_core (s : State) (x : Machine.Stream) : (State.beginClose s x).core = s.core := by
  simp [State.beginClose]
@[simp] theorem State.removeStream_core (s : State) (x : Machine.Stream) : (State.removeStream s x).core = s.core := by
  simp [State.removeStream]
@[simp] theorem applyStreamClose_core (h : CmdHead) (pos : Option RingPos) (p : HandleP) (a : State) :
    (applyStreamClose h pos p a).1.core = a.core := by
  unfold applyStreamClose; split <;> simp
@[simp] theorem State.endStream_core (s : State) (x : Machine.Stream) : (State.endStream s x).core = s.core := by
  unfold State.endStream; dsimp only; (repeat' split) <;> simp
@[simp] theorem State.endClosing_core (s : State) : (State.endClosing s).core = s.core := by simp [State.endClosing]
@[simp] theorem applyStreamModify_core (h : CmdHead) (p : StreamModifyP) (a : State) : (applyStreamModify h p a).1.core = a.core := by
  unfold applyStreamModify; dsimp only; (repeat' split) <;> simp
@[simp] theorem State.storeTable_core (s : State) (f : Fn) (x : Option Machine.Stream) (c : TableContent) :
    (State.storeTable s f x c).core = s.core := by
  unfold State.storeTable; (repeat' split) <;> simp
@[simp] theorem State.reportMalformed_core (s : State) (x : Machine.Stream) (d : IngestDesc) (off : Nat) :
    (State.reportMalformed s x d off).core = s.core := by
  unfold State.reportMalformed; split <;> simp
@[simp] theorem State.passEnded_core (s : State) (x : Machine.Stream) (d : IngestDesc) : (State.passEnded s x d).core = s.core := by
  simp [State.passEnded]
@[simp] theorem State.chunkRead_core (s : State) (f : Fn) (slot seq k : Nat) (g : Chunk → Chunk) :
    (State.chunkRead s f slot seq k g).core = s.core := by
  unfold State.chunkRead; (repeat' split) <;> simp
@[simp] theorem State.chunkFailed_core (s : State) (r : ReadRef) (k : Nat) (why : ReadFailure) :
    (State.chunkFailed s r k why).core = s.core := by
  unfold State.chunkFailed; split <;> simp
@[simp] theorem State.chunkData_core (s : State) (f : Fn) (slot seq k : Nat) (bs : List Byte) :
    (State.chunkData s f slot seq k bs).core = s.core := by
  unfold State.chunkData; dsimp only; (repeat' split) <;> simp
@[simp] theorem State.readTimesOut_core (s : State) (r : ReadRef) : (State.readTimesOut s r).core = s.core := by
  unfold State.readTimesOut; (repeat' split) <;> simp
@[simp] theorem State.reportDecode_core (s : State) (x : Machine.Stream) (f : Frame) (errs : List DecodeErr) (reordered : Bool) (concealed : Nat) :
    (State.reportDecode s x f errs reordered concealed).core = s.core := by
  unfold State.reportDecode; (repeat' split) <;> simp
@[simp] theorem State.doneWith_core (s : State) (x : Machine.Stream) (ps : List Nat) : (State.doneWith s x ps).core = s.core := by
  simp [State.doneWith]
@[simp] theorem State.endChunks_core (s : State) (x : Machine.Stream) (f : Frame) : (State.endChunks s x f).core = s.core := by
  simp [State.endChunks]
@[simp] theorem State.endFrame_core (s : State) (handle seq : Nat) (e : Ended) : (State.endFrame s handle seq e).core = s.core := by
  simp [State.endFrame]
@[simp] theorem State.closeDecode_core (s : State) (x : Machine.Stream) (f : Frame) : (State.closeDecode s x f).core = s.core := by
  unfold State.closeDecode; dsimp only; (repeat' split) <;> simp
@[simp] theorem State.closePrepare_core (s : State) (x : Machine.Stream) (f : Frame) : (State.closePrepare s x f).core = s.core := by
  simp [State.closePrepare]
@[simp] theorem State.closePost_core (s : State) (x : Machine.Stream) (f : Frame) : (State.closePost s x f).core = s.core := by
  simp [State.closePost]
@[simp] theorem State.closeEmit_core (s : State) (x : Machine.Stream) (f : Frame) : (State.closeEmit s x f).core = s.core := by
  unfold State.closeEmit; dsimp only; (repeat' split) <;> simp
@[simp] theorem State.dropPictures_core (s : State) (handle : Nat) (before : List Nat) :
    (State.dropPictures s handle before).core = s.core := by
  unfold State.dropPictures; split <;> simp
@[simp] theorem State.crcFault_core (s : State) (stream seq : Nat) : (State.crcFault s stream seq).core = s.core := by
  simp [State.crcFault]
@[simp] theorem State.postRecord_core (s : State) (bad : List Nat) (q : Queue) (stream frameSeq : Nat) (r : Record) :
    (State.postRecord s bad q stream frameSeq r).core = s.core := by
  unfold State.postRecord; dsimp only; (repeat' split) <;> simp
@[simp] theorem State.offer_core (s : State) (bad : List Nat) (q : Queue) (stream first last : Nat) (alert : Bool) (r : Record) :
    (State.offer s bad q stream first last alert r).1.core = s.core := by
  unfold State.offer; split <;> simp
@[simp] theorem State.offerRetraction_core (s : State) (bad : List Nat) (r : Retraction) :
    (State.offerRetraction s bad r).core = s.core := by
  unfold State.offerRetraction; dsimp only; (repeat' split) <;> simp
@[simp] theorem State.writeGaps_core (s : State) (bad : List Nat) (f : Fn) (slot : Nat) :
    (State.writeGaps s bad f slot).core = s.core := by
  unfold State.writeGaps; dsimp only; (repeat' first | split | refine core_foldl (fun _ _ => ?_) _ _ | refine (core_foldl (fun _ _ => ?_) _ _).trans ?_) <;> simp
@[simp] theorem State.remember_core (s : State) (q : Queue) (e : Ended) (seq : Nat) : (State.remember s q e seq).core = s.core := by
  simp [State.remember]
@[simp] theorem State.offerFrame_core (s : State) (bad : List Nat) (r : Receiver) (e : Ended) (alert : Bool) (make : Nat → Nat → Record) :
    (State.offerFrame s bad r e alert make).core = s.core := by
  unfold State.offerFrame; dsimp only; (repeat' split) <;> simp
@[simp] theorem State.deliver_core (s : State) (bad : List Nat) (e : Ended) (r : Receiver) :
    (State.deliver s bad e r).core = s.core := by
  simp [State.deliver]
@[simp] theorem State.deliverTo_core (s : State) (bad : List Nat) (ended : List Ended) (f : Fn) (slot : Nat) :
    (State.deliverTo s bad ended f slot).core = s.core := by
  simp [State.deliverTo]
@[simp] theorem State.ringRecords_core (s : State) (bad : List Nat) (ended : List Ended) (f : Fn) (slot : Nat) :
    (State.ringRecords s bad ended f slot).core = s.core := by
  simp [State.ringRecords]
@[simp] theorem State.issueRecords_core (s : State) (bad : List Nat) : (State.issueRecords s bad).core = s.core := by
  simp [State.issueRecords]
@[simp] theorem State.issueEvents_core (s : State) : (State.issueEvents s).core = s.core := by simp [State.issueEvents]
@[simp] theorem State.issueData_core (s : State) : (State.issueData s).core = s.core := by simp [State.issueData]
@[simp] theorem State.sealCompletions_core (s : State) : (State.sealCompletions s).core = s.core := by simp [State.sealCompletions]
@[simp] theorem State.issueCompletion_core (s : State) (c : PendingCompletion) : (State.issueCompletion s c).core = s.core := by
  unfold State.issueCompletion; (repeat' split) <;> simp
@[simp] theorem State.issueCompletions_core (s : State) : (State.issueCompletions s).core = s.core := by simp [State.issueCompletions]
@[simp] theorem State.issueWriteback_core (s : State) (q : Queue) : (State.issueWriteback s q).core = s.core := by
  unfold State.issueWriteback; (repeat' split) <;> simp
@[simp] theorem State.issueWakes_core (s : State) (q : Queue) : (State.issueWakes s q).core = s.core := by
  unfold State.issueWakes; split <;> simp
@[simp] theorem State.issueMirror_core (s : State) (c : Clasp) : (State.issueMirror s c).core = s.core := by
  unfold State.issueMirror; dsimp only; (repeat' split) <;> simp
@[simp] theorem State.fireThreshold_core (s : State) (c : Clasp) : (State.fireThreshold s c).core = s.core := by
  unfold State.fireThreshold; (repeat' split) <;> simp
@[simp] theorem State.issueHeartbeat_core (s : State) (f : Fn) : (State.issueHeartbeat s f).core = s.core := by
  unfold State.issueHeartbeat; dsimp only; (repeat' split) <;> simp
@[simp] theorem State.issueMsix_core (s : State) (m : Fn × Nat) : (State.issueMsix s m).core = s.core := by
  unfold State.issueMsix; dsimp only; (repeat' split) <;> simp
@[simp] theorem State.issueRest_core (s : State) (heartbeats : Bool) : (State.issueRest s heartbeats).core = s.core := by
  unfold State.issueRest; split <;> simp
@[simp] theorem State.postAhead_core (s : State) (bad : List Nat) (p : Posted) : (State.postAhead s bad p).core = s.core := by
  unfold State.postAhead; (repeat' split) <;> simp
@[simp] theorem State.issueStart_core (s : State) (bad : List Nat) : (State.issueStart s bad).core = s.core := by
  simp [State.issueStart]
@[simp] theorem State.issueStep_core (s : State) (bad : List Nat) (heartbeats : Bool) :
    (State.issueStep s bad heartbeats).core = s.core := by
  simp [State.issueStep]
@[simp] theorem State.skipPicture_core (s : State) (x : Machine.Stream) (p : Pending) (cause : Nat) :
    (State.skipPicture s x p cause).core = s.core := by
  simp [State.skipPicture]
@[simp] theorem State.shedClass_core (s : State) (p cls : Nat) : (State.shedClass s p cls).core = s.core := by
  unfold State.shedClass; (repeat' first | split | refine core_foldl (fun _ _ => ?_) _ _ | refine (core_foldl (fun _ _ => ?_) _ _).trans ?_) <;> simp
@[simp] theorem State.shed_core (s : State) : (State.shed s).core = s.core := by simp [State.shed]
@[simp] theorem State.leaveEarly_core (s : State) (x : Machine.Stream) (f : Frame) (e : Ended) :
    (State.leaveEarly s x f e).core = s.core := by
  unfold State.leaveEarly; split <;> simp
@[simp] theorem State.endEarly_core (s : State) (x : Machine.Stream) (f : Frame) (cause : Nat) :
    (State.endEarly s x f cause).core = s.core := by
  simp [State.endEarly]
@[simp] theorem State.withdraw_core (s : State) (x : Machine.Stream) (f : Frame) (cause : Nat) :
    (State.withdraw s x f cause).core = s.core := by
  unfold State.withdraw; split <;> simp
@[simp] theorem State.withdrawOverruns_core (s : State) : (State.withdrawOverruns s).core = s.core := by
  unfold State.withdrawOverruns; (repeat' first | split | refine core_foldl (fun _ _ => ?_) _ _ | refine (core_foldl (fun _ _ => ?_) _ _).trans ?_) <;> simp
@[simp] theorem State.logPlan_core (s : State) (x : Machine.Stream) (seq : Nat) (us : List UnitRef) :
    (State.logPlan s x seq us).core = s.core := by
  simp [State.logPlan]
@[simp] theorem State.noteWait_core (s : State) (x : Machine.Stream) (seq cause : Nat) :
    (State.noteWait s x seq cause).core = s.core := by
  simp [State.noteWait]
@[simp] theorem State.startFrame_core (s : State) (x : Machine.Stream) (p : Pending) (buffer : Option Nat) (us : List UnitRef) :
    (State.startFrame s x p buffer us).core = s.core := by
  simp [State.startFrame]
@[simp] theorem State.holdCause_core (s : State) (x : Machine.Stream) (p : Pending) : (State.holdCause s x p).2.core = s.core := by
  unfold State.holdCause; (repeat' split) <;> simp
@[simp] theorem State.holdPictures_core (s : State) : (State.holdPictures s).core = s.core := by simp [State.holdPictures]
@[simp] theorem State.endWaits_core (s : State) : (State.endWaits s).core = s.core := by
  unfold State.endWaits; (repeat' first | split | refine core_foldl (fun _ _ => ?_) _ _ | refine (core_foldl (fun _ _ => ?_) _ _).trans ?_) <;> simp
@[simp] theorem State.withChain_core (s : State) (c : Chain) : (State.withChain s c).core = s.core := by simp [State.withChain]
@[simp] theorem State.modLink_core (s : State) (k : Link) (g : LinkSt → LinkSt) : (State.modLink s k g).core = s.core := by
  simp [State.modLink]
@[simp] theorem State.modPeer_core (s : State) (m : ModuleNo) (g : Peer → Peer) : (State.modPeer s m g).core = s.core := by
  simp [State.modPeer]
@[simp] theorem State.chainSend_core (s : State) (o : ChainOut) : (State.chainSend s o).core = s.core := by simp [State.chainSend]
@[simp] theorem State.routesCommit_core (s : State) : (State.routesCommit s).core = s.core := by
  unfold State.routesCommit; dsimp only; (repeat' split) <;> simp
@[simp] theorem State.linkDown_core (s : State) (k : Link) (cause : Nat) : (State.linkDown s k cause).core = s.core := by
  unfold State.linkDown; dsimp only; (repeat' split) <;> simp
@[simp] theorem State.replayLink_core (s : State) (k : Link) : (State.replayLink s k).core = s.core := by
  unfold State.replayLink; dsimp only; (repeat' split) <;> simp
@[simp] theorem State.sendTick_core (s : State) (src dst : Nat) (f : PeerFlit) : (State.sendTick s src dst f).core = s.core := by
  unfold State.sendTick; split <;> simp
@[simp] theorem execTrain.miswire_core (i : TrainIn) (s : State) : (execTrain.miswire i s).core = s.core := by simp [execTrain.miswire]
@[simp] theorem State.takeData_core (s : State) (i : ChainDataIn) : (State.takeData s i).core = s.core := by
  unfold State.takeData; dsimp only; (repeat' split) <;> simp
@[simp] theorem State.forward_core (s : State) (i : ChainDataIn) : (State.forward s i).core = s.core := by
  unfold State.forward; split <;> simp
@[simp] theorem State.reviseBuddy_core (s : State) : (State.reviseBuddy s).core = s.core := by
  unfold State.reviseBuddy; dsimp only; (repeat' split) <;> simp
@[simp] theorem State.mirrorCommit_core (s : State) : (State.mirrorCommit s).core = s.core := by
  unfold State.mirrorCommit; dsimp only; (repeat' split) <;> simp
@[simp] theorem State.sendPeerTicks_core (s : State) : (State.sendPeerTicks s).core = s.core := by
  unfold State.sendPeerTicks; (repeat' first | split | refine core_foldl (fun _ _ => ?_) _ _ | refine (core_foldl (fun _ _ => ?_) _ _).trans ?_) <;> simp
@[simp] theorem State.chainFresh_core (s : State) : (State.chainFresh s).core = s.core := by simp [State.chainFresh]
@[simp] theorem State.remoteDue_core (s : State) (e : RemoteEnd) : (State.remoteDue s e).core = s.core := by simp [State.remoteDue]
@[simp] theorem State.endRemoteFrames_core (s : State) (x : Machine.Stream) : (State.endRemoteFrames s x).core = s.core := by
  simp [State.endRemoteFrames]
@[simp] theorem State.dropMigrations_core (s : State) (m : Nat) : (State.dropMigrations s m).core = s.core := by
  unfold State.dropMigrations; dsimp only; (repeat' first | split | refine core_foldl (fun _ _ => ?_) _ _ | refine (core_foldl (fun _ _ => ?_) _ _).trans ?_) <;> simp
@[simp] theorem State.losePeer_core (s : State) (m : ModuleNo) : (State.losePeer s m).core = s.core := by simp [State.losePeer]
@[simp] theorem State.rehome_core (s : State) (lost : Nat) (m : Mirror) : (State.rehome s lost m).core = s.core := by
  unfold State.rehome; split <;> simp
@[simp] theorem State.takeRehoming_core (s : State) (lost : Nat) (m : Mirror) : (State.takeRehoming s lost m).core = s.core := by
  unfold State.takeRehoming; dsimp only; (repeat' split) <;> simp
@[simp] theorem State.startMigration_core (s : State) (x : Machine.Stream) (target decode : Nat) (head : Option CmdHead) (balancer : Bool) :
    (State.startMigration s x target decode head balancer).core = s.core := by
  simp [State.startMigration]
@[simp] theorem applyStreamMigrate_core (h : CmdHead) (pos : Option RingPos) (p : StreamMigrateP) (a : State) :
    (applyStreamMigrate h pos p a).1.core = a.core := by
  unfold applyStreamMigrate; dsimp only; (repeat' split) <;> simp
@[simp] theorem State.modMigration_core (s : State) (handle : Nat) (g : Migration → Migration) :
    (State.modMigration s handle g).core = s.core := by
  simp [State.modMigration]
@[simp] theorem State.endMigration_core (s : State) (m : Migration) (a : Answer) : (State.endMigration s m a).core = s.core := by
  unfold State.endMigration; dsimp only; (repeat' split) <;> simp
@[simp] theorem State.tellBalance_core (s : State) (code : Nat) (x : Machine.Stream) (previous new : Nat) :
    (State.tellBalance s code x previous new).core = s.core := by
  simp [State.tellBalance]
@[simp] theorem State.moveStream_core (s : State) (m : Migration) (x : Machine.Stream) : (State.moveStream s m x).core = s.core := by
  unfold State.moveStream; split <;> simp
@[simp] theorem State.takeRemoteEnd_core (s : State) (e : RemoteEnd) : (State.takeRemoteEnd s e).core = s.core := by
  unfold State.takeRemoteEnd; (repeat' split) <;> simp
@[simp] theorem State.remoteResults_core (s : State) : (State.remoteResults s).core = s.core := by simp [State.remoteResults]
@[simp] theorem State.modSession_core (s : State) (x : Session) (g : Session → Session) : (State.modSession s x g).core = s.core := by
  simp [State.modSession]
@[simp] theorem State.sampleFault_core (s : State) (x : Session) (q : Queue) (n : Nat) :
    (State.sampleFault s x q n).core = s.core := by
  unfold State.sampleFault; split <;> simp
@[simp] theorem State.sampleOne_core (s : State) (x : Session) (c : SampleCand) : (State.sampleOne s x c).core = s.core := by
  unfold State.sampleOne; dsimp only; (repeat' split) <;> simp
@[simp] theorem State.sampleCommit_core (s : State) : (State.sampleCommit s).core = s.core := by simp [State.sampleCommit]
@[simp] theorem State.writeSummary_core (s : State) (x : Session) : (State.writeSummary s x).core = s.core := by
  unfold State.writeSummary; (repeat' split) <;> simp
@[simp] theorem State.endSession_core (s : State) (x : Session) : (State.endSession s x).core = s.core := by simp [State.endSession]
@[simp] theorem applySampleStop_core (h : CmdHead) (p : SlotP) (a : State) : (applySampleStop h p a).1.core = a.core := by
  unfold applySampleStop; split <;> simp
@[simp] theorem State.endEpochs_core (s : State) : (State.endEpochs s).core = s.core := by
  unfold State.endEpochs; (repeat' first | split | refine core_foldl (fun _ _ => ?_) _ _ | refine (core_foldl (fun _ _ => ?_) _ _).trans ?_) <;> simp
@[simp] theorem State.tellClosed_core (s : State) (x : Machine.Stream) : (State.tellClosed s x).core = s.core := by
  simp [State.tellClosed]
@[simp] theorem State.forgetStream_core (s : State) (x : Machine.Stream) : (State.forgetStream s x).core = s.core := by
  simp [State.forgetStream]
@[simp] theorem State.closeStreamsOf_core (s : State) (f : Fn) : (State.closeStreamsOf s f).core = s.core := by
  simp [State.closeStreamsOf]
@[simp] theorem State.unsubscribe_core (s : State) (t : Tenant) : (State.unsubscribe s t).core = s.core := by simp [State.unsubscribe]
@[simp] theorem State.scrubTenant_core (s : State) (t : Tenant) : (State.scrubTenant s t).core = s.core := by simp [State.scrubTenant]
@[simp] theorem State.dropFunction_core (s : State) (f : Fn) : (State.dropFunction s f).core = s.core := by simp [State.dropFunction]
@[simp] theorem State.dropBegun_core (s : State) (f : Fn) : (State.dropBegun s f).core = s.core := by simp [State.dropBegun]
@[simp] theorem State.beginTenant_core (s : State) (t : Tenant) : (State.beginTenant s t).core = s.core := by simp [State.beginTenant]
@[simp] theorem State.beginReset_core (s : State) (f : Fn) : (State.beginReset s f).core = s.core := by
  unfold State.beginReset; split <;> simp
@[simp] theorem State.beginResets_core (s : State) : (State.beginResets s).core = s.core := by simp [State.beginResets]
@[simp] theorem State.onePartition_core (s : State) : (State.onePartition s).core = s.core := by simp [State.onePartition]
@[simp] theorem State.dropTimeSet_core (s : State) : (State.dropTimeSet s).core = s.core := by simp [State.dropTimeSet]
@[simp] theorem State.resume_core (s : State) (h : Halt) : (State.resume s h).core = s.core := by simp [State.resume]
@[simp] theorem State.countReset_core (s : State) (t : Tenant) (began : Nat) : (State.countReset s t began).core = s.core := by
  simp [State.countReset]
@[simp] theorem State.clearBusy_core (s : State) (f : Fn) : (State.clearBusy s f).core = s.core := by simp [State.clearBusy]
@[simp] theorem State.inject_core (s : State) (p : FilPacket) (idle : Nat) : (State.inject s p idle).core = s.core := by
  unfold State.inject; dsimp only; (repeat' split) <;> simp
@[simp] theorem State.retain_core (s : State) (x : Machine.Stream) (f : Frame) : (State.retain s x f).core = s.core := by
  simp [State.retain]
@[simp] theorem State.discardFrame_core (s : State) (x : Machine.Stream) (f : Frame) : (State.discardFrame s x f).core = s.core := by
  unfold State.discardFrame; split <;> simp
@[simp] theorem State.discard_core (s : State) (mark : Option Nat) (k : Nat × Nat) : (State.discard s mark k).core = s.core := by
  unfold State.discard; dsimp only; (repeat' split) <;> simp
@[simp] theorem State.markFrames_core (s : State) (cause : Nat) (ks : List (Nat × Nat)) :
    (State.markFrames s cause ks).core = s.core := by
  unfold State.markFrames; (repeat' first | split | refine core_foldl (fun _ _ => ?_) _ _ | refine (core_foldl (fun _ _ => ?_) _ _).trans ?_) <;> simp
@[simp] theorem State.releaseInputs_core (s : State) (r : Retained) : (State.releaseInputs s r).core = s.core := by
  simp [State.releaseInputs]
@[simp] theorem State.retract_core (s : State) (rs : List Retraction) : (State.retract s rs).core = s.core := by simp [State.retract]
@[simp] theorem State.tellSafety_core (s : State) (fs : List Fn) (x : Failure) (retractions : Nat) :
    (State.tellSafety s fs x retractions).core = s.core := by
  simp [State.tellSafety]
@[simp] theorem State.react_core (s : State) (x : Failure) : (State.react s x).core = s.core := by simp [State.react]
@[simp] theorem State.haltPartition_core (s : State) (cls : FaultClass) (unit : Option UnitRef) (p : Nat) :
    (State.haltPartition s cls unit p).core = s.core := by
  unfold State.haltPartition; split <;> simp
@[simp] theorem State.retick_core (s : State) (n : Nat) : (State.retick s n).core = s.core := by simp [State.retick]
@[simp] theorem State.auditCommit.chainBad_core (s : State) (k : Link) : (State.auditCommit.chainBad s k).core = s.core := by
  unfold State.auditCommit.chainBad; split <;> simp
@[simp] theorem State.lockstepReact_core (s : State) (n : FaultNote) : (State.lockstepReact s n).core = s.core := by
  unfold State.lockstepReact; dsimp only; (repeat' split) <;> simp
@[simp] theorem State.touchJob_core (s : State) (i : TouchstoneIn) : (State.touchJob s i).2.core = s.core := by simp [State.touchJob]
@[simp] theorem State.touchstoneReact_core (s : State) (n : FaultNote) : (State.touchstoneReact s n).core = s.core := by
  unfold State.touchstoneReact; dsimp only; (repeat' split) <;> simp
@[simp] theorem State.closeUnit_core (s : State) (u : UnitRef) (lostRow : Option Nat) :
    (State.closeUnit s u lostRow).core = s.core := by
  unfold State.closeUnit; split <;> simp
@[simp] theorem State.dropRow_core (s : State) (r : Nat) : (State.dropRow s r).core = s.core := by
  unfold State.dropRow; (repeat' first | split | refine core_foldl (fun _ _ => ?_) _ _ | refine (core_foldl (fun _ _ => ?_) _ _).trans ?_) <;> simp
@[simp] theorem State.passRetest_core (s : State) (r : Retest) : (State.passRetest s r).core = s.core := by simp [State.passRetest]
@[simp] theorem State.restart_core (s : State) (handle : Nat) : (State.restart s handle).core = s.core := by
  unfold State.restart; split <;> simp
@[simp] theorem State.enterFailed_core (s : State) (cls : FaultClass) (unit : Option UnitRef) (detect since : Nat) :
    (State.enterFailed s cls unit detect since).core = s.core := by
  unfold State.enterFailed; split <;> simp
@[simp] theorem State.crcReact_core (s : State) (n : FaultNote) : (State.crcReact s n).core = s.core := by
  unfold State.crcReact; dsimp only; (repeat' split) <;> simp
@[simp] theorem State.loseState_core (s : State) (handle : Nat) : (State.loseState s handle).core = s.core := by
  unfold State.loseState; split <;> simp
@[simp] theorem State.plainReact_core (s : State) (n : FaultNote) : (State.plainReact s n).core = s.core := by
  unfold State.plainReact; dsimp only; (repeat' split) <;> simp
@[simp] theorem State.faultReact_core (s : State) (n : FaultNote) : (State.faultReact s n).core = s.core := by
  unfold State.faultReact; (repeat' split) <;> simp
@[simp] theorem State.applyRwc_core (s : State) : (State.applyRwc s).core = s.core := by simp [State.applyRwc]
@[simp] theorem State.applyKeys_core (s : State) : (State.applyKeys s).core = s.core := by
  unfold State.applyKeys; dsimp only; (repeat' first | split | refine core_foldl (fun _ _ => ?_) _ _ | refine (core_foldl (fun _ _ => ?_) _ _).trans ?_) <;> simp
@[simp] theorem State.drainClosing_core (s : State) : (State.drainClosing s).core = s.core := by simp [State.drainClosing]
@[simp] theorem State.passOvers_core (s : State) : (State.passOvers s).core = s.core := by simp [State.passOvers]
@[simp] theorem State.levelCommit_core (s : State) : (State.levelCommit s).core = s.core := by simp [State.levelCommit]
@[simp] theorem State.epochCommit_core (s : State) : (State.epochCommit s).core = s.core := by simp [State.epochCommit]
@[simp] theorem State.retireCommit_core (s : State) : (State.retireCommit s).core = s.core := by
  unfold State.retireCommit; (repeat' first | split | refine core_foldl (fun _ _ => ?_) _ _ | refine (core_foldl (fun _ _ => ?_) _ _).trans ?_) <;> simp
@[simp] theorem State.latchClasps_core (s : State) : (State.latchClasps s).core = s.core := by simp [State.latchClasps]
@[simp] theorem State.settle_core (s : State) : (State.settle s).core = s.core := by simp [State.settle]
@[simp] theorem State.gateOff_core (s : State) : (State.gateOff s).core = s.core := by simp [State.gateOff]
@[simp] theorem State.logTrip_core (s : State) : (State.logTrip s).core = s.core := by unfold State.logTrip; (repeat' split) <;> simp
@[simp] theorem State.trip_core (s : State) (cause : Nat) (latch : Bool) (i : TripIn) :
    (State.trip s cause latch i).core = s.core := by
  simp [State.trip]
@[simp] theorem State.retriableTrip_core (s : State) (cause : Nat) (i : TripIn) : (State.retriableTrip s cause i).core = s.core := by
  simp [State.retriableTrip]
@[simp] theorem State.finalTrip_core (s : State) (cause : Nat) (i : TripIn) : (State.finalTrip s cause i).core = s.core := by
  simp [State.finalTrip]
@[simp] theorem State.mmcDown_core (s : State) : (State.mmcDown s).core = s.core := by simp [State.mmcDown]
@[simp] theorem State.tellBoot_core (s : State) (e : Option (Nat × Nat × Nat)) : (State.tellBoot s e).core = s.core := by
  unfold State.tellBoot; (repeat' split) <;> simp
@[simp] theorem State.mmcBoot_core (s : State) (st : MmcState) : (State.mmcBoot s st).core = s.core := by simp [State.mmcBoot]
@[simp] theorem State.startTrial_core (s : State) : (State.startTrial s).core = s.core := by unfold State.startTrial; split <;> simp
@[simp] theorem State.evaluateFans_core (s : State) : (State.evaluateFans s).core = s.core := by
  unfold State.evaluateFans; dsimp only; (repeat' split) <;> simp
@[simp] theorem State.respond_core (s : State) (p : MgmtPath) (msgType command code : Nat) (data : List Byte) :
    (State.respond s p msgType command code data).core = s.core := by
  simp [State.respond]
@[simp] theorem withMmc_core (s : State) (m : Mmc) : (withMmc s m).core = s.core := by simp [withMmc]
@[simp] theorem withUpdate_core (s : State) (u : Option PldmUpdate) : (withUpdate s u).core = s.core := by simp [withUpdate]
@[simp] theorem State.dropDownload_core (s : State) (c : Nat) : (State.dropDownload s c).core = s.core := by simp [State.dropDownload]
@[simp] theorem State.setKey_core (s : State) (tenant : Nat) (key : Option (List Byte)) :
    (State.setKey s tenant key).core = s.core := by
  simp [State.setKey]
@[simp] theorem State.setStep_core (s : State) (step : Nat) : (State.setStep s step).core = s.core := by
  unfold State.setStep; dsimp only; (repeat' split) <;> simp
@[simp] theorem State.withFetchWord_core (s : State) (nbits w : Nat) : (State.withFetchWord s nbits w).core = s.core := by rfl

/-! ### Operations with a continuation, and those that go through them -/

@[simp] theorem State.cmdAddress_core (s : State) (f : Fn) (slot a n : Nat) (writing : Bool) (offset : Nat) (rest : CmdEffect)
    (hr : ∀ u, (rest u).1.core = u.core) : (s.cmdAddress f slot a n writing offset rest).1.core = s.core := by
  unfold State.cmdAddress; split <;> simp [hr]
@[simp] theorem applyQueueCreate_core (h : CmdHead) (p : QueueCreateP) (a : State) : (applyQueueCreate h p a).1.core = a.core := by
  unfold applyQueueCreate; dsimp only
  (repeat' split) <;> first | simp | (refine State.cmdAddress_core _ _ _ _ _ _ _ _ fun u => ?_; split <;> simp)
@[simp] theorem applyClaspCreate_core (h : CmdHead) (p : ClaspCreateP) (a : State) : (applyClaspCreate h p a).1.core = a.core := by
  unfold applyClaspCreate; dsimp only
  (repeat' split) <;> simp
@[simp] theorem applyClaspSignal_core (h : CmdHead) (p : ClaspSignalP) (a : State) : (applyClaspSignal h p a).1.core = a.core := by
  unfold applyClaspSignal; dsimp only
  (repeat' split) <;> simp
@[simp] theorem applyModelLoad_core (h : CmdHead) (pos : Option RingPos) (p : ModelLoadP) (a : State) :
    (applyModelLoad h pos p a).1.core = a.core := by
  unfold applyModelLoad; dsimp only
  (repeat' split) <;> simp
@[simp] theorem applyTableWrite_core (h : CmdHead) (p : TableWriteP) (a : State) : (applyTableWrite h p a).1.core = a.core := by
  unfold applyTableWrite
  (repeat' split) <;> first | simp | (refine State.cmdAddress_core _ _ _ _ _ _ _ _ fun u => ?_; (repeat' split) <;> simp)
@[simp] theorem applySampleStart_core (h : CmdHead) (p : SampleStartP) (a : State) : (applySampleStart h p a).1.core = a.core := by
  unfold applySampleStart; dsimp only
  (repeat' split) <;> first | simp | (refine State.cmdAddress_core _ _ _ _ _ _ _ _ fun u => ?_; (repeat' split) <;> simp)
@[simp] theorem applyAuditRead_core (l : State) (h : CmdHead) (p : AuditReadP) (a : State) :
    (applyAuditRead l h p a).1.core = a.core := by
  unfold applyAuditRead; dsimp only
  (repeat' split) <;> simp
@[simp] theorem State.acceptRing_core (n : Nat) (f : Fn) (slot due : Nat) (src : List (List Byte)) (s : State) :
    (State.acceptRing n f slot due src s).core = s.core := by
  induction n generalizing src s with
  | zero => rfl
  | succ n ih => unfold State.acceptRing; (repeat' split) <;> simp [ih]
@[simp] theorem State.allocFor_core (s : State) (x : Machine.Stream) (row : Row) (bytes : Nat) :
    (s.allocFor x row bytes).2.core = s.core := by
  have h := State.alloc_core s row bytes (.stream (BitVec.ofNat 16 x.handle)) (some x.cls) none none
  unfold State.allocFor; split <;> simp_all
@[simp] theorem State.allocChunk_core (s : State) (x : Machine.Stream) (bytes : Nat) : (s.allocChunk x bytes).2.core = s.core := by
  simp [State.allocChunk]

@[simp] theorem State.runRing_core (s : State) (h : CmdHead) (c : RingCmd) (reserved : Option Nat) (pos : Option RingPos)
    (eff : CmdEffect) (hk : ∀ u, (eff u).1.core = u.core) : (s.runRing h c reserved pos eff).core = s.core := by
  have := hk s
  unfold State.runRing; (repeat' split) <;> simp_all
/-- A ring command's row keeps what its effect keeps. -/
theorem ringRow_core {s t : State} {h : CmdHead} {c : RingCmd} {eff : CmdEffect} (hk : ∀ u, (eff u).1.core = u.core)
    (ht : s.ringRow h c eff = .next t) : t.core = s.core := by
  have hr : ∀ u : State, (u.runRing h c (rowReserved h c) none eff).core = u.core := fun u =>
    State.runRing_core u h c _ _ eff hk
  unfold State.ringRow at ht
  cases ht
  split
  · exact core_atNext _ _ hr
  · rfl

@[simp] theorem State.takeDesc_core (s : State) (x : Machine.Stream) (d : IngestDesc) (bell : Bell) :
    (s.takeDesc x d bell).core = s.core := by unfold State.takeDesc; dsimp only; (repeat' split) <;> simp
@[simp] theorem State.ingestDesc_core (s : State) (x : Machine.Stream) (q : Queue) (bs : List Byte) :
    (s.ingestDesc x q bs).core = s.core := by unfold State.ingestDesc; dsimp only; (repeat' split) <;> simp
@[simp] theorem State.descriptorRead_core (s : State) (f : Fn) (slot : Nat) (bs : List Byte) (poisoned : Bool) :
    (s.descriptorRead f slot bs poisoned).core = s.core := by unfold State.descriptorRead; (repeat' split) <;> simp

/-! ### The plan, the balancer and the evacuation -/

/-- A fold over a structure that holds a state keeps what each of its steps keeps. -/
theorem core_foldlOf {α β : Type} (st : β → State) {f : β → α → β} (hf : ∀ b a, (st (f b a)).core = (st b).core) (l : List α) (b : β) :
    (st (l.foldl f b)).core = (st b).core := by
  induction l generalizing b with
  | nil => rfl
  | cons a l ih => exact (ih (f b a)).trans (hf b a)
@[simp] theorem State.pictureBuffer_core (s : State) (x : Machine.Stream) (p : Pending) (us : List UnitRef) :
    (s.pictureBuffer x p us).2.core = s.core := by
  unfold State.pictureBuffer
  split
  · rename_i row _ _
    have h := State.allocFor_core s x row (x.storedBytes p)
    split <;> simp_all
  · rfl
@[simp] theorem State.retryPicture_core (s : State) (x : Machine.Stream) (p : Pending) : (s.retryPicture x p).core = s.core := by
  unfold State.retryPicture; dsimp only
  simp only [State.modStream_core]
  refine core_foldl1 (fun _ _ => ?_) _ _
  split <;> simp
@[simp] theorem State.retryBuffers_core (s : State) : s.retryBuffers.core = s.core := by
  unfold State.retryBuffers; refine core_foldl (fun _ _ => ?_) _ _; split <;> simp
@[simp] theorem Planning.start_core (pl : Planning) (x : Machine.Stream) (p : Pending) : (pl.start x p).st.core = pl.st.core := by
  unfold Planning.start; dsimp only
  split
  · rename_i us _ _
    have h := State.pictureBuffer_core pl.st x p us
    split
    · simp_all
    · dsimp only; split <;> simp_all
  · simp
@[simp] theorem Planning.flight_core (pl : Planning) (x : Machine.Stream) (f : Frame) : (pl.flight x f).st.core = pl.st.core := by
  unfold Planning.flight; dsimp only; (repeat' split) <;> simp
@[simp] theorem Planning.item_core (pl : Planning) (i : Item) : (pl.item i).st.core = pl.st.core := by
  unfold Planning.item; (repeat' split) <;> simp
@[simp] theorem State.plan_core (s : State) : s.plan.core = s.core := by
  unfold State.plan; simp [core_foldlOf Planning.st Planning.item_core]
@[simp] theorem Balancing.take_core (advise balancer : Bool) (p k : Nat) (b : Balancing) (x : Machine.Stream) :
    (b.take advise balancer p k x).st.core = b.st.core := by
  unfold Balancing.take; dsimp only; (repeat' split) <;> simp
@[simp] theorem Balancing.partition_core (advise : Bool) (b : Balancing) (p : Nat) : (b.partition advise p).st.core = b.st.core := by
  unfold Balancing.partition; dsimp only; split
  · rfl
  · exact core_foldlOf Balancing.st (Balancing.take_core _ _ _ _) _ _
@[simp] theorem State.balanceAll_core (s : State) : s.balanceAll.core = s.core := by
  unfold State.balanceAll; exact core_foldlOf Balancing.st (Balancing.partition_core _) _ _
@[simp] theorem State.evacuate_core (s : State) : s.evacuate.core = s.core := by
  unfold State.evacuate; split
  · exact core_foldlOf Balancing.st (fun _ _ => core_foldlOf Balancing.st (Balancing.take_core _ _ _ _) _ _) _ _
  · rfl

/-! ### What the end of T+2 leaves (09:R319): tile SRAM moves, in canonical form, and nothing else of the core -/

theorem leaveJob_mem (d : Dram) (fn : Fn) (tile : Nat) (m : JobMem) :
    (d.leaveJob fn tile m).mem = d.mem ∧ (d.leaveJob fn tile m).channels = d.channels ∧
      (Memory.wf d.sram = true → Memory.wf (d.leaveJob fn tile m).sram = true) := by
  refine ⟨rfl, rfl, fun h => ?_⟩
  unfold Dram.leaveJob
  induction m with
  | nil => exact h
  | cons x m ih => exact Memory.wf_set _ _ ih
theorem leaveJobs_mem (d : Dram) (fn : Fn) (tiles : List Nat) (ms : List (Nat × JobMem)) :
    (d.leaveJobs fn tiles ms).mem = d.mem ∧ (d.leaveJobs fn tiles ms).channels = d.channels ∧
      (Memory.wf d.sram = true → Memory.wf (d.leaveJobs fn tiles ms).sram = true) := by
  unfold Dram.leaveJobs
  induction ms generalizing d with
  | nil => exact ⟨rfl, rfl, id⟩
  | cons x ms ih =>
    simp only [List.foldl_cons]
    split
    · rename_i t _
      have h := leaveJob_mem d fn t x.2
      have k := ih (d.leaveJob fn t x.2)
      exact ⟨k.1.trans h.1, k.2.1.trans h.2.1, fun w => k.2.2 (h.2.2 w)⟩
    · exact ih d

/-- From `s` to `t` the core moves in tile SRAM alone, which stays in canonical form. -/
def SramMoves (s t : State) : Prop :=
  t.core = { s.core with sram := t.dram.sram } ∧ (Memory.wf s.dram.sram = true → Memory.wf t.dram.sram = true)
theorem SramMoves.of_core {s t : State} (h : t.core = s.core) : SramMoves s t := by
  have hs : t.dram.sram = s.dram.sram := congrArg StateCore.sram h
  exact ⟨by rw [h, hs]; rfl, fun w => by rw [hs]; exact w⟩
theorem SramMoves.trans {s t u : State} (h : SramMoves s t) (k : SramMoves t u) : SramMoves s u :=
  ⟨by rw [k.1, h.1], fun w => k.2 (h.2 w)⟩
theorem SramMoves.foldl {α : Type} {f : State → α → State} (hf : ∀ s a, SramMoves s (f s a)) (l : List α) (s : State) :
    SramMoves s (l.foldl f s) := by
  induction l generalizing s with
  | nil => exact .of_core rfl
  | cons a l ih => exact (hf s a).trans (ih _)
theorem closeInfer_moves (s : State) (x : Machine.Stream) (f : Frame) : SramMoves s (s.closeInfer x f) := by
  have h := leaveJobs_mem s.dram x.fn f.tiles f.inferStage.2.srams
  have a : SramMoves s { s.modStream x.handle (fun x => x.setFrame f.inferStage.1) with
      dram := s.dram.leaveJobs x.fn f.tiles f.inferStage.2.srams } :=
    ⟨by simp only [State.core, State.modStream, h.1, h.2.1], h.2.2⟩
  refine a.trans (.of_core ?_)
  unfold State.closeInfer
  exact core_foldl (fun _ _ => State.modModel_core _ _ _ _) _ _
theorem closeStage_moves (s : State) (x : Machine.Stream) (f : Frame) : SramMoves s (s.closeStage x f) := by
  unfold State.closeStage
  split
  · exact .of_core (by simp)
  · exact .of_core (by simp)
  · exact closeInfer_moves s x f
  · exact .of_core (by simp)
  · exact .of_core (by simp)
theorem closeStream_moves (s : State) (handle : Nat) : SramMoves s (s.closeStream handle) := by
  unfold State.closeStream
  split
  · refine SramMoves.trans (SramMoves.foldl (fun u f => ?_) _ _) (.of_core (State.dropPictures_core _ _ _))
    split
    · exact closeStage_moves _ _ _
    · exact .of_core rfl
  · exact .of_core rfl
theorem frameResults_moves (s : State) : SramMoves s s.frameResults := SramMoves.foldl closeStream_moves _ _
theorem results_moves (s : State) : SramMoves s s.results := by
  unfold State.results; dsimp only
  have h := frameResults_moves { s with pools := s.pools.commit s.clk.tick s.undone s.withdrawn }
  exact SramMoves.trans (s := s) ⟨h.1, h.2⟩ (.of_core (by simp))

/-! ### Commands in the apply step -/

@[simp] theorem applyCmd_core (l : State) (h : CmdHead) (pos : Option RingPos) (c : RingCmd) (s : State) :
    (applyCmd l h pos c s).1.core = s.core := by
  cases c <;> simp [applyCmd]
@[simp] theorem State.runAccepted_core (s l : State) (a : Accepted) : (s.runAccepted l a).core = s.core := by
  unfold State.runAccepted; split
  · exact State.runRing_core _ _ _ _ _ _ (fun _ => applyCmd_core _ _ _ _ _)
  · simp
@[simp] theorem applyAccepted_core (l s : State) (a : Accepted) : (applyAccepted l s a).core = s.core := by
  unfold applyAccepted; split <;> simp
@[simp] theorem State.applyCommands_core (s l : State) : (s.applyCommands l).core = s.core := by
  unfold State.applyCommands; dsimp only
  exact (core_foldl (fun _ _ => State.dropBegun_core _ _) _ _).trans (core_foldl (fun _ _ => applyAccepted_core _ _ _) _ _)

end Sys2Proof.Machine
end

