-- ==== Sys2Proof/Laws/Rings.lean ====
section
/-! SUPPORT. What completing a ring command does (06_rings_commands.md, R226, R227): the laws through which a statement about a
command reaches `runRing` and `complete`. -/

namespace Sys2Proof.Machine

/-- A SIGNAL changes the clasps as `signalled` says and nothing else. -/
theorem signalDone_eq (s : State) (h : CmdHead) :
    s.signalDone h = { s with host := { s.host with clasps := signalled h s.host.clasps } } := by
  unfold State.signalDone signalled headSignal
  split
  · simp only [State.modClasp, updWhere]
    congr 2
    refine List.map_congr_left fun c _ => ?_
    by_cases h1 : c.id = h.doneClasp.toNat % 8192 <;> by_cases h2 : c.fn = h.fn <;> by_cases h3 : c.value + 1 < 2 ^ 64 <;>
      simp_all [Clasp.raiseTo]
  · rfl

/-- A command that came as a step of its own completes once, in the commit that its state's clock shows. -/
theorem complete_spec (s : State) (h : CmdHead) (op : Byte) (a : Answer) :
    ∃ b : Completion,
      s.complete h op none a = { s with host := { s.host with
        clasps := signalled h s.host.clasps, completions := s.host.completions ++ answers s h b a.clasp } } ∧
      b.opcode = op ∧ b.commandId = h.commandId ∧ b.status = statusCode a.status ∧ b.sqSlot = h.slot ∧ b.fieldOffset = a.offset ∧
      b.tick = s.clk.tick ∧ b.result = fit 32 a.result := by
  refine ⟨s.completionBody h op none a, ?_, rfl, rfl, rfl, rfl, rfl, rfl, rfl⟩
  have hr : (s.signalDone h).answerRing h none = s.answerRing h none := by rw [signalDone_eq]; rfl
  unfold State.complete answers
  dsimp only
  rw [hr]
  cases s.answerRing h none <;> simp [signalDone_eq, State.withHost]

/-- What a command that came through its ring changes when it completes: the queues' counts, the clasps as `signalled` says, and one
completion for the ring that holds its slot. -/
theorem complete_ring (s : State) (h : CmdHead) (op : Byte) (p : RingPos) (a : Answer) :
    ∃ (b : Completion) (qs : List Queue),
      s.complete h op (some p) a = { s with host := { s.host with
        queues := qs, clasps := signalled h s.host.clasps,
        completions := s.host.completions ++ [{ fn := h.fn, ring := p.done, body := b, clasp := a.clasp }] } } ∧
      b.opcode = op ∧ b.commandId = h.commandId ∧ b.status = statusCode a.status ∧ b.fieldOffset = a.offset ∧
      b.tick = s.clk.tick ∧ b.result = fit 32 a.result := by
  refine ⟨(s.consume p).completionBody h op (some p) a, (s.consume p).host.queues, ?_, rfl, rfl, rfl, rfl, rfl, rfl⟩
  unfold State.complete
  simp only [signalDone_eq, State.withHost, State.answerRing]
  rfl

/-- A row's view of the coming commit, taken back, is the row's state. -/
@[simp] theorem coming_backTo (s : State) : s.coming.backTo s.clk = s := rfl

/-- An admissible ring command that answers at once has its effect and then completes. -/
theorem ringRow_answers {s v : State} {h : CmdHead} {c : RingCmd} {eff : CmdEffect} {a : Answer}
    (ha : Admissible s h c) (he : eff s.coming = (v, some a)) (hv : v.clk.tick = s.clk.tick + 1) :
    ∃ t, s.ringRow h c eff = .next t ∧ Completes (v.backTo s.clk) t h (opcodeOf c) a.status a.offset a.result := by
  obtain ⟨h1, h2, h3⟩ := ha
  have h2' : s.coming.wireFault h c (rowReserved h c) = none := h2
  have h3' : s.coming.headFault h = none := h3
  obtain ⟨b, hb, r⟩ := complete_spec v h (opcodeOf c) a
  refine ⟨_, rfl, b, a.clasp, ?_, r.1, r.2.1, r.2.2.1, r.2.2.2.1, r.2.2.2.2.1, r.2.2.2.2.2.1.trans hv, r.2.2.2.2.2.2⟩
  simp only [h1, if_true, State.atNext, State.runRing, h2', h3', he, hb]
  rfl

/-- An admissible ring command that begins work has its effect and waits. -/
theorem ringRow_works {s v : State} {h : CmdHead} {c : RingCmd} {eff : CmdEffect}
    (ha : Admissible s h c) (he : eff s.coming = (v, none)) : s.ringRow h c eff = .next (v.backTo s.clk) := by
  obtain ⟨h1, h2, h3⟩ := ha
  have h2' : s.coming.wireFault h c (rowReserved h c) = none := h2
  have h3' : s.coming.headFault h = none := h3
  simp only [State.ringRow, h1, if_true, State.atNext, State.runRing, h2', h3', he]

/-- A command whose bytes are at fault completes without effect. -/
theorem ringRow_wireFault {s : State} {h : CmdHead} {c : RingCmd} {eff : CmdEffect} {a : Answer}
    (ht : s.takesCommands h.fn = true) (hf : s.wireFault h c (rowReserved h c) = some a) :
    ∃ t, s.ringRow h c eff = .next t ∧ Completes s t h (opcodeOf c) a.status a.offset a.result := by
  have hf' : s.coming.wireFault h c (rowReserved h c) = some a := hf
  obtain ⟨b, hb, r⟩ := complete_spec s.coming h (opcodeOf c) a
  refine ⟨_, rfl, b, a.clasp, ?_, r⟩
  simp only [ht, if_true, State.atNext, State.runRing, hf', hb]
  rfl

/-- A command whose header names no clasp that it may signal completes without effect. -/
theorem ringRow_headFault {s : State} {h : CmdHead} {c : RingCmd} {eff : CmdEffect} {a : Answer}
    (ht : s.takesCommands h.fn = true) (hw : s.wireFault h c (rowReserved h c) = none) (hf : s.headFault h = some a) :
    ∃ t, s.ringRow h c eff = .next t ∧ Completes s t h (opcodeOf c) a.status a.offset a.result := by
  have hw' : s.coming.wireFault h c (rowReserved h c) = none := hw
  have hf' : s.coming.headFault h = some a := hf
  obtain ⟨b, hb, r⟩ := complete_spec s.coming h (opcodeOf c) a
  refine ⟨_, rfl, b, a.clasp, ?_, r⟩
  simp only [ht, if_true, State.atNext, State.runRing, hw', hf', hb]
  rfl

end Sys2Proof.Machine
end

