-- ==== Sys2Proof/Laws/State.lean ====
section
/-! SUPPORT. The laws of the state's accessors: what each named update leaves as it was and what reading the updated part gives, so
that no proof unfolds a record update. -/

namespace Sys2Proof.Machine

theorem isPf_iff (f : Fn) : isPf f = true ↔ f = pfFn := by
  revert f; decide

@[simp] theorem isPf_pfFn : isPf pfFn = true := rfl

@[simp] theorem tenantOf_pfFn : tenantOf pfFn = none := rfl

theorem tenantOf_fnOf (t : Tenant) : tenantOf (fnOf t) = some t := by
  revert t; decide

/-! ### withHost -/

@[simp] theorem State.withHost_clk (s : State) (h : HostSide) : (s.withHost h).clk = s.clk := rfl
@[simp] theorem State.withHost_host (s : State) (h : HostSide) : (s.withHost h).host = h := rfl
@[simp] theorem State.withHost_work (s : State) (h : HostSide) : (s.withHost h).work = s.work := rfl
@[simp] theorem State.withHost_pools (s : State) (h : HostSide) : (s.withHost h).pools = s.pools := rfl
@[simp] theorem State.withHost_dram (s : State) (h : HostSide) : (s.withHost h).dram = s.dram := rfl
@[simp] theorem State.withHost_fab (s : State) (h : HostSide) : (s.withHost h).fab = s.fab := rfl
@[simp] theorem State.withHost_chain (s : State) (h : HostSide) : (s.withHost h).chain = s.chain := rfl
@[simp] theorem State.withHost_safety (s : State) (h : HostSide) : (s.withHost h).safety = s.safety := rfl
@[simp] theorem State.withHost_nor (s : State) (h : HostSide) : (s.withHost h).nor = s.nor := rfl
@[simp] theorem State.withHost_boot (s : State) (h : HostSide) : (s.withHost h).boot = s.boot := rfl
@[simp] theorem State.withHost_power (s : State) (h : HostSide) : (s.withHost h).power = s.power := rfl
@[simp] theorem State.withHost_mmc (s : State) (h : HostSide) : (s.withHost h).mmc = s.mmc := rfl
@[simp] theorem State.withHost_jtag (s : State) (h : HostSide) : (s.withHost h).jtag = s.jtag := rfl
@[simp] theorem State.withHost_pending (s : State) (h : HostSide) : (s.withHost h).pending = s.pending := rfl

/-! ### withWork -/

@[simp] theorem State.withWork_clk (s : State) (w : WorkSt) : (s.withWork w).clk = s.clk := rfl
@[simp] theorem State.withWork_host (s : State) (w : WorkSt) : (s.withWork w).host = s.host := rfl
@[simp] theorem State.withWork_work (s : State) (w : WorkSt) : (s.withWork w).work = w := rfl
@[simp] theorem State.withWork_pools (s : State) (w : WorkSt) : (s.withWork w).pools = s.pools := rfl
@[simp] theorem State.withWork_dram (s : State) (w : WorkSt) : (s.withWork w).dram = s.dram := rfl
@[simp] theorem State.withWork_fab (s : State) (w : WorkSt) : (s.withWork w).fab = s.fab := rfl
@[simp] theorem State.withWork_chain (s : State) (w : WorkSt) : (s.withWork w).chain = s.chain := rfl
@[simp] theorem State.withWork_safety (s : State) (w : WorkSt) : (s.withWork w).safety = s.safety := rfl
@[simp] theorem State.withWork_nor (s : State) (w : WorkSt) : (s.withWork w).nor = s.nor := rfl
@[simp] theorem State.withWork_boot (s : State) (w : WorkSt) : (s.withWork w).boot = s.boot := rfl
@[simp] theorem State.withWork_power (s : State) (w : WorkSt) : (s.withWork w).power = s.power := rfl
@[simp] theorem State.withWork_mmc (s : State) (w : WorkSt) : (s.withWork w).mmc = s.mmc := rfl
@[simp] theorem State.withWork_jtag (s : State) (w : WorkSt) : (s.withWork w).jtag = s.jtag := rfl
@[simp] theorem State.withWork_pending (s : State) (w : WorkSt) : (s.withWork w).pending = s.pending := rfl

/-! ### withSafety -/

@[simp] theorem State.withSafety_clk (s : State) (x : Safety) : (s.withSafety x).clk = s.clk := rfl
@[simp] theorem State.withSafety_host (s : State) (x : Safety) : (s.withSafety x).host = s.host := rfl
@[simp] theorem State.withSafety_work (s : State) (x : Safety) : (s.withSafety x).work = s.work := rfl
@[simp] theorem State.withSafety_pools (s : State) (x : Safety) : (s.withSafety x).pools = s.pools := rfl
@[simp] theorem State.withSafety_dram (s : State) (x : Safety) : (s.withSafety x).dram = s.dram := rfl
@[simp] theorem State.withSafety_fab (s : State) (x : Safety) : (s.withSafety x).fab = s.fab := rfl
@[simp] theorem State.withSafety_chain (s : State) (x : Safety) : (s.withSafety x).chain = s.chain := rfl
@[simp] theorem State.withSafety_safety (s : State) (x : Safety) : (s.withSafety x).safety = x := rfl
@[simp] theorem State.withSafety_nor (s : State) (x : Safety) : (s.withSafety x).nor = s.nor := rfl
@[simp] theorem State.withSafety_boot (s : State) (x : Safety) : (s.withSafety x).boot = s.boot := rfl
@[simp] theorem State.withSafety_power (s : State) (x : Safety) : (s.withSafety x).power = s.power := rfl
@[simp] theorem State.withSafety_mmc (s : State) (x : Safety) : (s.withSafety x).mmc = s.mmc := rfl
@[simp] theorem State.withSafety_jtag (s : State) (x : Safety) : (s.withSafety x).jtag = s.jtag := rfl
@[simp] theorem State.withSafety_pending (s : State) (x : Safety) : (s.withSafety x).pending = s.pending := rfl

/-! ### withChain -/

@[simp] theorem State.withChain_clk (s : State) (c : Chain) : (s.withChain c).clk = s.clk := rfl
@[simp] theorem State.withChain_host (s : State) (c : Chain) : (s.withChain c).host = s.host := rfl
@[simp] theorem State.withChain_work (s : State) (c : Chain) : (s.withChain c).work = s.work := rfl
@[simp] theorem State.withChain_pools (s : State) (c : Chain) : (s.withChain c).pools = s.pools := rfl
@[simp] theorem State.withChain_dram (s : State) (c : Chain) : (s.withChain c).dram = s.dram := rfl
@[simp] theorem State.withChain_fab (s : State) (c : Chain) : (s.withChain c).fab = s.fab := rfl
@[simp] theorem State.withChain_chain (s : State) (c : Chain) : (s.withChain c).chain = c := rfl
@[simp] theorem State.withChain_safety (s : State) (c : Chain) : (s.withChain c).safety = s.safety := rfl
@[simp] theorem State.withChain_nor (s : State) (c : Chain) : (s.withChain c).nor = s.nor := rfl
@[simp] theorem State.withChain_boot (s : State) (c : Chain) : (s.withChain c).boot = s.boot := rfl
@[simp] theorem State.withChain_power (s : State) (c : Chain) : (s.withChain c).power = s.power := rfl
@[simp] theorem State.withChain_mmc (s : State) (c : Chain) : (s.withChain c).mmc = s.mmc := rfl
@[simp] theorem State.withChain_jtag (s : State) (c : Chain) : (s.withChain c).jtag = s.jtag := rfl
@[simp] theorem State.withChain_pending (s : State) (c : Chain) : (s.withChain c).pending = s.pending := rfl

/-! ### withPending -/

@[simp] theorem State.withPending_clk (s : State) (q : List Instr) : (s.withPending q).clk = s.clk := rfl
@[simp] theorem State.withPending_host (s : State) (q : List Instr) : (s.withPending q).host = s.host := rfl
@[simp] theorem State.withPending_work (s : State) (q : List Instr) : (s.withPending q).work = s.work := rfl
@[simp] theorem State.withPending_pools (s : State) (q : List Instr) : (s.withPending q).pools = s.pools := rfl
@[simp] theorem State.withPending_dram (s : State) (q : List Instr) : (s.withPending q).dram = s.dram := rfl
@[simp] theorem State.withPending_fab (s : State) (q : List Instr) : (s.withPending q).fab = s.fab := rfl
@[simp] theorem State.withPending_chain (s : State) (q : List Instr) : (s.withPending q).chain = s.chain := rfl
@[simp] theorem State.withPending_safety (s : State) (q : List Instr) : (s.withPending q).safety = s.safety := rfl
@[simp] theorem State.withPending_nor (s : State) (q : List Instr) : (s.withPending q).nor = s.nor := rfl
@[simp] theorem State.withPending_boot (s : State) (q : List Instr) : (s.withPending q).boot = s.boot := rfl
@[simp] theorem State.withPending_power (s : State) (q : List Instr) : (s.withPending q).power = s.power := rfl
@[simp] theorem State.withPending_mmc (s : State) (q : List Instr) : (s.withPending q).mmc = s.mmc := rfl
@[simp] theorem State.withPending_jtag (s : State) (q : List Instr) : (s.withPending q).jtag = s.jtag := rfl
@[simp] theorem State.withPending_pending (s : State) (q : List Instr) : (s.withPending q).pending = q := rfl

/-! ### modFn -/

@[simp] theorem State.modFn_clk (s : State) (f : Fn) (g : FnState → FnState) : (s.modFn f g).clk = s.clk := rfl
@[simp] theorem State.modFn_host (s : State) (f : Fn) (g : FnState → FnState) : (s.modFn f g).host = { s.host with fns := s.host.fns.set f.val (g (s.fnSt f)) } := rfl
@[simp] theorem State.modFn_work (s : State) (f : Fn) (g : FnState → FnState) : (s.modFn f g).work = s.work := rfl
@[simp] theorem State.modFn_pools (s : State) (f : Fn) (g : FnState → FnState) : (s.modFn f g).pools = s.pools := rfl
@[simp] theorem State.modFn_dram (s : State) (f : Fn) (g : FnState → FnState) : (s.modFn f g).dram = s.dram := rfl
@[simp] theorem State.modFn_fab (s : State) (f : Fn) (g : FnState → FnState) : (s.modFn f g).fab = s.fab := rfl
@[simp] theorem State.modFn_chain (s : State) (f : Fn) (g : FnState → FnState) : (s.modFn f g).chain = s.chain := rfl
@[simp] theorem State.modFn_safety (s : State) (f : Fn) (g : FnState → FnState) : (s.modFn f g).safety = s.safety := rfl
@[simp] theorem State.modFn_nor (s : State) (f : Fn) (g : FnState → FnState) : (s.modFn f g).nor = s.nor := rfl
@[simp] theorem State.modFn_boot (s : State) (f : Fn) (g : FnState → FnState) : (s.modFn f g).boot = s.boot := rfl
@[simp] theorem State.modFn_power (s : State) (f : Fn) (g : FnState → FnState) : (s.modFn f g).power = s.power := rfl
@[simp] theorem State.modFn_mmc (s : State) (f : Fn) (g : FnState → FnState) : (s.modFn f g).mmc = s.mmc := rfl
@[simp] theorem State.modFn_jtag (s : State) (f : Fn) (g : FnState → FnState) : (s.modFn f g).jtag = s.jtag := rfl
@[simp] theorem State.modFn_pending (s : State) (f : Fn) (g : FnState → FnState) : (s.modFn f g).pending = s.pending := rfl

/-! ### modTenant -/

@[simp] theorem State.modTenant_clk (s : State) (n : Tenant) (g : TenantSt → TenantSt) : (s.modTenant n g).clk = s.clk := rfl
@[simp] theorem State.modTenant_host (s : State) (n : Tenant) (g : TenantSt → TenantSt) : (s.modTenant n g).host = s.host := rfl
@[simp] theorem State.modTenant_work (s : State) (n : Tenant) (g : TenantSt → TenantSt) : (s.modTenant n g).work = { s.work with tenants := s.work.tenants.set n.val (g (s.tenantSt n)) } := rfl
@[simp] theorem State.modTenant_pools (s : State) (n : Tenant) (g : TenantSt → TenantSt) : (s.modTenant n g).pools = s.pools := rfl
@[simp] theorem State.modTenant_dram (s : State) (n : Tenant) (g : TenantSt → TenantSt) : (s.modTenant n g).dram = s.dram := rfl
@[simp] theorem State.modTenant_fab (s : State) (n : Tenant) (g : TenantSt → TenantSt) : (s.modTenant n g).fab = s.fab := rfl
@[simp] theorem State.modTenant_chain (s : State) (n : Tenant) (g : TenantSt → TenantSt) : (s.modTenant n g).chain = s.chain := rfl
@[simp] theorem State.modTenant_safety (s : State) (n : Tenant) (g : TenantSt → TenantSt) : (s.modTenant n g).safety = s.safety := rfl
@[simp] theorem State.modTenant_nor (s : State) (n : Tenant) (g : TenantSt → TenantSt) : (s.modTenant n g).nor = s.nor := rfl
@[simp] theorem State.modTenant_boot (s : State) (n : Tenant) (g : TenantSt → TenantSt) : (s.modTenant n g).boot = s.boot := rfl
@[simp] theorem State.modTenant_power (s : State) (n : Tenant) (g : TenantSt → TenantSt) : (s.modTenant n g).power = s.power := rfl
@[simp] theorem State.modTenant_mmc (s : State) (n : Tenant) (g : TenantSt → TenantSt) : (s.modTenant n g).mmc = s.mmc := rfl
@[simp] theorem State.modTenant_jtag (s : State) (n : Tenant) (g : TenantSt → TenantSt) : (s.modTenant n g).jtag = s.jtag := rfl
@[simp] theorem State.modTenant_pending (s : State) (n : Tenant) (g : TenantSt → TenantSt) : (s.modTenant n g).pending = s.pending := rfl

/-! ### modQueue -/

@[simp] theorem State.modQueue_clk (s : State) (f : Fn) (k : Nat) (g : Queue → Queue) : (s.modQueue f k g).clk = s.clk := rfl
@[simp] theorem State.modQueue_work (s : State) (f : Fn) (k : Nat) (g : Queue → Queue) : (s.modQueue f k g).work = s.work := rfl
@[simp] theorem State.modQueue_pools (s : State) (f : Fn) (k : Nat) (g : Queue → Queue) : (s.modQueue f k g).pools = s.pools := rfl
@[simp] theorem State.modQueue_dram (s : State) (f : Fn) (k : Nat) (g : Queue → Queue) : (s.modQueue f k g).dram = s.dram := rfl
@[simp] theorem State.modQueue_fab (s : State) (f : Fn) (k : Nat) (g : Queue → Queue) : (s.modQueue f k g).fab = s.fab := rfl
@[simp] theorem State.modQueue_chain (s : State) (f : Fn) (k : Nat) (g : Queue → Queue) : (s.modQueue f k g).chain = s.chain := rfl
@[simp] theorem State.modQueue_safety (s : State) (f : Fn) (k : Nat) (g : Queue → Queue) : (s.modQueue f k g).safety = s.safety := rfl
@[simp] theorem State.modQueue_nor (s : State) (f : Fn) (k : Nat) (g : Queue → Queue) : (s.modQueue f k g).nor = s.nor := rfl
@[simp] theorem State.modQueue_boot (s : State) (f : Fn) (k : Nat) (g : Queue → Queue) : (s.modQueue f k g).boot = s.boot := rfl
@[simp] theorem State.modQueue_power (s : State) (f : Fn) (k : Nat) (g : Queue → Queue) : (s.modQueue f k g).power = s.power := rfl
@[simp] theorem State.modQueue_mmc (s : State) (f : Fn) (k : Nat) (g : Queue → Queue) : (s.modQueue f k g).mmc = s.mmc := rfl
@[simp] theorem State.modQueue_jtag (s : State) (f : Fn) (k : Nat) (g : Queue → Queue) : (s.modQueue f k g).jtag = s.jtag := rfl
@[simp] theorem State.modQueue_pending (s : State) (f : Fn) (k : Nat) (g : Queue → Queue) : (s.modQueue f k g).pending = s.pending := rfl

/-! ### modClasp -/

@[simp] theorem State.modClasp_clk (s : State) (k : Nat) (g : Clasp → Clasp) : (s.modClasp k g).clk = s.clk := rfl
@[simp] theorem State.modClasp_work (s : State) (k : Nat) (g : Clasp → Clasp) : (s.modClasp k g).work = s.work := rfl
@[simp] theorem State.modClasp_pools (s : State) (k : Nat) (g : Clasp → Clasp) : (s.modClasp k g).pools = s.pools := rfl
@[simp] theorem State.modClasp_dram (s : State) (k : Nat) (g : Clasp → Clasp) : (s.modClasp k g).dram = s.dram := rfl
@[simp] theorem State.modClasp_fab (s : State) (k : Nat) (g : Clasp → Clasp) : (s.modClasp k g).fab = s.fab := rfl
@[simp] theorem State.modClasp_chain (s : State) (k : Nat) (g : Clasp → Clasp) : (s.modClasp k g).chain = s.chain := rfl
@[simp] theorem State.modClasp_safety (s : State) (k : Nat) (g : Clasp → Clasp) : (s.modClasp k g).safety = s.safety := rfl
@[simp] theorem State.modClasp_nor (s : State) (k : Nat) (g : Clasp → Clasp) : (s.modClasp k g).nor = s.nor := rfl
@[simp] theorem State.modClasp_boot (s : State) (k : Nat) (g : Clasp → Clasp) : (s.modClasp k g).boot = s.boot := rfl
@[simp] theorem State.modClasp_power (s : State) (k : Nat) (g : Clasp → Clasp) : (s.modClasp k g).power = s.power := rfl
@[simp] theorem State.modClasp_mmc (s : State) (k : Nat) (g : Clasp → Clasp) : (s.modClasp k g).mmc = s.mmc := rfl
@[simp] theorem State.modClasp_jtag (s : State) (k : Nat) (g : Clasp → Clasp) : (s.modClasp k g).jtag = s.jtag := rfl
@[simp] theorem State.modClasp_pending (s : State) (k : Nat) (g : Clasp → Clasp) : (s.modClasp k g).pending = s.pending := rfl

/-! ### modStream -/

@[simp] theorem State.modStream_clk (s : State) (k : Nat) (g : Stream → Stream) : (s.modStream k g).clk = s.clk := rfl
@[simp] theorem State.modStream_host (s : State) (k : Nat) (g : Stream → Stream) : (s.modStream k g).host = s.host := rfl
@[simp] theorem State.modStream_pools (s : State) (k : Nat) (g : Stream → Stream) : (s.modStream k g).pools = s.pools := rfl
@[simp] theorem State.modStream_dram (s : State) (k : Nat) (g : Stream → Stream) : (s.modStream k g).dram = s.dram := rfl
@[simp] theorem State.modStream_fab (s : State) (k : Nat) (g : Stream → Stream) : (s.modStream k g).fab = s.fab := rfl
@[simp] theorem State.modStream_chain (s : State) (k : Nat) (g : Stream → Stream) : (s.modStream k g).chain = s.chain := rfl
@[simp] theorem State.modStream_safety (s : State) (k : Nat) (g : Stream → Stream) : (s.modStream k g).safety = s.safety := rfl
@[simp] theorem State.modStream_nor (s : State) (k : Nat) (g : Stream → Stream) : (s.modStream k g).nor = s.nor := rfl
@[simp] theorem State.modStream_boot (s : State) (k : Nat) (g : Stream → Stream) : (s.modStream k g).boot = s.boot := rfl
@[simp] theorem State.modStream_power (s : State) (k : Nat) (g : Stream → Stream) : (s.modStream k g).power = s.power := rfl
@[simp] theorem State.modStream_mmc (s : State) (k : Nat) (g : Stream → Stream) : (s.modStream k g).mmc = s.mmc := rfl
@[simp] theorem State.modStream_jtag (s : State) (k : Nat) (g : Stream → Stream) : (s.modStream k g).jtag = s.jtag := rfl
@[simp] theorem State.modStream_pending (s : State) (k : Nat) (g : Stream → Stream) : (s.modStream k g).pending = s.pending := rfl

/-! ### modModel -/

@[simp] theorem State.modModel_clk (s : State) (f : Fn) (k : Nat) (g : Model → Model) : (s.modModel f k g).clk = s.clk := rfl
@[simp] theorem State.modModel_host (s : State) (f : Fn) (k : Nat) (g : Model → Model) : (s.modModel f k g).host = s.host := rfl
@[simp] theorem State.modModel_pools (s : State) (f : Fn) (k : Nat) (g : Model → Model) : (s.modModel f k g).pools = s.pools := rfl
@[simp] theorem State.modModel_dram (s : State) (f : Fn) (k : Nat) (g : Model → Model) : (s.modModel f k g).dram = s.dram := rfl
@[simp] theorem State.modModel_fab (s : State) (f : Fn) (k : Nat) (g : Model → Model) : (s.modModel f k g).fab = s.fab := rfl
@[simp] theorem State.modModel_chain (s : State) (f : Fn) (k : Nat) (g : Model → Model) : (s.modModel f k g).chain = s.chain := rfl
@[simp] theorem State.modModel_safety (s : State) (f : Fn) (k : Nat) (g : Model → Model) : (s.modModel f k g).safety = s.safety := rfl
@[simp] theorem State.modModel_nor (s : State) (f : Fn) (k : Nat) (g : Model → Model) : (s.modModel f k g).nor = s.nor := rfl
@[simp] theorem State.modModel_boot (s : State) (f : Fn) (k : Nat) (g : Model → Model) : (s.modModel f k g).boot = s.boot := rfl
@[simp] theorem State.modModel_power (s : State) (f : Fn) (k : Nat) (g : Model → Model) : (s.modModel f k g).power = s.power := rfl
@[simp] theorem State.modModel_mmc (s : State) (f : Fn) (k : Nat) (g : Model → Model) : (s.modModel f k g).mmc = s.mmc := rfl
@[simp] theorem State.modModel_jtag (s : State) (f : Fn) (k : Nat) (g : Model → Model) : (s.modModel f k g).jtag = s.jtag := rfl
@[simp] theorem State.modModel_pending (s : State) (f : Fn) (k : Nat) (g : Model → Model) : (s.modModel f k g).pending = s.pending := rfl

/-! ### modChannel -/

@[simp] theorem State.modChannel_clk (s : State) (c : Channel) (g : ChannelSt → ChannelSt) : (s.modChannel c g).clk = s.clk := rfl
@[simp] theorem State.modChannel_host (s : State) (c : Channel) (g : ChannelSt → ChannelSt) : (s.modChannel c g).host = s.host := rfl
@[simp] theorem State.modChannel_work (s : State) (c : Channel) (g : ChannelSt → ChannelSt) : (s.modChannel c g).work = s.work := rfl
@[simp] theorem State.modChannel_pools (s : State) (c : Channel) (g : ChannelSt → ChannelSt) : (s.modChannel c g).pools = s.pools := rfl
@[simp] theorem State.modChannel_fab (s : State) (c : Channel) (g : ChannelSt → ChannelSt) : (s.modChannel c g).fab = s.fab := rfl
@[simp] theorem State.modChannel_chain (s : State) (c : Channel) (g : ChannelSt → ChannelSt) : (s.modChannel c g).chain = s.chain := rfl
@[simp] theorem State.modChannel_safety (s : State) (c : Channel) (g : ChannelSt → ChannelSt) : (s.modChannel c g).safety = s.safety := rfl
@[simp] theorem State.modChannel_nor (s : State) (c : Channel) (g : ChannelSt → ChannelSt) : (s.modChannel c g).nor = s.nor := rfl
@[simp] theorem State.modChannel_boot (s : State) (c : Channel) (g : ChannelSt → ChannelSt) : (s.modChannel c g).boot = s.boot := rfl
@[simp] theorem State.modChannel_power (s : State) (c : Channel) (g : ChannelSt → ChannelSt) : (s.modChannel c g).power = s.power := rfl
@[simp] theorem State.modChannel_mmc (s : State) (c : Channel) (g : ChannelSt → ChannelSt) : (s.modChannel c g).mmc = s.mmc := rfl
@[simp] theorem State.modChannel_jtag (s : State) (c : Channel) (g : ChannelSt → ChannelSt) : (s.modChannel c g).jtag = s.jtag := rfl
@[simp] theorem State.modChannel_pending (s : State) (c : Channel) (g : ChannelSt → ChannelSt) : (s.modChannel c g).pending = s.pending := rfl

/-! ### modPort -/

@[simp] theorem State.modPort_clk (s : State) (i : Fin 72) (g : PortSt → PortSt) : (s.modPort i g).clk = s.clk := rfl
@[simp] theorem State.modPort_host (s : State) (i : Fin 72) (g : PortSt → PortSt) : (s.modPort i g).host = s.host := rfl
@[simp] theorem State.modPort_work (s : State) (i : Fin 72) (g : PortSt → PortSt) : (s.modPort i g).work = s.work := rfl
@[simp] theorem State.modPort_pools (s : State) (i : Fin 72) (g : PortSt → PortSt) : (s.modPort i g).pools = s.pools := rfl
@[simp] theorem State.modPort_fab (s : State) (i : Fin 72) (g : PortSt → PortSt) : (s.modPort i g).fab = s.fab := rfl
@[simp] theorem State.modPort_chain (s : State) (i : Fin 72) (g : PortSt → PortSt) : (s.modPort i g).chain = s.chain := rfl
@[simp] theorem State.modPort_safety (s : State) (i : Fin 72) (g : PortSt → PortSt) : (s.modPort i g).safety = s.safety := rfl
@[simp] theorem State.modPort_nor (s : State) (i : Fin 72) (g : PortSt → PortSt) : (s.modPort i g).nor = s.nor := rfl
@[simp] theorem State.modPort_boot (s : State) (i : Fin 72) (g : PortSt → PortSt) : (s.modPort i g).boot = s.boot := rfl
@[simp] theorem State.modPort_power (s : State) (i : Fin 72) (g : PortSt → PortSt) : (s.modPort i g).power = s.power := rfl
@[simp] theorem State.modPort_mmc (s : State) (i : Fin 72) (g : PortSt → PortSt) : (s.modPort i g).mmc = s.mmc := rfl
@[simp] theorem State.modPort_jtag (s : State) (i : Fin 72) (g : PortSt → PortSt) : (s.modPort i g).jtag = s.jtag := rfl
@[simp] theorem State.modPort_pending (s : State) (i : Fin 72) (g : PortSt → PortSt) : (s.modPort i g).pending = s.pending := rfl

/-! ### modLink -/

@[simp] theorem State.modLink_clk (s : State) (k : Link) (g : LinkSt → LinkSt) : (s.modLink k g).clk = s.clk := rfl
@[simp] theorem State.modLink_host (s : State) (k : Link) (g : LinkSt → LinkSt) : (s.modLink k g).host = s.host := rfl
@[simp] theorem State.modLink_work (s : State) (k : Link) (g : LinkSt → LinkSt) : (s.modLink k g).work = s.work := rfl
@[simp] theorem State.modLink_pools (s : State) (k : Link) (g : LinkSt → LinkSt) : (s.modLink k g).pools = s.pools := rfl
@[simp] theorem State.modLink_dram (s : State) (k : Link) (g : LinkSt → LinkSt) : (s.modLink k g).dram = s.dram := rfl
@[simp] theorem State.modLink_fab (s : State) (k : Link) (g : LinkSt → LinkSt) : (s.modLink k g).fab = s.fab := rfl
@[simp] theorem State.modLink_safety (s : State) (k : Link) (g : LinkSt → LinkSt) : (s.modLink k g).safety = s.safety := rfl
@[simp] theorem State.modLink_nor (s : State) (k : Link) (g : LinkSt → LinkSt) : (s.modLink k g).nor = s.nor := rfl
@[simp] theorem State.modLink_boot (s : State) (k : Link) (g : LinkSt → LinkSt) : (s.modLink k g).boot = s.boot := rfl
@[simp] theorem State.modLink_power (s : State) (k : Link) (g : LinkSt → LinkSt) : (s.modLink k g).power = s.power := rfl
@[simp] theorem State.modLink_mmc (s : State) (k : Link) (g : LinkSt → LinkSt) : (s.modLink k g).mmc = s.mmc := rfl
@[simp] theorem State.modLink_jtag (s : State) (k : Link) (g : LinkSt → LinkSt) : (s.modLink k g).jtag = s.jtag := rfl
@[simp] theorem State.modLink_pending (s : State) (k : Link) (g : LinkSt → LinkSt) : (s.modLink k g).pending = s.pending := rfl

/-! ### modPeer -/

@[simp] theorem State.modPeer_clk (s : State) (m : ModuleNo) (g : Peer → Peer) : (s.modPeer m g).clk = s.clk := rfl
@[simp] theorem State.modPeer_host (s : State) (m : ModuleNo) (g : Peer → Peer) : (s.modPeer m g).host = s.host := rfl
@[simp] theorem State.modPeer_work (s : State) (m : ModuleNo) (g : Peer → Peer) : (s.modPeer m g).work = s.work := rfl
@[simp] theorem State.modPeer_pools (s : State) (m : ModuleNo) (g : Peer → Peer) : (s.modPeer m g).pools = s.pools := rfl
@[simp] theorem State.modPeer_dram (s : State) (m : ModuleNo) (g : Peer → Peer) : (s.modPeer m g).dram = s.dram := rfl
@[simp] theorem State.modPeer_fab (s : State) (m : ModuleNo) (g : Peer → Peer) : (s.modPeer m g).fab = s.fab := rfl
@[simp] theorem State.modPeer_safety (s : State) (m : ModuleNo) (g : Peer → Peer) : (s.modPeer m g).safety = s.safety := rfl
@[simp] theorem State.modPeer_nor (s : State) (m : ModuleNo) (g : Peer → Peer) : (s.modPeer m g).nor = s.nor := rfl
@[simp] theorem State.modPeer_boot (s : State) (m : ModuleNo) (g : Peer → Peer) : (s.modPeer m g).boot = s.boot := rfl
@[simp] theorem State.modPeer_power (s : State) (m : ModuleNo) (g : Peer → Peer) : (s.modPeer m g).power = s.power := rfl
@[simp] theorem State.modPeer_mmc (s : State) (m : ModuleNo) (g : Peer → Peer) : (s.modPeer m g).mmc = s.mmc := rfl
@[simp] theorem State.modPeer_jtag (s : State) (m : ModuleNo) (g : Peer → Peer) : (s.modPeer m g).jtag = s.jtag := rfl
@[simp] theorem State.modPeer_pending (s : State) (m : ModuleNo) (g : Peer → Peer) : (s.modPeer m g).pending = s.pending := rfl

/-! ### modFw -/

@[simp] theorem State.modFw_clk (s : State) (c : Nat) (g : FwComponent → FwComponent) : (s.modFw c g).clk = s.clk := by
  unfold State.modFw; split <;> rfl
@[simp] theorem State.modFw_host (s : State) (c : Nat) (g : FwComponent → FwComponent) : (s.modFw c g).host = s.host := by
  unfold State.modFw; split <;> rfl
@[simp] theorem State.modFw_work (s : State) (c : Nat) (g : FwComponent → FwComponent) : (s.modFw c g).work = s.work := by
  unfold State.modFw; split <;> rfl
@[simp] theorem State.modFw_pools (s : State) (c : Nat) (g : FwComponent → FwComponent) : (s.modFw c g).pools = s.pools := by
  unfold State.modFw; split <;> rfl
@[simp] theorem State.modFw_dram (s : State) (c : Nat) (g : FwComponent → FwComponent) : (s.modFw c g).dram = s.dram := by
  unfold State.modFw; split <;> rfl
@[simp] theorem State.modFw_fab (s : State) (c : Nat) (g : FwComponent → FwComponent) : (s.modFw c g).fab = s.fab := by
  unfold State.modFw; split <;> rfl
@[simp] theorem State.modFw_chain (s : State) (c : Nat) (g : FwComponent → FwComponent) : (s.modFw c g).chain = s.chain := by
  unfold State.modFw; split <;> rfl
@[simp] theorem State.modFw_safety (s : State) (c : Nat) (g : FwComponent → FwComponent) : (s.modFw c g).safety = s.safety := by
  unfold State.modFw; split <;> rfl
@[simp] theorem State.modFw_boot (s : State) (c : Nat) (g : FwComponent → FwComponent) : (s.modFw c g).boot = s.boot := by
  unfold State.modFw; split <;> rfl
@[simp] theorem State.modFw_power (s : State) (c : Nat) (g : FwComponent → FwComponent) : (s.modFw c g).power = s.power := by
  unfold State.modFw; split <;> rfl
@[simp] theorem State.modFw_jtag (s : State) (c : Nat) (g : FwComponent → FwComponent) : (s.modFw c g).jtag = s.jtag := by
  unfold State.modFw; split <;> rfl
@[simp] theorem State.modFw_pending (s : State) (c : Nat) (g : FwComponent → FwComponent) : (s.modFw c g).pending = s.pending := by
  unfold State.modFw; split <;> rfl

/-! ### raiseFull -/

@[simp] theorem State.raiseFull_clk (s : State) (f : Fn) (code sev slot stream node : Nat) (d : List Byte) : (s.raiseFull f code sev slot stream node d).clk = s.clk := rfl
@[simp] theorem State.raiseFull_work (s : State) (f : Fn) (code sev slot stream node : Nat) (d : List Byte) : (s.raiseFull f code sev slot stream node d).work = s.work := rfl
@[simp] theorem State.raiseFull_pools (s : State) (f : Fn) (code sev slot stream node : Nat) (d : List Byte) : (s.raiseFull f code sev slot stream node d).pools = s.pools := rfl
@[simp] theorem State.raiseFull_dram (s : State) (f : Fn) (code sev slot stream node : Nat) (d : List Byte) : (s.raiseFull f code sev slot stream node d).dram = s.dram := rfl
@[simp] theorem State.raiseFull_fab (s : State) (f : Fn) (code sev slot stream node : Nat) (d : List Byte) : (s.raiseFull f code sev slot stream node d).fab = s.fab := rfl
@[simp] theorem State.raiseFull_chain (s : State) (f : Fn) (code sev slot stream node : Nat) (d : List Byte) : (s.raiseFull f code sev slot stream node d).chain = s.chain := rfl
@[simp] theorem State.raiseFull_safety (s : State) (f : Fn) (code sev slot stream node : Nat) (d : List Byte) : (s.raiseFull f code sev slot stream node d).safety = s.safety := rfl
@[simp] theorem State.raiseFull_nor (s : State) (f : Fn) (code sev slot stream node : Nat) (d : List Byte) : (s.raiseFull f code sev slot stream node d).nor = s.nor := rfl
@[simp] theorem State.raiseFull_boot (s : State) (f : Fn) (code sev slot stream node : Nat) (d : List Byte) : (s.raiseFull f code sev slot stream node d).boot = s.boot := rfl
@[simp] theorem State.raiseFull_power (s : State) (f : Fn) (code sev slot stream node : Nat) (d : List Byte) : (s.raiseFull f code sev slot stream node d).power = s.power := rfl
@[simp] theorem State.raiseFull_mmc (s : State) (f : Fn) (code sev slot stream node : Nat) (d : List Byte) : (s.raiseFull f code sev slot stream node d).mmc = s.mmc := rfl
@[simp] theorem State.raiseFull_jtag (s : State) (f : Fn) (code sev slot stream node : Nat) (d : List Byte) : (s.raiseFull f code sev slot stream node d).jtag = s.jtag := rfl
@[simp] theorem State.raiseFull_pending (s : State) (f : Fn) (code sev slot stream node : Nat) (d : List Byte) : (s.raiseFull f code sev slot stream node d).pending = s.pending := rfl

/-! ### raise -/

@[simp] theorem State.raise_clk (s : State) (f : Fn) (code : Nat) (d : List Byte) : (s.raise f code d).clk = s.clk := rfl
@[simp] theorem State.raise_work (s : State) (f : Fn) (code : Nat) (d : List Byte) : (s.raise f code d).work = s.work := rfl
@[simp] theorem State.raise_pools (s : State) (f : Fn) (code : Nat) (d : List Byte) : (s.raise f code d).pools = s.pools := rfl
@[simp] theorem State.raise_dram (s : State) (f : Fn) (code : Nat) (d : List Byte) : (s.raise f code d).dram = s.dram := rfl
@[simp] theorem State.raise_fab (s : State) (f : Fn) (code : Nat) (d : List Byte) : (s.raise f code d).fab = s.fab := rfl
@[simp] theorem State.raise_chain (s : State) (f : Fn) (code : Nat) (d : List Byte) : (s.raise f code d).chain = s.chain := rfl
@[simp] theorem State.raise_safety (s : State) (f : Fn) (code : Nat) (d : List Byte) : (s.raise f code d).safety = s.safety := rfl
@[simp] theorem State.raise_nor (s : State) (f : Fn) (code : Nat) (d : List Byte) : (s.raise f code d).nor = s.nor := rfl
@[simp] theorem State.raise_boot (s : State) (f : Fn) (code : Nat) (d : List Byte) : (s.raise f code d).boot = s.boot := rfl
@[simp] theorem State.raise_power (s : State) (f : Fn) (code : Nat) (d : List Byte) : (s.raise f code d).power = s.power := rfl
@[simp] theorem State.raise_mmc (s : State) (f : Fn) (code : Nat) (d : List Byte) : (s.raise f code d).mmc = s.mmc := rfl
@[simp] theorem State.raise_jtag (s : State) (f : Fn) (code : Nat) (d : List Byte) : (s.raise f code d).jtag = s.jtag := rfl
@[simp] theorem State.raise_pending (s : State) (f : Fn) (code : Nat) (d : List Byte) : (s.raise f code d).pending = s.pending := rfl

/-! ### raiseStream -/

@[simp] theorem State.raiseStream_clk (s : State) (f : Fn) (code h : Nat) (d : List Byte) : (s.raiseStream f code h d).clk = s.clk := rfl
@[simp] theorem State.raiseStream_work (s : State) (f : Fn) (code h : Nat) (d : List Byte) : (s.raiseStream f code h d).work = s.work := rfl
@[simp] theorem State.raiseStream_pools (s : State) (f : Fn) (code h : Nat) (d : List Byte) : (s.raiseStream f code h d).pools = s.pools := rfl
@[simp] theorem State.raiseStream_dram (s : State) (f : Fn) (code h : Nat) (d : List Byte) : (s.raiseStream f code h d).dram = s.dram := rfl
@[simp] theorem State.raiseStream_fab (s : State) (f : Fn) (code h : Nat) (d : List Byte) : (s.raiseStream f code h d).fab = s.fab := rfl
@[simp] theorem State.raiseStream_chain (s : State) (f : Fn) (code h : Nat) (d : List Byte) : (s.raiseStream f code h d).chain = s.chain := rfl
@[simp] theorem State.raiseStream_safety (s : State) (f : Fn) (code h : Nat) (d : List Byte) : (s.raiseStream f code h d).safety = s.safety := rfl
@[simp] theorem State.raiseStream_nor (s : State) (f : Fn) (code h : Nat) (d : List Byte) : (s.raiseStream f code h d).nor = s.nor := rfl
@[simp] theorem State.raiseStream_boot (s : State) (f : Fn) (code h : Nat) (d : List Byte) : (s.raiseStream f code h d).boot = s.boot := rfl
@[simp] theorem State.raiseStream_power (s : State) (f : Fn) (code h : Nat) (d : List Byte) : (s.raiseStream f code h d).power = s.power := rfl
@[simp] theorem State.raiseStream_mmc (s : State) (f : Fn) (code h : Nat) (d : List Byte) : (s.raiseStream f code h d).mmc = s.mmc := rfl
@[simp] theorem State.raiseStream_jtag (s : State) (f : Fn) (code h : Nat) (d : List Byte) : (s.raiseStream f code h d).jtag = s.jtag := rfl
@[simp] theorem State.raiseStream_pending (s : State) (f : Fn) (code h : Nat) (d : List Byte) : (s.raiseStream f code h d).pending = s.pending := rfl

/-! ### raiseSlot -/

@[simp] theorem State.raiseSlot_clk (s : State) (f : Fn) (code k : Nat) (d : List Byte) : (s.raiseSlot f code k d).clk = s.clk := rfl
@[simp] theorem State.raiseSlot_work (s : State) (f : Fn) (code k : Nat) (d : List Byte) : (s.raiseSlot f code k d).work = s.work := rfl
@[simp] theorem State.raiseSlot_pools (s : State) (f : Fn) (code k : Nat) (d : List Byte) : (s.raiseSlot f code k d).pools = s.pools := rfl
@[simp] theorem State.raiseSlot_dram (s : State) (f : Fn) (code k : Nat) (d : List Byte) : (s.raiseSlot f code k d).dram = s.dram := rfl
@[simp] theorem State.raiseSlot_fab (s : State) (f : Fn) (code k : Nat) (d : List Byte) : (s.raiseSlot f code k d).fab = s.fab := rfl
@[simp] theorem State.raiseSlot_chain (s : State) (f : Fn) (code k : Nat) (d : List Byte) : (s.raiseSlot f code k d).chain = s.chain := rfl
@[simp] theorem State.raiseSlot_safety (s : State) (f : Fn) (code k : Nat) (d : List Byte) : (s.raiseSlot f code k d).safety = s.safety := rfl
@[simp] theorem State.raiseSlot_nor (s : State) (f : Fn) (code k : Nat) (d : List Byte) : (s.raiseSlot f code k d).nor = s.nor := rfl
@[simp] theorem State.raiseSlot_boot (s : State) (f : Fn) (code k : Nat) (d : List Byte) : (s.raiseSlot f code k d).boot = s.boot := rfl
@[simp] theorem State.raiseSlot_power (s : State) (f : Fn) (code k : Nat) (d : List Byte) : (s.raiseSlot f code k d).power = s.power := rfl
@[simp] theorem State.raiseSlot_mmc (s : State) (f : Fn) (code k : Nat) (d : List Byte) : (s.raiseSlot f code k d).mmc = s.mmc := rfl
@[simp] theorem State.raiseSlot_jtag (s : State) (f : Fn) (code k : Nat) (d : List Byte) : (s.raiseSlot f code k d).jtag = s.jtag := rfl
@[simp] theorem State.raiseSlot_pending (s : State) (f : Fn) (code k : Nat) (d : List Byte) : (s.raiseSlot f code k d).pending = s.pending := rfl

/-! ### raiseNode -/

@[simp] theorem State.raiseNode_clk (s : State) (f : Fn) (code n : Nat) (d : List Byte) : (s.raiseNode f code n d).clk = s.clk := rfl
@[simp] theorem State.raiseNode_work (s : State) (f : Fn) (code n : Nat) (d : List Byte) : (s.raiseNode f code n d).work = s.work := rfl
@[simp] theorem State.raiseNode_pools (s : State) (f : Fn) (code n : Nat) (d : List Byte) : (s.raiseNode f code n d).pools = s.pools := rfl
@[simp] theorem State.raiseNode_dram (s : State) (f : Fn) (code n : Nat) (d : List Byte) : (s.raiseNode f code n d).dram = s.dram := rfl
@[simp] theorem State.raiseNode_fab (s : State) (f : Fn) (code n : Nat) (d : List Byte) : (s.raiseNode f code n d).fab = s.fab := rfl
@[simp] theorem State.raiseNode_chain (s : State) (f : Fn) (code n : Nat) (d : List Byte) : (s.raiseNode f code n d).chain = s.chain := rfl
@[simp] theorem State.raiseNode_safety (s : State) (f : Fn) (code n : Nat) (d : List Byte) : (s.raiseNode f code n d).safety = s.safety := rfl
@[simp] theorem State.raiseNode_nor (s : State) (f : Fn) (code n : Nat) (d : List Byte) : (s.raiseNode f code n d).nor = s.nor := rfl
@[simp] theorem State.raiseNode_boot (s : State) (f : Fn) (code n : Nat) (d : List Byte) : (s.raiseNode f code n d).boot = s.boot := rfl
@[simp] theorem State.raiseNode_power (s : State) (f : Fn) (code n : Nat) (d : List Byte) : (s.raiseNode f code n d).power = s.power := rfl
@[simp] theorem State.raiseNode_mmc (s : State) (f : Fn) (code n : Nat) (d : List Byte) : (s.raiseNode f code n d).mmc = s.mmc := rfl
@[simp] theorem State.raiseNode_jtag (s : State) (f : Fn) (code n : Nat) (d : List Byte) : (s.raiseNode f code n d).jtag = s.jtag := rfl
@[simp] theorem State.raiseNode_pending (s : State) (f : Fn) (code n : Nat) (d : List Byte) : (s.raiseNode f code n d).pending = s.pending := rfl

/-! ### Reading what an update changed -/

theorem vget_set_self {α : Type} {n : Nat} (v : Vector α n) (i : Fin n) (x : α) : (v.set i.val x).get i = x := by
  change (v.set i.val x)[i.val] = x
  simp

theorem vget_set_ne {α : Type} {n : Nat} (v : Vector α n) {i j : Fin n} (x : α) (h : j ≠ i) :
    (v.set i.val x).get j = v.get j := by
  change (v.set i.val x)[j.val] = v[j.val]
  exact Vector.getElem_set_ne _ _ (fun e => h (Fin.ext e.symm))

@[simp] theorem State.fnSt_modFn (s : State) (f : Fn) (g : FnState → FnState) : (s.modFn f g).fnSt f = g (s.fnSt f) := vget_set_self _ _ _

theorem State.fnSt_modFn_ne (s : State) {f k : Fn} (g : FnState → FnState) (h : k ≠ f) : (s.modFn f g).fnSt k = s.fnSt k := vget_set_ne _ _ h

/-- Two updates of one function are one. -/
theorem State.modFn_modFn (s : State) (f : Fn) (g k : FnState → FnState) : (s.modFn f g).modFn f k = s.modFn f (fun x => k (g x)) := by
  have h : (s.modFn f g).fnSt f = g (s.fnSt f) := by simp
  unfold State.fnSt at h
  simp only [State.modFn] at h ⊢
  simp only [h, Vector.set_set]

theorem State.modFn_congr {s : State} {f : Fn} {g k : FnState → FnState} (h : g (s.fnSt f) = k (s.fnSt f)) :
    s.modFn f g = s.modFn f k := by
  unfold State.fnSt at h
  simp only [State.modFn, h]

/-- An update that gives a function the value it has changes nothing. -/
theorem State.modFn_same {s : State} {f : Fn} {g : FnState → FnState} (h : g (s.fnSt f) = s.fnSt f) : s.modFn f g = s := by
  have h2 : s.host.fns.set f.val (s.fnSt f) = s.host.fns := by
    ext i hi
    simp only [Vector.getElem_set, State.fnSt, Vector.get]
    split
    · next h => subst h; rfl
    · rfl
  unfold State.fnSt at h h2
  simp only [State.modFn, h, h2]

@[simp] theorem State.tenantSt_modTenant (s : State) (n : Tenant) (g : TenantSt → TenantSt) :
    (s.modTenant n g).tenantSt n = g (s.tenantSt n) := vget_set_self _ _ _

theorem State.tenantSt_modTenant_ne (s : State) {n k : Tenant} (g : TenantSt → TenantSt) (h : k ≠ n) :
    (s.modTenant n g).tenantSt k = s.tenantSt k := vget_set_ne _ _ h

@[simp] theorem State.channel_modChannel (s : State) (c : Channel) (g : ChannelSt → ChannelSt) :
    (s.modChannel c g).channel c = g (s.channel c) := vget_set_self _ _ _

theorem State.channel_modChannel_ne (s : State) {c k : Channel} (g : ChannelSt → ChannelSt) (h : k ≠ c) :
    (s.modChannel c g).channel k = s.channel k := vget_set_ne _ _ h

@[simp] theorem State.modChannel_mem (s : State) (c : Channel) (g : ChannelSt → ChannelSt) :
    (s.modChannel c g).dram.mem = s.dram.mem := rfl

@[simp] theorem State.modChannel_sram (s : State) (c : Channel) (g : ChannelSt → ChannelSt) :
    (s.modChannel c g).dram.sram = s.dram.sram := rfl

@[simp] theorem State.modPort_mem (s : State) (i : Fin 72) (g : PortSt → PortSt) : (s.modPort i g).dram.mem = s.dram.mem := rfl

@[simp] theorem State.modPort_sram (s : State) (i : Fin 72) (g : PortSt → PortSt) : (s.modPort i g).dram.sram = s.dram.sram := rfl

@[simp] theorem State.channel_modPort (s : State) (i : Fin 72) (g : PortSt → PortSt) (c : Channel) :
    (s.modPort i g).channel c = s.channel c := rfl

@[simp] theorem State.link_modLink (s : State) (k : Link) (g : LinkSt → LinkSt) : (s.modLink k g).link k = g (s.link k) := vget_set_self _ _ _

theorem State.link_modLink_ne (s : State) {k j : Link} (g : LinkSt → LinkSt) (h : j ≠ k) : (s.modLink k g).link j = s.link j := vget_set_ne _ _ h

@[simp] theorem State.peer_modPeer (s : State) (m : ModuleNo) (g : Peer → Peer) : (s.modPeer m g).peer m = g (s.peer m) := vget_set_self _ _ _

theorem State.peer_modPeer_ne (s : State) {m j : ModuleNo} (g : Peer → Peer) (h : j ≠ m) : (s.modPeer m g).peer j = s.peer j := vget_set_ne _ _ h

/-- An event joins those held for its function, and nothing else of the function changes. -/
theorem State.fnSt_raiseFull (s : State) (f : Fn) (code sev slot stream node : Nat) (d : List Byte) :
    ∃ e : Event, e.code = code ∧ e.tick = s.clk.tick ∧
      (s.raiseFull f code sev slot stream node d).fnSt f = (s.fnSt f).addEvent e := by
  exact ⟨_, rfl, rfl, State.fnSt_modFn s f _⟩

theorem State.fnSt_raiseFull_ne (s : State) {f k : Fn} (h : k ≠ f) (code sev slot stream node : Nat) (d : List Byte) :
    (s.raiseFull f code sev slot stream node d).fnSt k = s.fnSt k := State.fnSt_modFn_ne s _ h

/-- A draw changes the counter alone. -/
@[simp] theorem State.draw_snd (s : State) :
    s.draw.2 = { s with safety := { s.safety with draws := s.safety.draws + 1 } } := rfl

end Sys2Proof.Machine
end

