-- ==== Sys2Proof/WellFormed.lean ====
section
/-! DEFINITION. Well-formed commands: what the types of Syntax.lean do not already bound. An operand outside these bounds names no
step of the block: a unit the die does not have, a moment outside a tick, data of another length than its length field says. What
the spec makes the module check itself (a reserved field, a range of Table 6.10, a bad handle) is no matter of well-formedness:
those commands are well formed and `exec` answers them as the spec says. -/

namespace Sys2Proof

open Sys2Proof.Machine

/-- The die has such a unit (01_module_tray_die.md, Table 1.1; 04_hallmark.md, Table 4.5). -/
def UnitRef.built (u : UnitRef) : Bool := decide (u.num < builtOf u.kind)

/-- A node of the die (R21). -/
def nodeOk (n : BitVec 7) : Bool := decide (n.toNat < 72)

/-- A moment within a tick: at most the longest tick away from an edge (R56). -/
def inTick (ns : Nat) : Bool := decide (ns ≤ 1668333)

/-- A ring command comes from a doorbell slot a function has (06_rings_commands.md, R200, R202). -/
def CmdHead.slotOk (h : CmdHead) : Bool := decide (h.slot.toNat < 2048)

/-- A write on the PCIe link to one register: 1, 2, 4 or 8 bytes (R169). -/
def writeSizeOk (n : Nat) : Bool := [1, 2, 4, 8].contains n

def AcceptIn.ok (i : AcceptIn) : Bool := inTick i.toEdgeNs

def DoorbellIn.ok (i : DoorbellIn) : Bool := writeSizeOk i.size && decide (i.offset + i.size ≤ 8)

/-- A descriptor is 64 bytes (R199); a chunk is 1 to 4,194,304 (Table 6.5). A poisoned completion brings no data. -/
def HostReadIn.ok (i : HostReadIn) : Bool :=
  i.poisoned || match i.ref.kind with
    | .descriptor => i.data.length == 64
    | .chunk _ => decide (1 ≤ i.data.length) && decide (i.data.length ≤ 4194304)

/-- R229: the source data read is as long as the command says. -/
def TableWriteP.ok (p : TableWriteP) : Bool := p.data.length == p.bytes.toNat

def FwChunkP.ok (p : FwChunkP) : Bool := p.data.length == p.bytes.toNat

/-- Table 14.4: one to four models (R258), and a share asked for at all. -/
def MigrationRequestIn.ok (i : MigrationRequestIn) : Bool :=
  decide (1 ≤ i.models.length) && decide (i.models.length ≤ 4) && (i.decodeHere || i.inferHere)

/-- R394, R401: a record holds at most 1,024 detections. -/
def RemoteRecordsIn.ok (i : RemoteRecordsIn) : Bool := decide (i.dets.length ≤ 1024) && decide (i.dets.length ≤ i.totalDets.toNat)

def RegWriteIn.ok (i : RegWriteIn) : Bool := writeSizeOk i.size && inTick i.toEdgeNs

def PpsIn.ok (i : PpsIn) : Bool := inTick i.afterEdgeNs

/-- R32: at most 8 partitions. -/
def partitionOk (p : Nat) : Bool := decide (p < 8)

/-- A request moves at least one byte; a write brings a byte and an enable for each (R451). -/
def DramReqIn.ok (i : DramReqIn) : Bool :=
  decide (1 ≤ i.bytes) && (!i.write || (i.data.length == i.bytes && i.enables.length == i.bytes))

/-- Scheduling decisions stand on the 64 ns grid of the tick (R460). -/
def SchedIn.ok (i : SchedIn) : Bool := inTick (64 * i.slot64.toNat)

/-- A granule of 32 bytes of the channel's usable DRAM, by its number (R437, R444). -/
def ScrubIn.ok (i : ScrubIn) : Bool := decide (32 * i.granule.toNat < 0xE0000000)

def CreditIn.ok (i : CreditIn) : Bool := nodeOk i.node

/-- R468, R21: 1 to 5 flits between nodes of the die. -/
def FilPacket.ok (p : FilPacket) : Bool := nodeOk p.src && nodeOk p.dst && decide (1 ≤ p.flits) && decide (p.flits ≤ 5)

/-- Table 14.2: DATA carries 1 to 5 flits between nodes. -/
def ChainDataIn.ok (i : ChainDataIn) : Bool :=
  nodeOk i.srcNode && nodeOk i.dstNode && decide (1 ≤ i.flits) && decide (i.flits ≤ 5) && decide (i.creditCount ≤ 7)

def SelfTestFinding.ok : SelfTestFinding → Bool
  | .unitFails u => u.built
  | .facetColumn _ _ _ => true
  | .sramRow node _ _ => nodeOk node
  | .sramNoSpare u => u.built
  | .dramRepeat _ bank _ => decide (bank.toNat < 16)
  | .channelFails _ => true
  | .partFails _ => true

def BringUpIn.ok (i : BringUpIn) : Bool := i.findings.all SelfTestFinding.ok

/-- Table 18.5: 18 junction sensors and 16 DRAM sensors, or a list that could not be read. -/
def SensorIn.ok (i : SensorIn) : Bool :=
  (i.junctions.length == 18 || i.junctions.isEmpty) && (i.dram.length == 16 || i.dram.isEmpty)

/-- A command whose operands name a step of the block. -/
def Instr.wellFormed : Instr → Bool
  | .commit _ => true
  | .stageOverrun i => i.unit.built
  | .faultReport i => i.unit.built
  | .replayInputsReleased _ => true
  | .tokenRefill _ => true
  | .doorbell i => i.ok
  | .commandAccept i => i.ok
  | .hostReadCompletion i => i.ok
  | .completionTimeout _ => true
  | .fetchLate _ => true
  | .tenantConfigure h _ => h.slotOk
  | .partitionPlan h _ => h.slotOk
  | .queueCreate h _ => h.slotOk
  | .queueDestroy h _ => h.slotOk
  | .modelLoad h _ => h.slotOk
  | .modelLoadComplete _ => true
  | .modelUnload h _ => h.slotOk
  | .streamOpen h _ => h.slotOk
  | .streamClose h _ => h.slotOk
  | .streamCloseComplete _ => true
  | .streamModify h _ => h.slotOk
  | .streamMigrate h _ => h.slotOk
  | .migrationSwitch _ => true
  | .migrationCopyComplete _ => true
  | .migrationAdmissionRequest i => i.ok
  | .remoteRecords i => i.ok
  | .tableWrite h p => h.slotOk && p.ok
  | .claspCreate h _ => h.slotOk
  | .claspSignal h _ => h.slotOk
  | .claspDestroy h _ => h.slotOk
  | .calibrationPolicy h _ => h.slotOk
  | .sampleStart h _ => h.slotOk
  | .sampleStop h _ => h.slotOk
  | .timeSet h _ => h.slotOk
  | .fwDownloadChunk h p => h.slotOk && p.ok
  | .fwChunkWritten _ => true
  | .fwVerify h _ => h.slotOk
  | .fwVerifyDone _ => true
  | .fwActivate h _ => h.slotOk
  | .fwActivateDone _ => true
  | .fwConfirm h _ => h.slotOk
  | .fwConfirmDone _ => true
  | .fwAutoConfirmed _ => true
  | .auditRead h _ => h.slotOk
  | .nop h => h.slotOk
  | .sealRow _ => true
  | .sampleAllow i => inTick i.toEdgeNs
  | .registerWrite i => i.ok
  | .msixUnmask i => decide (i.vector < vectorsOf i.fn)
  | .busMasterEnable _ => true
  | .flr _ => true
  | .vfEnableClear => true
  | .hotReset => true
  | .pcieLinkDown => true
  | .d3hotEntry => true
  | .linkRetraining i => linkTrainOk i
  | .resetEnd _ => true
  | .zeroingComplete i => partitionOk i.partition
  | .ppsEdge i => i.ok
  | .timeRefLoss10m _ => true
  | .timeRefLossPps i => inTick i.afterEdgeNs
  | .timeRateReject _ => true
  | .timeHoldoverExpired => true
  | .steppedClear => true
  | .noReference i => inTick i.afterEdgeNs
  | .bufferAllocate _ => true
  | .bufferRelease i => nodeOk i.node
  | .poolLeakSuspect i => partitionOk i.partition
  | .poolForcedReclaim i => partitionOk i.partition
  | .dramRequest i => i.ok
  | .schedulingDecision i => i.ok
  | .regulatorRefill _ => true
  | .refresh _ => true
  | .temperatureRead _ => true
  | .zqCalibration _ => true
  | .patrolScrub i => i.ok
  | .filigreePacketHop i => i.packet.ok
  | .creditReturn i => i.ok
  | .trailingAcknowledgement i => nodeOk i.source
  | .fencedInjection i => i.packet.ok
  | .segmentHandover => true
  | .filigreeDrainFault => true
  | .train _ => true
  | .peerTick i => decide (i.creditCount ≤ 7)
  | .chainData i => i.ok
  | .nak _ => true
  | .replayTimeout _ => true
  | .chainLinkState _ => true
  | .nack i => nodeOk i.srcNode && nodeOk i.dstNode
  | .creditReset _ => true
  | .creditResetAck _ => true
  | .chainLinkUp _ => true
  | .chainPeerLost _ => true
  | .streamRehomed _ => true
  | .mirrorCapture => true
  | .mirrorAbandoned _ => true
  | .buddyRelease _ => true
  | .loadExchange _ => true
  | .balanceEvaluation => true
  | .quantRetune _ => true
  | .sampleEpochEnd _ => true
  | .touchstone i => i.unit.built
  | .touchstoneRetest i => i.unit.built
  | .lockstepMismatch _ => true
  | .clusterReload _ => true
  | .thermalThrottle _ => true
  | .thermalRunaway _ => true
  | .thermalResume => true
  | .thermtrip _ => true
  | .dieStart _ => true
  | .bringUp i => i.ok
  | .ready => true
  | .bootRomWatchdog => true
  | .auxPowerUp => true
  | .enAssert _ => true
  | .pwrgd => true
  | .enDeassert => true
  | .currentLimitTimeout _ => true
  | .rampTimeout _ => true
  | .overcurrentComparator _ => true
  | .p12vOutOfRange _ => true
  | .p12vRecovered => true
  | .retryRamp => true
  | .evacuationRequested => true
  | .evacuationComplete => true
  | .evacuationCancelled => true
  | .keepAlive => true
  | .telemetryStale => true
  | .mmcWatchdog => true
  | .mmcReturn => true
  | .mmcActivationRestart => true
  | .fanCurveEvaluation => true
  | .sensorRefresh i => i.ok
  | .setEndpointId _ => true
  | .getEndpointId _ => true
  | .getEndpointUuid _ => true
  | .getMctpVersionSupport _ => true
  | .getMessageTypeSupport _ => true
  | .getVendorDefinedMessageSupport _ => true
  | .getTid _ => true
  | .setTid _ => true
  | .getPldmVersion _ => true
  | .getPldmTypes _ => true
  | .getPldmCommands _ => true
  | .setEventReceiver _ => true
  | .getEventReceiver _ => true
  | .pollForPlatformEventMessage _ => true
  | .getSensorReading _ => true
  | .getStateSensorReadings _ => true
  | .getPdrRepositoryInfo _ => true
  | .getPdr _ => true
  | .getFruRecordTableMetadata _ => true
  | .getFruRecordTable _ => true
  | .queryDeviceIdentifiers _ => true
  | .getFirmwareParameters _ => true
  | .requestUpdate _ => true
  | .passComponentTable _ => true
  | .updateComponent _ => true
  | .activateFirmware _ => true
  | .getStatus _ => true
  | .cancelUpdateComponent _ => true
  | .cancelUpdate _ => true
  | .todArm _ => true
  | .modelKeySet _ => true
  | .modelKeyClear _ => true
  | .hotswapLogRead _ => true
  | .autoRetry _ => true
  | .bypass _ => true
  | .idcode _ => true
  | .samplePreload _ => true
  | .extest _ => true
  | .gapWrite _ => true
  | .eventsLost _ => true
  | .measurementWindow _ => true
  | .equalisationRetune _ => true
  | .railOutOfRegulation => true
  | .assayLockstepMismatch => true

end Sys2Proof
end

