-- ==== Sys2Proof/Tests/Slice0.lean ====
section
/-! SUPPORT. Tests: ill-formed commands that `wellFormed` refuses, small examples whose results come from the spec, and for every
statement with hypotheses a state and operands that meet them, clause by clause. -/

namespace Sys2Proof.Tests

open Sys2Proof Sys2Proof.Machine

/-! ### States the tests begin from -/

/-- A READY module whose functions are not sealed. -/
def idleSt : State :=
  { State.reset with safety := { Safety.reset with state := .ready }, boot := { Boot.reset with broughtUp := true } }

def openFn : FnState := { FnState.reset with sealed := true, memEnable := true, busMaster := true, msixEnable := true }

def tenant0 : TenantSt := { TenantSt.reset with configured := true, tableEpoch := 1, retireClasp := some 9 }

/-- A READY module whose 17 functions are sealed and whose tenants are configured in partition 0, at tick 100. -/
def up : State :=
  { idleSt with
    clk := { Clock.reset with tick := 100, twin := 100 },
    host := { HostSide.reset with vfEnable := true, fns := Vector.replicate 17 openFn },
    work := { WorkSt.reset with tenants := Vector.replicate 16 tenant0 } }

def failedSt : State := { up with safety := { Safety.reset with state := .failed } }

def deadSt : State := { up with boot := { up.boot with running := false } }

def pf : Fn := 16

def head (f : Fn) : CmdHead := { fn := f, slot := 0, commandId := 7, flags := 0, doneClasp := 0 }

/-- A header that signals clasp 3. -/
def headSig (f : Fn) : CmdHead := { head f with flags := 2, doneClasp := 3 }

def queueAt (f : Fn) (slot : Nat) (ty : QueueType) : Queue :=
  { fn := f, slot := slot, qtype := ty, id := 0x100 + slot, log2 := 6, base := 0x10000, indexAddr := 0, vector := none, paired := none,
    prod := 0, cons := 0, shown := 0, fetchPos := 0, stopped := false, wakes := [], bells := [], fetched := [], donePos := [],
    reserved := 0, recordSeq := 0, gaps := [], missedRetractions := [],
    audit := { advanced := 0, writtenEntries := 0, formed := 0, written := 0, missed := 0 },
    auditNext := { advanced := 0, writtenEntries := 0, formed := 0, written := 0, missed := 0 } }

def claspAt (id : Nat) (f : Fn) : Clasp :=
  { id := id, fn := f, value := 5, latched := 5, mirror := 0, threshold := none, vector := none, retire := false, changed := false }

def stream0 : Stream :=
  { handle := 0x10, fn := 0, ingestSlot := 5, metadataSlot := 6, cls := .guaranteed, codec := 1, seiSource := false, poolMode := false,
    width := 640, height := 480, frameRate := 30000, timeCodeOffset := 0, baseUncertainty := 0, motionMode := 0, binding := [],
    zones := [], lines := [], rules := [], filter := none, subscribers := [], tokens := 1, refillBase := 0, refillCount := 0,
    nextSeq := 0, openPic := none, waiting := [], frames := [], lastT0 := none, started := [], fetchDebt := 0, dpb := [],
    activeSps := none, paramSets := [], motionRef := none, prevField := none, tracker := { tracks := [], nextId := 1 },
    lastCapture := none, lastCaptureUnc := 0, lastCaptureSeq := 0, closing := false, closeDue := false, safe := none, safeUntil := none,
    remote := none, lastMoved := 0 }

def frame0 : Frame :=
  { seq := 3, t0 := 99, ready := 99, bellTime := 0, stage := .decode,
    ev := { tableEpoch := 1, subscribers := [], quant := [], route := 1, binding := [], zones := [], lines := [], rules := [],
            streamFilter := none, filters := [], formats := [], motionMode := 0, cls := .guaranteed, frameRate := 30000, images := [] },
    timeState := 0, uDev := none, capture := none, uncertainty := 0, deferTicks := 0, cause := 0, repeated := false, withdrawn := none,
    idle := false, starts := [], buffer := none, invalid := none, units := [], extraChunks := 0, noFirst := false, discontinuity := false,
    truncated := false, lastPos := 0, chunks := [], picture := none, motion := [], conceal := [], concealKind := 0, concealedBlocks := 0,
    input := [], field := none, map := default, outputs := [], dets := [], summaries := [], alerts := [], suppressed := 0,
    totalDets := 0, staged := none }

/-- A chunk of 64 bytes that the module waits for. -/
def chunkOf64 : Chunk :=
  { desc := { pos := 0, flags := 1, stream := 0x10, length := 64, address := 0x10000, capture := 0, uncertainty := 0, hostTag := 0, fault := none },
    data := none, lost := none, buffer := some 0x1000 }

/-- Frame 3 is in T+0 and waits for a chunk. -/
def decoding : Stream := { stream0 with frames := [{ frame0 with chunks := [chunkOf64] }] }

def input0 : InputDesc :=
  { width := 64, height := 64, channels := 3, fit := 0, pixelStride := 3, gain := [], offset := [], fill := [] }

def image0 : ModelImage :=
  { crc := 0, exactOnly := false, seed := 0, tiles := 1, sramBytes := 0, constBytes := 0, scratchBytes := 0, arrayCycles := 0,
    vectorCycles := 0, dramBytes := 0, outputBytes := 0, input := input0, heads := [], programs := [], consts := [] }

def group0 : ScaleGroup :=
  { layer := 0, producers := [], consumers := [], d := 0, total := 0, clip := 0, peakHi := 0, peakLo := 0, accSat := 0 }

def model0 : Model :=
  { fn := 0, id := 1, image := some image0, packageBytes := 4096, qepoch := 1, groups := [group0], policy := CalPolicy.default,
    windowStart := 0, fresh := [] }

def workOf (k : WorkKind) (op : Byte) : Work := { head := head pf, opcode := op, pos := none, kind := k, start := 90 }

def withQueues (s : State) (qs : List Queue) : State := { s with host := { s.host with queues := qs } }

def withStreams (s : State) (xs : List Stream) : State := { s with work := { s.work with streams := xs } }

def withModels (s : State) (ms : List Model) : State := { s with work := { s.work with models := ms } }

def withClasps (s : State) (cs : List Clasp) : State := { s with host := { s.host with clasps := cs } }

def withWorks (s : State) (ws : List Work) : State := { s with host := { s.host with works := ws } }

def atTick (s : State) (n : Nat) : State := { s with clk := { s.clk with tick := n } }

/-! ### Well-formedness: for each check a command it refuses, with the last one it lets pass -/

def doorbell0 : DoorbellIn := { fn := 0, slot := 5, value := 0, size := 8, offset := 0, poisoned := false, afterEdgeNs := 0 }

theorem wf_unit : Instr.wellFormed (.stageOverrun { handle := 0, seq := 0, unit := ⟨.facetTile, 16⟩ }) = false ∧
    Instr.wellFormed (.stageOverrun { handle := 0, seq := 0, unit := ⟨.facetTile, 15⟩ }) = true := by decide

theorem wf_faultUnit : Instr.wellFormed
    (.faultReport { cls := some .recordCrc, handle := 0, seq := 0, unit := ⟨.chainLink, 4⟩, stateLost := false }) = false := by decide

theorem wf_doorbellSize : Instr.wellFormed (.doorbell { doorbell0 with size := 3 }) = false ∧
    Instr.wellFormed (.doorbell { doorbell0 with size := 4, offset := 5 }) = false ∧
    Instr.wellFormed (.doorbell { doorbell0 with size := 4, offset := 4 }) = true := by decide

theorem wf_accept : Instr.wellFormed (.commandAccept { fn := 0, slot := 4, toEdgeNs := 1668334, sources := [] }) = false ∧
    Instr.wellFormed (.commandAccept { fn := 0, slot := 4, toEdgeNs := 1668333, sources := [] }) = true := by decide

theorem wf_descriptorLength : Instr.wellFormed (.hostReadCompletion
      { ref := { fn := 0, slot := 0, kind := .descriptor, seq := 0 }, data := List.replicate 63 0, poisoned := false }) = false ∧
    Instr.wellFormed (.hostReadCompletion
      { ref := { fn := 0, slot := 0, kind := .descriptor, seq := 0 }, data := List.replicate 64 0, poisoned := false }) = true := by decide

theorem wf_chunkLength : Instr.wellFormed (.hostReadCompletion
      { ref := { fn := 0, slot := 5, kind := .chunk 0, seq := 0 }, data := [], poisoned := false }) = false ∧
    Instr.wellFormed (.hostReadCompletion
      { ref := { fn := 0, slot := 5, kind := .chunk 0, seq := 0 }, data := [1], poisoned := false }) = true := by decide

theorem wf_slot : Instr.wellFormed (.nop { head pf with slot := 2048 }) = false ∧
    Instr.wellFormed (.nop { head pf with slot := 2047 }) = true := by decide

theorem wf_migrationModels : Instr.wellFormed (.migrationAdmissionRequest
    { home := 1, handle := 0, cls := 2, codec := 1, poolMode := false, width := 64, height := 64, frameRate := 1000,
      motionMode := 0, decodeHere := true, inferHere := true, models := [] }) = false := by decide

theorem wf_migrationShare : Instr.wellFormed (.migrationAdmissionRequest
    { home := 1, handle := 0, cls := 2, codec := 1, poolMode := false, width := 64, height := 64, frameRate := 1000,
      motionMode := 0, decodeHere := false, inferHere := false,
      models := [{ model := 1, role := 0, sourceHead := 0, maxBoxes := 0, crc := 0 }] }) = false := by decide

def det0 : Detection :=
  { cls := 0, score := 0, box := { x0 := 0, y0 := 0, x1 := 0, y1 := 0 }, trackId := 0, vx := 0, vy := 0, zones := 0, head := 0,
    flags := 0, attrClass := 0, attrScore := 0, lines := 0, trackState := 0, index := 0 }

def remote0 : RemoteRecordsIn :=
  { handle := 0, seq := 0, t0 := 0, outcome := 0, cause := 0, deferTicks := 0, timeState := 0, capture := 0, uncertainty := 0,
    concealKind := 0, concealedBlocks := 0, dets := [det0], summaries := [], alerts := [], suppressed := 0, totalDets := 1 }

theorem wf_records : Instr.wellFormed (.remoteRecords { remote0 with totalDets := 0 }) = false ∧
    Instr.wellFormed (.remoteRecords remote0) = true := by decide

theorem wf_tableBytes : Instr.wellFormed (.tableWrite (head 0) { handle := 0, table := 2, bytes := 4, source := 0, data := [0] }) = false := by
  decide

theorem wf_chunkBytes : Instr.wellFormed
    (.fwDownloadChunk (head pf) { component := 2, offset := 0, source := 0, bytes := 64, data := [] }) = false := by decide

theorem wf_sampleAllow : Instr.wellFormed (.sampleAllow { value := 1, toEdgeNs := 1668334 }) = false := by decide

def write0 : RegWriteIn := { fn := 0, offset := 0x4018, value := 0, size := 8, poisoned := false, toEdgeNs := 8000 }

theorem wf_register : Instr.wellFormed (.registerWrite { write0 with size := 16 }) = false ∧
    Instr.wellFormed (.registerWrite { write0 with toEdgeNs := 1668334 }) = false ∧
    Instr.wellFormed (.registerWrite write0) = true := by decide

theorem wf_vector : Instr.wellFormed (.msixUnmask { fn := 0, vector := 64 }) = false ∧
    Instr.wellFormed (.msixUnmask { fn := pf, vector := 255 }) = true := by decide

theorem wf_link : Instr.wellFormed (.linkRetraining { lanes := 12, rate10 := 320 }) = false ∧
    Instr.wellFormed (.linkRetraining { lanes := 16, rate10 := 26 }) = false := by decide

theorem wf_zeroing : Instr.wellFormed (.zeroingComplete { partition := 8, handle := 0 }) = false ∧
    Instr.wellFormed (.poolLeakSuspect { partition := 7, handle := 0 }) = true := by decide

theorem wf_reclaim : Instr.wellFormed (.poolForcedReclaim { partition := 8, owner := .scrub }) = false := by decide

theorem wf_pps : Instr.wellFormed (.ppsEdge { afterEdgeNs := 1668334, widthNs := 100, ocxoPpb := none }) = false ∧
    Instr.wellFormed (.timeRefLossPps { afterEdgeNs := 1668334 }) = false ∧
    Instr.wellFormed (.noReference { afterEdgeNs := 1668333 }) = true := by decide

theorem wf_release : Instr.wellFormed
    (.bufferRelease { row := 0, handle := 0, address := 0, node := 72, owner := .scrub, job := none }) = false := by decide

def request0 : DramReqIn :=
  { row := 0, port := 2, write := false, address := 0, bytes := 32, data := [], enables := [], deadline := 0, partition := 0,
    job := none }

theorem wf_request : Instr.wellFormed (.dramRequest { request0 with bytes := 0 }) = false ∧
    Instr.wellFormed (.dramRequest { request0 with write := true }) = false ∧ Instr.wellFormed (.dramRequest request0) = true := by decide

def clean : PageDamage := { bytes := [], misplaced := false }

theorem wf_decision : Instr.wellFormed (.schedulingDecision { channel := 0, slot64 := 26068, blocked := [], ecc := clean }) = false ∧
    Instr.wellFormed (.schedulingDecision { channel := 0, slot64 := 26067, blocked := [], ecc := clean }) = true := by decide

theorem wf_scrub : Instr.wellFormed (.patrolScrub { channel := 0, granule := 0x7000000, ecc := clean }) = false ∧
    Instr.wellFormed (.patrolScrub { channel := 0, granule := 0x6FFFFFF, ecc := clean }) = true := by decide

def packet0 : FilPacket :=
  { id := 1, vc := 0, src := 0, dst := 2, flits := 1, fence := false, isRead := false, mcast := none, partition := 0 }

def hop0 (p : FilPacket) : HopIn := { packet := p, idle := 0 }

theorem wf_packet : Instr.wellFormed (.filigreePacketHop (hop0 { packet0 with dst := 72 })) = false ∧
    Instr.wellFormed (.fencedInjection (hop0 { packet0 with flits := 6 })) = false ∧
    Instr.wellFormed (.filigreePacketHop (hop0 packet0)) = true := by decide

theorem wf_credit : Instr.wellFormed (.creditReturn { node := 72, port := .rowPlus, vc := 0 }) = false ∧
    Instr.wellFormed (.trailingAcknowledgement { source := 72, mseq := 0, missed := 0 }) = false := by decide

def data0 : ChainDataIn :=
  { link := 0, vc := 0, fence := false, flits := 1, creditVc := 0, creditCount := 0, linkSeq := 0, ackSeq := 0, srcModule := 1,
    srcNode := 26, epoch := 0, dstModule := 0, dstNode := 5, e2eSeq := 3, payload := List.replicate 64 0, crc := 0, mirror := none }

theorem wf_data : Instr.wellFormed (.chainData { data0 with flits := 0 }) = false ∧
    Instr.wellFormed (.nack { srcNode := 72, dstModule := 1, dstNode := 0, e2eSeq := 0, job := none }) = false ∧
    Instr.wellFormed (.chainData data0) = true := by decide

def bringUp0 : BringUpIn :=
  { slot := 1, tray := 1, torn0 := [], torn1 := [], verifiesA := true, verifiesB := false, record0Ok := true, record1Ok := true,
    training := { channels := [], links := [], dieTemp := 40, rails := [] }, eyeOk := true, findings := [], noRepair := [] }

theorem wf_finding : Instr.wellFormed (.bringUp { bringUp0 with findings := [.sramRow 72 0 0] }) = false ∧
    Instr.wellFormed (.bringUp { bringUp0 with findings := [.dramRepeat 0 16 0] }) = false ∧
    Instr.wellFormed (.bringUp { bringUp0 with findings := [.unitFails ⟨.row, 8⟩] }) = false ∧
    Instr.wellFormed (.bringUp bringUp0) = true := by decide

def sensors0 : SensorIn := { SensorIn.unread with junctions := List.replicate 18 (some 60), dram := List.replicate 16 (some 50) }

theorem wf_sensors : Instr.wellFormed (.sensorRefresh { sensors0 with dram := [some 1] }) = false ∧
    Instr.wellFormed (.sensorRefresh sensors0) = true := by decide

theorem wf_peerTick :
    let tick (n : Nat) : Instr := .peerTick
      { link := 0, ackSeq := 0, creditVc := 0, creditCount := n, dstModule := 0, direct := true,
        flit := { tick := 0, deviceTime := 0, timeState := 0, moduleNo := 1, tray := 0, slot := 1, link := 0, routeEpoch := 0, flags := 0 } }
    (tick 8).wellFormed = false ∧ (tick 7).wellFormed = true := by decide

theorem wf_touchstone : Instr.wellFormed (.touchstone { unit := ⟨.postEngine, 8⟩, signature := 0, column := none }) = false := by decide

/-! ### Witnesses: the step, COMMIT and time -/

theorem witness_StepRunsFrontCommand :
    ({ up with pending := [.steppedClear] } : State).pending = .steppedClear :: [] ∧ up.pending = [] := by decide

theorem witness_OnlyCommitAndDieStartMoveTheTick :
    (∀ x, Instr.steppedClear ≠ .commit x) ∧ (∀ x, Instr.steppedClear ≠ .dieStart x) ∧ Instr.steppedClear ≠ .bootRomWatchdog ∧
      exec .steppedClear up = .next up :=
  ⟨(fun _ h => nomatch h), (fun _ h => nomatch h), (fun h => nomatch h), rfl⟩

theorem witness_MemoryStaysCanonical : State.reset.memoryOk ∧ step State.reset = .next State.reset :=
  ⟨⟨by decide, by decide, fun c => by revert c; unfold queueOk; decide⟩, rfl⟩

def torn0 : BringUpIn := { bringUp0 with torn0 := [3], torn1 := [4095] }

theorem witness_LedgerOnlyGrows : State.reset.ledgerOk ∧ step State.reset = .next State.reset ∧
    (∀ k, k ∈ torn0.torn0 → k ∉ torn0.torn1) := by
  refine ⟨⟨rfl, by decide⟩, rfl, fun k h => ?_⟩
  cases List.mem_singleton.mp h
  decide

theorem witness_CommitKeepsTime : (up.boot.running = true ∧ up.clk.ppsValid = false) ∧ deadSt.boot.running = false ∧
    (failedSt.boot.running = true ∧ failedSt.safety.state = .failed) ∧
    (State.reset.boot.running = true ∧ State.reset.boot.broughtUp = false) := by decide

/-- The PPS is valid and was last accepted at OCXO time 0; the tick's edge is at 999,000,000. -/
def ppsSt (held : List Int) : State :=
  { up with clk := { up.clk with ocxoNs := 999000000, ppsValid := true, lastAccepted := some 0, lastEdge := some 0, held := held } }

theorem witness_PpsEdgeIsJudged :
    let s := ppsSt []
    (s.boot.running = true ∧ s.clk.armed = none ∧ s.clk.ppsValid = true ∧ s.clk.timed 1020001 = 1020001) ∧
    -- 99 ns: ignored; deviations of 50, 51, 20,000 and 20,001 ns
    s.clk.deviation (999000000 + 1000050) = 50 ∧ s.clk.deviation (999000000 + 1000051) = 51 ∧
    s.clk.deviation (999000000 + 1020000) = 20000 ∧ s.clk.deviation (999000000 + 1020001) = 20001 ∧ s.clk.held = [] ∧
    (ppsSt [100, 120]).clk.held.length = 2 ∧ ∀ h ∈ (ppsSt [100, 120]).clk.held, ((150 : Int) - h).natAbs ≤ 50 := by decide

/-- No valid reference; an edge came at OCXO time 0, `run` before it. -/
def unlockedSt (run : Nat) : State :=
  { up with clk := { up.clk with ocxoNs := 999000000, lastEdge := some 0, ppsRun := run, refRun := run } }

theorem witness_ReferencesQualify :
    (∀ run, (unlockedSt run).boot.running = true ∧ (unlockedSt run).clk.armed = none ∧ (unlockedSt run).clk.ppsValid = false ∧
      (unlockedSt run).clk.refValid = false ∧ (unlockedSt run).clk.ppsRun = run ∧ (unlockedSt run).clk.refRun = run) ∧
    -- an edge 20,000 ns late is a second apart, one 20,001 ns late is not
    ((999000000 + 1020000 : Int) - 0 - 1000000000).natAbs ≤ 20000 ∧ ¬ ((999000000 + 1020001 : Int) - 0 - 1000000000).natAbs ≤ 20000 ∧
    ((-20000 : Int)).natAbs ≤ 20000 ∧ 20000 < ((-20001 : Int)).natAbs ∧ (1 < 2 ∧ 2 ≤ 2) :=
  ⟨fun _ => ⟨rfl, rfl, rfl, rfl, rfl, rfl⟩, by decide⟩

def lockedSt : State :=
  { up with clk := { up.clk with ocxoNs := 2000000000, mode := .locked, refValid := true, ppsValid := true, lastNear := some 999998000,
                                 lastAccepted := some 999998000, todValid := true } }

theorem witness_ReferenceFaults :
    lockedSt.boot.running = true ∧ lockedSt.clk.refValid = true ∧ lockedSt.clk.ppsValid = true ∧ lockedSt.clk.mode = .locked ∧
    lockedSt.clk.lastNear = some 999998000 ∧ (16 ≤ 16 ∧ 15 < 16) ∧ lockedSt.clk.ocxoNs + lockedSt.clk.timed 0 = 999998000 + 1000002000 ∧
    ({ lockedSt.clk with ocxoNs := 1999999999 } : Clock).ocxoNs + lockedSt.clk.timed 0 < 999998000 + 1000002000 ∧
    ((20001 : Int)).natAbs = 20001 := by decide

def holdoverSt : State :=
  { up with clk := { up.clk with ocxoNs := 600000000000 - 1666667, mode := .holdover, holdoverAt := some 0, todValid := true,
                                 todLoaded := true, lastAccepted := some 0, steppedUntil := some 101 } }

def armedSt (h : Option CmdHead) : State :=
  { up with
    clk := { up.clk with ocxoNs := 1000000000, armed := some { value := 5000000000, head := h, atNs := 0 } },
    host := { up.host with works := [workOf .timeSet 0x80] } }

theorem witness_TimeLimitsEnd :
    let due := { holdoverSt with clk := { holdoverSt.clk with expired := true } }
    (holdoverSt.boot.running = true ∧ holdoverSt.clk.mode = .holdover ∧ holdoverSt.clk.holdoverAt = some 0 ∧
      holdoverSt.clk.ocxoNs + holdoverSt.clk.lastLen = 0 + 600000000000 ∧
      ({ holdoverSt.clk with ocxoNs := 0 } : Clock).ocxoNs + holdoverSt.clk.lastLen < 0 + 600000000000) ∧
    (due.clk.mode = .holdover ∧ due.clk.expired = true ∧ due.clk.leaveLocked = false ∧ due.clk.loaded = none ∧
      due.clk.lockable = false ∧ due.clk.todLoaded = true ∧ (due.fnSt pf).sealed = true) ∧
    (holdoverSt.clk.steppedUntil = some 101 ∧ 101 ≤ holdoverSt.clk.tick + 1 ∧ (atTick holdoverSt 99).clk.tick + 1 < 101) ∧
    ((armedSt none).clk.armed = some { value := 5000000000, head := none, atNs := 0 } ∧ (armedSt none).mmc.state = .serving ∧
      (armedSt none).clk.ocxoNs + (armedSt none).clk.timed 1999 < 0 + 1000002000 ∧
      0 + 1000002000 = (armedSt none).clk.ocxoNs + (armedSt none).clk.timed 2000) ∧
    (armedSt (some (head pf))).clk.armed = some { value := 5000000000, head := some (head pf), atNs := 0 } ∧
    (armedSt (some (head pf))).timeSetWork? (some (head pf)) = some (workOf .timeSet 0x80) := by decide

def timeSet0 : TimeSetP := { nextPpsTime := 6000000000 }

def armedNow (h : Option CmdHead) : State :=
  { armedSt h with clk := { up.clk with armed := some { value := 5000000000, head := h, atNs := 0 } } }

theorem witness_TimeSetArms :
    (up.takesCommands 0 = true ∧ rowReserved (head 0) (.timeSet timeSet0) = none ∧ (head 0).fn ≠ pfFn) ∧
    (up.takesCommands pf = true ∧ rowReserved (head pf) (.timeSet timeSet0) = none ∧ (head pf).fn = pfFn ∧
      (1 : U64).toNat % 1000000000 ≠ 0) ∧
    (timeSet0.nextPpsTime.toNat % 1000000000 = 0 ∧ up.headFault (head pf) = none ∧ up.clk.armed = none) ∧
    ((armedNow none).takesCommands pf = true ∧ (armedNow none).headFault (head pf) = none ∧
      (armedNow none).clk.armed = some { value := 5000000000, head := none, atNs := 0 } ∧ (armedNow none).mmc.state = .serving) ∧
    ((armedSt (some (head pf))).headFault (head pf) = none ∧
      (armedSt (some (head pf))).clk.armed = some { value := 5000000000, head := some (head pf), atNs := 0 } ∧
      (armedSt (some (head pf))).timeSetWork? (some (head pf)) = some (workOf .timeSet 0x80) ∧ (workOf .timeSet 0x80).pos = none) := by
  decide

/-! ### Witnesses: ring commands -/

theorem witness_NopAndAuditRead :
    Admissible up (head 0) .nop ∧
    (Admissible up (head pf) (.auditRead { audit := 3, bytes := 64, dest := 0x1000 }) ∧ (up.coming.auditBytes 3).length ≤ 64 ∧
      up.reaches pf 0x1000 (up.coming.auditBytes 3).length true = true) ∧
    (Admissible up (head pf) (.auditRead { audit := 3, bytes := 16, dest := 0x1000 }) ∧ 16 < (up.coming.auditBytes 3).length) := by
  unfold Admissible; decide

theorem witness_FaultyCommandsHaveNoEffect :
    let s := withClasps up [claspAt 3 0]
    let r := withClasps up [{ claspAt 3 0 with retire := true }]
    let good : TenantConfigureP := { tenant := 0, partition := 0, queueQuota := 0 }
    let bad : CmdHead := { head pf with flags := 4 }
    ringCommand (.nop (headSig 0)) = some (headSig 0, .nop) ∧ headSignal (headSig 0) = true ∧
    (up.takesCommands 0 = true ∧ pfOnly (.tenantConfigure good) = true ∧ (head 0).fn ≠ pfFn) ∧
    -- INVALID_FIELD at 8: no reserved bit is set, or one behind it; MALFORMED at 4: a reserved bit before the field at fault
    (up.takesCommands pf = true ∧ rangeFault pf (up.quotaOf pf) (.tenantConfigure { good with tenant := 16 }) = some 8 ∧
      rowReserved (head pf) (.tenantConfigure { good with tenant := 16 }) = none) ∧
    (rowReserved bad (.tenantConfigure { good with tenant := 16 }) = some 1 ∧ 1 ≤ 8 ∧
      rangeFault pf (up.quotaOf pf) (.tenantConfigure good) = none) ∧
    (rangeFault 0 (up.quotaOf 0) .nop = none ∧ rowReserved (headSig 0) .nop = none ∧ pfOnly .nop = false) ∧
    up.claspOf ((headSig 0).doneClasp.toNat % 8192) = none ∧
    (s.takesCommands 1 = true ∧ s.claspOf ((headSig 1).doneClasp.toNat % 8192) = some (claspAt 3 0) ∧ (claspAt 3 0).fn ≠ (headSig 1).fn) ∧
    (r.takesCommands 0 = true ∧ r.claspOf ((headSig 0).doneClasp.toNat % 8192) = some { claspAt 3 0 with retire := true }) := by decide

def config0 : TenantConfigureP := { tenant := 3, partition := 0, queueQuota := 0 }

theorem witness_TenantConfigureMaps :
    let new := { up with work := WorkSt.reset }
    Admissible up (head pf) (.tenantConfigure config0) ∧ config0.tenant.toNat = (3 : Tenant).val ∧
    (Admissible up (head pf) (.tenantConfigure { config0 with partition := 1 }) ∧ partCount up.work.startMask ≤ 1) ∧
    0 < partCount up.work.startMask ∧ (∃ x ∈ (withStreams up [{ stream0 with fn := 3 }]).work.streams, x.fn = fnOf 3) ∧
    ((∀ x ∈ up.work.streams, x.fn ≠ fnOf 3) ∧ (∀ m ∈ up.work.models, m.fn ≠ fnOf 3) ∧
      (∀ q ∈ up.host.queues, q.fn = fnOf 3 → q.slot < 1024) ∧ (up.tenantSt 3).configured = true ∧ (up.tenantSt 3).retireClasp = some 9) ∧
    (Admissible new (head pf) (.tenantConfigure config0) ∧ (new.tenantSt 3).configured = false ∧ new.freeClasp ≠ none) := by
  unfold Admissible; decide

theorem witness_PartitionPlanInstalls :
    let busy := withStreams up [stream0]
    let noCluster := { up with safety := { up.safety with retired := [⟨.controlCluster, 7⟩] } }
    let second := { up with work := { up.work with startMask := 0b10001, tenants := Vector.replicate 16 { tenant0 with partition := 1 } } }
    (Admissible busy (head pf) (.partitionPlan { startMask := 3 }) ∧ busy.planBusy 3 = true) ∧
    (Admissible noCluster (head pf) (.partitionPlan { startMask := 0x81 }) ∧ noCluster.planBusy 0x81 = false ∧
      noCluster.planLacksCluster 0x81 = true) ∧
    (Admissible second (head pf) (.partitionPlan { startMask := 1 }) ∧ second.planBusy 1 = false ∧ second.planLacksCluster 1 = false ∧
      second.planDropsTenant 1 = true) ∧
    (Admissible up (head pf) (.partitionPlan { startMask := 0x81 }) ∧ up.planBusy 0x81 = false ∧ up.planLacksCluster 0x81 = false ∧
      up.planDropsTenant 0x81 = false) := by unfold Admissible; decide

def create0 : QueueCreateP :=
  { slot := 7, queueType := 2, log2Entries := 6, msixVector := 0xFFFF, pairedSlot := 6, base := 0x10000, indexAddr := 0 }

theorem witness_QueueCreateMakesAnEmptyQueue :
    let ring := withQueues up [queueAt pf 6 .completion]
    let full := withQueues { up with work := { up.work with tenants := Vector.replicate 16 { tenant0 with quota := 8 } } }
      ((List.range 8).map (fun k => queueAt 0 (8 + k) .ingest))
    (Admissible ring (head pf) (.queueCreate { create0 with slot := 6 }) ∧ (ring.queue? pf 6).isSome = true) ∧
    (Admissible full (head 0) (.queueCreate create0) ∧ full.queue? 0 7 = none ∧
      full.quotaOf 0 ≤ full.queueCount 0) ∧
    (Admissible ring (head pf) (.queueCreate { create0 with pairedSlot := 5 }) ∧ ring.queue? pf 7 = none ∧
      ring.queueCount pf < ring.quotaOf pf ∧ ring.coming.freeId ≠ none ∧ ring.isCompletionRing pf 5 = false) ∧
    (Admissible ring (head pf) (.queueCreate create0) ∧ ring.isCompletionRing pf 6 = true ∧
      ring.reaches pf 0x10000 (64 * 2 ^ 6) false = true ∧ create0.indexAddr = 0) ∧
    (Admissible up (head 0) (.queueCreate { create0 with queueType := 1, pairedSlot := 0xFFFF }) ∧ up.queue? 0 7 = none ∧
     up.queueCount 0 < up.quotaOf 0 ∧
      up.coming.freeId ≠ none ∧ up.reaches 0 0x10000 (64 * 2 ^ 6) false = false) := by unfold Admissible; decide

@[irreducible] def restIds : List (Nat × Nat) := (List.range 16384).map (fun n => (n, 100))

/-- Every queue ID rests. -/
def noIdSt : State := { up with host := { up.host with freedIds := restIds } }

theorem lowestFree_none (used : Nat → Bool) (n lo : Nat) (h : ∀ k, lo ≤ k → k < lo + n → used k = true) :
    lowestFree used lo n = none := by
  induction n generalizing lo with
  | zero => rfl
  | succ n ih =>
    simp only [lowestFree, h lo (by omega) (by omega), if_true]
    exact ih (lo + 1) fun k h1 h2 => h k (by omega) (by omega)

theorem witness_QueueCreateMakesAnEmptyQueue_noId : Admissible noIdSt (head 0) (.queueCreate create0) ∧ noIdSt.queue? 0 7 = none ∧
    noIdSt.queueCount 0 < noIdSt.quotaOf 0 ∧ noIdSt.coming.freeId = none := by
  refine ⟨by unfold Admissible; decide +kernel, rfl, by decide +kernel, lowestFree_none _ _ _ fun k _ h => ?_⟩
  have m : (k, 100) ∈ restIds := by
    unfold restIds
    exact List.mem_map_of_mem (List.mem_range.mpr (by omega))
  have r : restIds.any (fun x => x.1 == k && (101 : Nat) ≤ x.2 + 600) = true := List.any_eq_true.mpr ⟨_, m, by simp⟩
  exact Bool.or_eq_true_iff.mpr (.inr r)

/-- Tenant 0 may read at 0x10000 to 0x1FFFF and write at 0x40000 to 0x7FFFF. -/
def windowSt : State :=
  let r : Window := { taBase := 0x10000, size := 0x10000, hostBase := 0, read := true, write := false }
  let w : Window := { taBase := 0x40000, size := 0x40000, hostBase := 0, read := false, write := true }
  { up with host := { up.host with windows := (up.host.windows.set 0 r).set 1 w } }

theorem witness_QueueCreateMakesAnEmptyQueue_index :
    Admissible windowSt (head 0) (.queueCreate { create0 with queueType := 1, pairedSlot := 0xFFFF, indexAddr := 0x30000 }) ∧
    windowSt.reaches 0 0x10000 (64 * 2 ^ 6) false = true ∧ windowSt.reaches 0 0x30000 8 true = false ∧
    windowSt.coming.freeId ≠ none := by unfold Admissible; decide

theorem witness_QueueDestroyRemovesTheQueue :
    let s := withQueues up [queueAt 0 5 .ingest, queueAt 0 6 .metadata]
    let bound := withStreams s [stream0]
    (Admissible up (head 0) (.queueDestroy { slot := 5 }) ∧ up.queue? 0 5 = none) ∧
    (bound.queue? 0 5 = some (queueAt 0 5 .ingest) ∧ bound.queueBound 0 5 = true ∧
      Admissible bound (head 0) (.queueDestroy { slot := 5 })) ∧
    (s.queue? 0 5 = some (queueAt 0 5 .ingest) ∧ s.queueBound 0 5 = false ∧ (5 : U16) ≠ (head 0).slot ∧
      Admissible s (head 0) (.queueDestroy { slot := 5 })) := by unfold Admissible; decide

def claspCreate0 : ClaspCreateP := { initial := 1, mirrorAddr := 0, threshold := 0, msixVector := 0xFFFF }

def signal0 : ClaspSignalP := { clasp := 3, op := 0, msixVector := 0xFFFF, value := 0, mirrorAddr := 0 }

theorem witness_ClaspCommands :
    let s := withClasps up [claspAt 3 0]
    let r := withClasps up [{ claspAt 3 0 with retire := true }]
    (Admissible up (head 0) (.claspCreate claspCreate0) ∧ up.claspFits = true ∧ up.freeClasp ≠ none) ∧
    (Admissible up (head 0) (.claspSignal signal0) ∧ up.ownClasp? 0 3 = none) ∧
    (Admissible r (head 0) (.claspSignal signal0) ∧ r.ownClasp? 0 3 = some { claspAt 3 0 with retire := true }) ∧
    (Admissible s (head 0) (.claspSignal { signal0 with value := 0xFFFFFFFFFFFFFFFB }) ∧ s.ownClasp? 0 3 = some (claspAt 3 0) ∧
      2 ^ 64 ≤ (claspAt 3 0).value + (0xFFFFFFFFFFFFFFFB : U64).toNat) ∧
    (Admissible s (head 0) (.claspSignal { signal0 with value := 0xFFFFFFFFFFFFFFFA }) ∧
      (claspAt 3 0).value + (0xFFFFFFFFFFFFFFFA : U64).toNat < 2 ^ 64) ∧
    Admissible s (head 0) (.claspSignal { signal0 with op := 1 }) ∧ Admissible s (head 0) (.claspSignal { signal0 with op := 2 }) ∧
    (Admissible up (head 0) (.claspDestroy { clasp := 3 }) ∧ Admissible r (head 0) (.claspDestroy { clasp := 3 }) ∧
      Admissible s (head 0) (.claspDestroy { clasp := 3 }) ∧ s.claspAwaited 0 3 = false ∧ headSignal (head 0) = false ∧
      (withWorks s [{ workOf (.modelLoad 1 480) 0x20 with head := headSig 0 }]).claspAwaited 0 3 = true) := by
  unfold Admissible; decide

/-! ### Witnesses: rings, streams, tables -/

/-- Tenant 0's ingest ring at slot 5 (ID 0x105) and completion ring at slot 6. -/
def ringSt (q : Queue) : State := withQueues up [q, queueAt 0 6 .completion]

theorem witness_DoorbellMovesOneIndex :
    let s := ringSt (queueAt 0 5 .ingest)
    let i : DoorbellIn := { doorbell0 with value := 0x0105003F }
    let full : Queue := { queueAt 0 5 .ingest with prod := 63 }
    let unsealed : State := { up with host := { up.host with fns := Vector.replicate 17 { openFn with sealed := false } } }
    (i.poisoned = false ∧ up.barOpen 0 = true ∧ unsealed.isReady = true) ∧
    (s.barOpen 0 = true ∧ (s.fnSt 0).sealed = true ∧ s.isReady = true ∧ s.queue? 0 4 = none ∧ s.queue? 0 5 = some (queueAt 0 5 .ingest)) ∧
    5 < s.quotaOf 0 ∧ doorbellValue i = some i.value ∧ dbCheck i.value = 0x105 ∧ dbReserved i.value = false ∧
    (dbIndex i.value = 63 ∧ 63 < (queueAt 0 5 .ingest).entries ∧ (queueAt 0 5 .ingest).dbFits 63 = true ∧ (0 + 63) % 64 = 63) ∧
    (full.dbFits 0 = false ∧ (queueAt 0 5 .ingest).hostProduced = true ∧ (queueAt 0 6 .completion).hostProduced = false) ∧
    (dbReserved 0x40000000 = true ∧ dbCheck 0x01040000 ≠ 0x105 ∧ (queueAt 0 5 .ingest).entries ≤ dbIndex 0x01050040) ∧
    -- codes 5 to 7: a stopped ring, an index beyond what fits, a write that is none of a doorbell
    ({ queueAt 0 5 .ingest with stopped := true } : Queue).stopped = true ∧ doorbellValue { i with size := 4, offset := 4 } = none := by decide

def fetched0 : FetchedCmd := { pos := 0, head := { head 0 with slot := 5 }, opcode := 0xF0, body := .cmd .nop none }

def commandRing : Queue := { queueAt 0 5 .command with paired := some 6, prod := 1, fetchPos := 1, fetched := [fetched0] }

theorem witness_CommandAcceptTakesTheFirst :
    let s := ringSt commandRing
    let done := queueAt 0 6 .completion
    let fence : FetchedCmd := { fetched0 with pos := 1, head := { fetched0.head with flags := 1 } }
    let load : RingCmd := .tableWrite { handle := 0x10, table := 2, bytes := 8, source := 0x10000, data := List.replicate 8 0 }
    (s.isReady = true ∧ (s.fnSt 0).sealed = true ∧ (s.fnSt 0).resetBusy = false ∧ s.queue? 0 5 = some commandRing ∧
      commandRing.stopped = false ∧ commandRing.qtype = .command ∧ commandRing.fetched = [fetched0] ∧ commandRing.paired = some done.slot ∧
      s.queue? 0 6 = some done ∧ s.queueId? done.id = some done ∧ done.id ≠ commandRing.id) ∧
    -- nothing holds it back
    ((s.fnSt 0).acceptedNow < 64 ∧ done.reserved + s.unwritten done.id < done.room ∧ s.sourceReadable 0 fetched0.body = true ∧
      headFence fetched0.head = false) ∧
    -- what does
    (64 ≤ ({ openFn with acceptedNow := 64 } : FnState).acceptedNow ∧
      ({ done with reserved := 63 } : Queue).room ≤ ({ done with reserved := 63 } : Queue).reserved + s.unwritten done.id ∧
      (s.modFn 0 (fun x => { x with busMaster := false })).sourceReadable 0 (.cmd load none) = false) ∧
    (headFence fence.head = true ∧ s.fenceOpen { commandRing with fetched := [fence] } fence.pos = false) := by decide

theorem witness_HostReadsEnd :
    let q : Queue := { commandRing with prod := 2 }
    let s := ringSt q
    let t := withStreams up [decoding]
    (s.queue? 0 5 = some q ∧ q.qtype = .command ∧ s.fetches 0 q = true ∧ s.host.timeoutDisable = false ∧
      timeoutNs s.host.timeoutValue = 50000) ∧
    ({ up with host := { up.host with timeoutDisable := true } } : State).host.timeoutDisable = true ∧
    (t.work.streams.find? (fun y => y.fn == (0 : Fn) && y.ingestSlot == 5) = some decoding ∧ t.isReady = true ∧ (t.fnSt 0).sealed = true ∧
      (decoding.awaitedChunk? 3 0).isSome = true ∧ t.limitsFetch decoding 64 = false) := by decide

def open0 : StreamOpenP :=
  { ingestSlot := 5, metadataSlot := 6, model := 1, cls := 1, codec := 1, flags := 0, width := 640, height := 480, frameRate := 30000,
    timeCodeOffset := 0, baseUncertainty := 0, motionMode := 0 }

/-- Tenant 0 with an ingest ring, a metadata ring and a loaded model. -/
def tenantSt0 : State := withModels (withQueues up [queueAt 0 5 .ingest, queueAt 0 6 .metadata]) [model0]

theorem witness_StreamOpenAdmits :
    let bound := withStreams tenantSt0 [stream0]
    let second := withModels tenantSt0 [{ model0 with image := some { image0 with heads := [{ (default : HeadDesc) with kind := 4 }] } }]
    let leaving := { tenantSt0 with work := { tenantSt0.work with evacuating := true } }
    let full := { tenantSt0 with safety := { tenantSt0.safety with retired := (List.range 24).map (fun n => ⟨.decodeEngine, n⟩) } }
    (Admissible up (head 0) (.streamOpen open0) ∧ up.queueIs 0 5 .ingest = false) ∧
    (Admissible bound (head 0) (.streamOpen open0) ∧ bound.queueIs 0 5 .ingest = true ∧ bound.ingestBound 0 5 = true) ∧
    (Admissible tenantSt0 (head 0) (.streamOpen open0) ∧ tenantSt0.ingestBound 0 5 = false ∧ tenantSt0.queueIs 0 6 .metadata = true ∧
      tenantOf 0 = some 0 ∧ tenantSt0.image? 0 1 = some image0 ∧ image0.classifies = false) ∧
    (second.image? 0 1).map ModelImage.classifies = some true ∧
    (openRange { open0 with width := 318 } = some 0x10 ∧ openRange { open0 with width := 320, height := 240, frameRate := 1000 } = none) ∧
    leaving.work.evacuating = true ∧ (full.admitReason (full.loadsWithout none) (full.openProfile 0 open0)).isSome = true ∧
    (tenantSt0.admitReason (tenantSt0.loadsWithout none) (tenantSt0.openProfile 0 open0) = none ∧ openRange open0 = none ∧
      (tenantSt0.coming.freeHandle 0 (classOf 1)).isSome = true) := by unfold Admissible; decide

def modify0 : StreamModifyP := { handle := 0x10, change := 4, cls := 0, model := 1, motionMode := 0, frameRate := 60000 }

theorem witness_StreamsCloseAndChange :
    let s := withStreams tenantSt0 [stream0]
    let second := withModels s [{ model0 with image := some { image0 with heads := [{ (default : HeadDesc) with kind := 4 }] } }]
    let retired := { s with safety := { s.safety with retired := (List.range 24).map (fun n => ⟨.decodeEngine, n⟩) } }
    let model2 : StreamModifyP := { modify0 with change := 2 }
    (Admissible up (head 0) (.streamClose { handle := 0x10 }) ∧ up.liveStream? 0 0x10 = none) ∧
    (Admissible s (head 0) (.streamClose { handle := 0x10 }) ∧ s.liveStream? 0 0x10 = some stream0) ∧
    (Admissible up (head 0) (.streamModify modify0) ∧ Admissible s (head 0) (.streamModify modify0) ∧
      Admissible s (head 0) (.streamModify model2) ∧ readmits modify0 = true ∧ modify0.change.getLsbD 1 = false ∧
      readmits { modify0 with change := 8 } = false) ∧
    (retired.admitReason (retired.loadsWithout (some 0x10)) (retired.profileOf (stream0.modify modify0 101))).isSome = true ∧
    s.admitReason (s.loadsWithout (some 0x10)) (s.profileOf (stream0.modify modify0 101)) = none ∧
    (model2.change.getLsbD 1 = true ∧ (withModels s []).image? 0 1 = none ∧ s.image? 0 1 = some image0 ∧ image0.classifies = false ∧
      (second.image? 0 1).map ModelImage.classifies = some true ∧
      (retired.admitReason (retired.loadsWithout (some 0x10)) (retired.profileOf (stream0.modify model2 101))).isSome = true ∧
      s.admitReason (s.loadsWithout (some 0x10)) (s.profileOf (stream0.modify model2 101)) = none) := by
  unfold Admissible; decide

theorem witness_StreamsEndAndRefill :
    let s := withStreams tenantSt0 [stream0]
    let last : Stream := { stream0 with closing := true, closeDue := true }
    let w : Work := { workOf (.streamClose 0x10) 0x31 with pos := some { queue := 0x105, pos := 0, done := 0x106 } }
    let closing := withWorks (withStreams tenantSt0 [last]) [w]
    s.isReady = true ∧ closing.work.streams.filter (fun y => y.closeDue && y.frames.isEmpty) = [last] ∧
    (closing.workOf? (.streamClose last.handle) = some w ∧ w.pos = some { queue := 0x105, pos := 0, done := 0x106 }) ∧
    -- the token of a stream of 30 frames a second falls due at tick 20
    (s.stream? 0x10 = some stream0 ∧ stream0.refillBase + ceilDiv ((stream0.refillCount + 1) * 600000) (max 1 stream0.frameRate) = 20 ∧
      20 ≤ (atTick s 19).clk.tick + 1 ∧ (atTick s 18).clk.tick + 1 < 20) := by decide

def table0 : TableWriteP := { handle := 0x10, table := 2, bytes := 8, source := 0x10000, data := List.replicate 8 0 }

def tableSt : State := { withStreams tenantSt0 [stream0] with host := { windowSt.host with queues := tenantSt0.host.queues } }

theorem witness_TableWriteChecksThenStores :
    let s := withStreams tenantSt0 [stream0]
    let stored (t : Nat) (bs : List Byte) : Bool := match checkTable t bs.length bs with
      | .ok c => (tableSt.tableRules 0 (some stream0) c).isNone
      | .error _ => false
    (Admissible s (head 0) (.tableWrite { table0 with table := 0 }) ∧ (s.tableTarget 0 { table0 with table := 0 }).isOk = false) ∧
    (Admissible s (head 0) (.tableWrite table0) ∧ (s.tableTarget 0 table0).toOption = some (some stream0) ∧
      s.reaches 0 0x10000 8 false = false) ∧
    (Admissible tableSt (head 0) (.tableWrite table0) ∧ (tableSt.tableTarget 0 table0).toOption = some (some stream0) ∧
      tableSt.reaches 0 0x10000 8 false = true) ∧
    -- seventeen zones; a binding of a model that is not loaded; tables 2, 3, 6, 1 that are stored
    (checkTable 2 8 [17, 0, 0, 0, 0, 0, 0, 0]).isOk = false ∧
    ((checkTable 1 16 [1, 0, 0, 0, 0, 0, 0, 0, 2, 0, 0, 0, 0, 0, 0, 0]).isOk = true ∧
      stored 1 [1, 0, 0, 0, 0, 0, 0, 0, 2, 0, 0, 0, 0, 0, 0, 0] = false) ∧
    stored 2 (List.replicate 8 0) = true ∧ stored 3 ([1] ++ List.replicate 23 0) = true ∧ stored 6 (List.replicate 8 0) = true ∧
    stored 4 (List.replicate 40 0) = true ∧ stored 5 (List.replicate 8 0 ++ List.replicate 32 0xFF) = true ∧
    stored 7 ([1, 0, 0xFF, 0xFF, 90, 80, 0xFF, 1, 0x58, 0x02, 0x58, 0x02] ++ List.replicate 20 0) = true ∧
    stored 1 [1, 0, 0, 0, 0, 0, 0, 0, 1, 0, 0, 0, 0, 0, 0, 0] = true := by unfold Admissible; decide

/-! ### Witnesses: models, samples, firmware -/

/-- A package of one tile whose program writes 16 bytes to region 2 and ends, with one head of KIND 3 (Tables 9.5 to 9.7, 11.1). -/
def package0 (crc : Nat) : List Byte :=
  let sec (ty off n : Nat) : List Byte := le 2 ty ++ le 2 0 ++ le 4 off ++ le 4 n ++ le 4 0
  fit 0x38 (le 4 0x50544346 ++ le 2 1 ++ le 2 128 ++ le 4 480 ++ le 2 5 ++ le 2 0 ++ le 8 0 ++ le 1 1 ++ le 1 1 ++ le 2 0 ++
      le 4 65536 ++ le 4 0 ++ le 4 0 ++ le 4 0 ++ le 4 0 ++ le 4 16) ++ le 4 crc ++ List.replicate 68 0 ++
    sec 1 208 64 ++ sec 2 272 128 ++ sec 3 400 0 ++ sec 4 400 72 ++ sec 5 472 8 ++
    fit 64 (le 2 64 ++ le 2 64 ++ le 1 0 ++ le 1 0 ++ le 2 3) ++
    fit 64 ([0x30, 1, 0, 0, 0xFF, 0, 0, 0, 2, 0, 1, 0] ++ le 4 16) ++ fit 64 [0x7F, 0, 0, 0, 0, 0xFF, 1, 0] ++
    [1, 0, 0, 0, 0, 0, 0, 0] ++ fit 64 [3, 0, 2, 0, 1, 0, 1, 0, 1, 0, 16, 0] ++ List.replicate 8 0

theorem crcBits_lt (n c : Nat) (h : c < 2 ^ 32) : crcBits n c < 2 ^ 32 := by
  induction n generalizing c with
  | zero => exact h
  | succ n ih =>
    refine ih _ ?_
    split
    · exact Nat.xor_lt_two_pow (by omega) (by decide)
    · omega

theorem crc32c_lt (bs : List Byte) : crc32c bs < 2 ^ 32 := by
  have h (bs : List Byte) : ∀ c, c < 2 ^ 32 → crcRun bs c < 2 ^ 32 := by
    induction bs with
    | nil => exact fun _ h => h
    | cons b bs ih => exact fun c h => ih _ (crcBits_lt 8 _ (Nat.xor_lt_two_pow h (by omega)))
  exact Nat.xor_lt_two_pow (h bs _ (by decide)) (by decide)

theorem leVal_le4 (n : Nat) (h : n < 2 ^ 32) : leVal (le 4 n) = n := by
  simp only [le, leVal, BitVec.toNat_ofNat]
  omega

set_option maxRecDepth 100000 in
/-- The package with its CRC is sound (Table 9.8). -/
theorem test_package : packageReason (package0 65880447) 480 = 0 := by decide +kernel

@[irreducible] def zeros (n : Nat) : List Byte := List.replicate n 0

theorem zeros_length (n : Nat) : (zeros n).length = n := by unfold zeros; exact List.length_replicate

/-- A header of 4 KiB for component 2 with BYTES 4096 (Table 19.1). -/
def fwImage (crc : Nat) : List Byte := (le 4 0x4D495746 ++ le 1 2 ++ le 15 0 ++ le 4 4096 ++ le 4 0) ++ (le 4 crc ++ zeros 4064)

def fwCrc : Nat := crc32c (fwImage 0)

theorem test_header : headerOk (fwImage fwCrc) = true := by
  have n (c : Nat) : (fwImage c).length = 4096 := by simp [fwImage, le, zeros_length]
  have h1 : (fwImage fwCrc).take 4096 = fwImage fwCrc := List.take_of_length_le (Nat.le_of_eq (n _))
  have h2 : putAt (fwImage fwCrc) 0x1C (le 4 0) = fwImage 0 := by simp [putAt, sliceAt, fwImage, le]
  have h3 : rd (fwImage fwCrc) 0x1C 4 = crc32c (fwImage 0) := leVal_le4 _ (crc32c_lt _)
  have h4 : rd (fwImage fwCrc) 0 4 = 0x4D495746 := rfl
  simp only [headerOk, h1, h2, h3, h4, n, BEq.rfl, Bool.and_self]

def load0 : ModelLoadP := { model := 1, bytes := 480, package := 0x10000 }

/-- Model 1 of tenant 0 loads. -/
def loadingSt : State :=
  withWorks (withModels up [{ model0 with image := none }]) [{ workOf (.modelLoad 1 480) 0x20 with head := head 0 }]

theorem witness_ModelsLoadAndUnload :
    let none8 := { up with safety := { up.safety with retired := (List.range 8).map (fun n => ⟨.row, n⟩) } }
    (Admissible tenantSt0 (head 0) (.modelLoad load0) ∧ (tenantSt0.model? 0 1).isSome = true) ∧
    (Admissible windowSt (head 0) (.modelLoad load0) ∧ windowSt.model? 0 1 = none ∧ 480 ≤ windowSt.freeRegion (windowSt.partOf 0) ∧
      windowSt.reaches 0 0x10000 480 false = true ∧ up.model? 0 1 = none ∧ up.reaches 0 0x10000 480 false = false) ∧
    (Admissible none8 (head 0) (.modelLoad load0) ∧ none8.freeRegion (none8.partOf 0) < 480) ∧
    (Admissible up (head 0) (.modelUnload { model := 1 }) ∧ tenantSt0.model? 0 1 = some model0 ∧ model0.image ≠ none ∧
      loadingSt.model? 0 1 = some { model0 with image := none } ∧ tenantSt0.modelBound 0 1 = false ∧
      Admissible tenantSt0 (head 0) (.modelUnload { model := 1 }) ∧ Admissible loadingSt (head 0) (.modelUnload { model := 1 })) := by
  unfold Admissible; decide

def keySt : State :=
  { loadingSt with work := { loadingSt.work with tenants := Vector.replicate 16 { tenant0 with key := some [4] } } }

/-- A package that is bad, one without the signature a key asks for (`test_package` says that it passes every check before that), and room
for the image or none. -/
theorem witness_ModelPackageArrives :
    let w : Work := { workOf (.modelLoad 1 480) 0x20 with head := head 0 }
    let none8 := { loadingSt with safety := { up.safety with retired := (List.range 8).map (fun n => ⟨.row, n⟩) } }
    (loadingSt.host.works = [w] ∧ w.head.fn = 0 ∧ w.kind = .modelLoad 1 480 ∧ loadingSt.isReady = true ∧ loadingSt.mayIssue 0 = true) ∧
    packageReason [] 480 ≠ 0 ∧ (keySt.host.works = [w] ∧ keySt.isReady = true ∧ keySt.mayIssue 0 = true ∧
      keySt.signatureBad 0 (package0 65880447) = true) ∧
    loadingSt.signatureBad 0 (package0 65880447) = false ∧
    (none8.isReady = true ∧ none8.mayIssue 0 = true ∧ (none8.dropModel 0 1).freeRegion (none8.partOf 0) = 0 ∧
      272 ≤ (loadingSt.dropModel 0 1).freeRegion (loadingSt.partOf 0)) := by decide +kernel

def policy0 : CalibrationP :=
  { model := 1, mode := 2, maxStep := 2, dMin := 0xF0, dMax := 16, clipHigh := 66, clipLow := 7, headroom := 160, interval := 600,
    minSamples := 1024 }

/-- A block whose producer clips too often; the interval of 600 ticks ends at tick 600. -/
def clipping : ScaleGroup :=
  { group0 with producers := [{ kind := 0, tile := 0, target := 0 }], total := 1048576, clip := 1048576, peakHi := 1, peakLo := 1 }

theorem witness_CalibrationAndRetune :
    let s := tenantSt0
    let moved := withModels tenantSt0 [{ model0 with groups := [{ group0 with d := 3 }] }]
    let m : Model := { model0 with groups := [clipping], image := some { image0 with constBytes := 32, consts := List.replicate 32 0 } }
    let asks (s : State) : State := { s with work := { s.work with retunes := [(0, 1)] } }
    (Admissible up (head 0) (.calibrationPolicy policy0) ∧ up.image? 0 1 = none ∧ up.isReady = true) ∧
    (Admissible s (head 0) (.calibrationPolicy policy0) ∧ s.model? 0 1 = some model0 ∧ model0.image ≠ none ∧ ∀ g ∈ model0.groups, g.d = 0) ∧
    (Admissible moved (head 0) (.calibrationPolicy policy0) ∧ policy0.mode = 2 ∧ ∃ g ∈ [{ group0 with d := 3 }], g.d ≠ 0) ∧
    (s.isReady = true ∧ s.image? 0 1 ≠ none) ∧
    ((asks s).work.retunes = [(0, 1)] ∧ (asks s).model? 0 1 = some model0 ∧ model0.candidates 100 = []) ∧
    ((asks (atTick (withModels up [m]) 600)).model? 0 1 = some m ∧ m.candidates 600 ≠ []) := by
  unfold Admissible; decide

def sample0 : SampleStartP :=
  { sampleSlot := 7, order := 1, seed := 1, dataBase := 0x40000, stream := 0xFFFF, kind := 0, format := 0, outWidth := 16, outHeight := 16,
    epochTicks := 600, setSize := 16, quota := 16 }

def session0 (n : Nat) : Session :=
  { fn := 0, slot := n, order := 0, seed := 1, dataBase := 0, stream := 0xFFFF, kind := 0, format := 0, outWidth := 16, outHeight := 16,
    epochTicks := 100, setSize := 16, quota := 16, start := 1, epoch := 0, counter := 4, delivered := 2, dropped := 1,
    epochDue := false }

def sampleRing : Queue := { queueAt 0 7 .sample with base := 0x70000 }

/-- Tenant 0 may sample and has a sample ring at slot 7. -/
def sampleSt (xs : List Session) : State :=
  { windowSt with host := { windowSt.host with queues := [sampleRing], sampleAllow := 1 },
                  work := { windowSt.work with sessions := xs } }

theorem witness_SampleChannel :
    (Admissible up (head 0) (.sampleStart sample0) ∧ up.sampleAllowed 0 = false) ∧
    (Admissible (sampleSt []) (head 0) (.sampleStart sample0) ∧ (sampleSt []).sampleAllowed 0 = true ∧
      (sampleSt []).queue? 0 7 = some sampleRing ∧ sample0.stream = 0xFFFF ∧ (sampleSt []).session? 0 7 = none ∧
      (sampleSt []).reaches 0 0x40000 (sampleRing.entries * slotBytes 16 16 0) true = true) ∧
    (sampleSt [session0 7]).session? 0 7 ≠ none ∧
    ((sampleSt ((List.range 4).map session0)).session? 0 7 = none ∧
      4 ≤ ((sampleSt ((List.range 4).map session0)).work.sessions.filter (fun x => x.fn == (0 : Fn))).length) ∧
    (Admissible (sampleSt []) (head 0) (.sampleStop { slot := 7 }) ∧ Admissible (sampleSt [session0 7]) (head 0) (.sampleStop { slot := 7 })) ∧
    ((sampleSt [session0 7]).isReady = true ∧ (sampleSt [session0 7]).work.sessions = [session0 7] ∧ (session0 7).lastCommit = 100 ∧
      (atTick (sampleSt [session0 7]) 98).clk.tick + 1 < 100 ∧ 100 ≤ (atTick (sampleSt [session0 7]) 99).clk.tick + 1) ∧
    (({ session0 7 with epochDue := true } : Session).lastCommit ≤ (sampleSt [{ session0 7 with epochDue := true }]).clk.tick ∧
      (sampleSt [{ session0 7 with epochDue := true }]).queue? 0 7 = some sampleRing ∧
      (sampleSt [session0 7]).writable sampleRing ≠ 0 ∧
      (sampleSt [session0 7]).writable { sampleRing with prod := 63 } = 0) ∧
    up.barOpen pfFn = true := by unfold Admissible; decide

def component2 : ComponentP := { component := 2 }

def chunk0 : FwChunkP := { component := 2, offset := 0, source := 0x1000, bytes := 4096, data := [] }

/-- The die's component with its idle slot and running slot so. -/
def fwSt (idle running : SlotState) (image : List Byte) : State :=
  let slot (st : SlotState) (bs : List Byte) : FwSlot := { state := st, image := bs, nextOffset := bs.length, trials := 0 }
  { up with nor := { up.nor with die := { FwComponent.reset with slotA := slot running [], slotB := slot idle image } } }

theorem witness_FirmwareCommandsFollowTheSlotStates :
    (up.takesCommands pf = true ∧ (head pf).fn = pfFn ∧ (head pf).flags.toNat < 4 ∧ (head pf).doneClasp.toNat < 0x2000 ∧
      (1 : Byte) ≠ 2 ∧ (4 : Byte) ≠ 3) ∧
    (Admissible up (head pf) (.fwDownloadChunk chunk0) ∧ 0 + 4096 ≤ slotSize 2 ∧ chunk0.offset = 0 ∧ chunkSizeOk 4096 = true ∧
      (up.fw 2).downloadBarred .ring = false ∧ (up.fw 2).running = 1 ∧ ((fwSt .pending .standby []).fw 2).downloadBarred .ring = true ∧
      slotSize 2 < (0x3FFF000 : U32).toNat + 8192) ∧
    (Admissible up (head pf) (.fwVerify component2) ∧ (up.fw 2).idleSlot.state ≠ .downloaded ∧
      ((fwSt .downloaded .confirmed (fwImage 0)).fw 2).idleSlot.state = .downloaded ∧
      ((fwSt .downloaded .confirmed (fwImage 0)).fw 2).holder ≠ some .pldm ∧
      rd ((fwSt .downloaded .confirmed (fwImage 0)).fw 2).idleSlot.image 4 1 = 2) ∧
    (Admissible up (head pf) (.fwActivate component2) ∧ (up.fw 2).idleSlot.state ≠ .verified ∧
      ((fwSt .verified .confirmed []).fw 2).idleSlot.state = .verified) ∧
    (Admissible up (head pf) (.fwConfirm component2) ∧ ((up.fw 2).slot (up.fw 2).running).state ≠ .trial ∧
      (((fwSt .standby .trial []).fw 2).slot 1).state = .trial) := by unfold Admissible; decide

/-- A trial that may be confirmed automatically after 1 s. -/
def trialSt : State :=
  let r : BootPtr := { sequence := 1, active := 1, previous := 2, confirmed := false, reverted := false, trials := 1, autoConfirm := 1 }
  let s := fwSt .standby .trial []
  { s with nor := { s.nor with die := { s.nor.die with ptr0 := some r, ptr1 := some r, trialReady := some (-500) } } }

theorem witness_FirmwareWorkEnds :
    let w (k : WorkKind) (s : State) : State := withWorks s [workOf k 0x90]
    ((2 : Byte).toNat = 2 ∧ up.dead = false ∧ up.fwWritable 2 = true ∧ (w (.fwChunk 2) up).host.works = [workOf (.fwChunk 2) 0x90]) ∧
    (((fwSt .downloading .confirmed (fwImage 0)).fw 2).idleSlot.state = .downloading ∧
      ((fwSt .downloading .confirmed (fwImage 0)).fw 2).running = 1) ∧
    ((fwSt .downloaded .confirmed []).fw 2).idleSlot.state = .downloaded ∧ signatureOk [] = false ∧
    ((fwSt .verified .confirmed []).fw 2).idleSlot.state = .verified ∧
    ((trialSt.fw 2).slot 1).state = .trial ∧ (trialSt.fw 2).record.isSome = true ∧
    (trialSt.isReady = true ∧ (trialSt.fw 2).autoDue (trialSt.clk.tick + 1) = true ∧
      (trialSt.fw 2).autoDue ((atTick trialSt 98).clk.tick + 1) = false) ∧
    ({ up with host := { up.host with ending := [(workOf (.fwChunk 2) 0x90, ok)] } } : State).host.ending =
      [(workOf (.fwChunk 2) 0x90, ok)] := by decide

/-- Both outcomes of the header check. Whether a signature of 96 bytes or more verifies is the free function `Config.ecdsaVerify`
(notes/assumptions/8.md). -/
theorem witness_FirmwareWorkEnds_image :
    headerOk (fwImage fwCrc) = true ∧ headerOk [] = false ∧
    ({ state := .downloading, image := fwImage fwCrc, nextOffset := 4096, trials := 0 } : FwSlot).whole = true := by
  refine ⟨test_header, by decide, ?_⟩
  have n : (fwImage fwCrc).length = 4096 := by simp [fwImage, le, zeros_length]
  have b : imageBytes (fwImage fwCrc) = 4096 := rfl
  simp only [FwSlot.whole, n, b]
  decide

/-! ### Witnesses: registers, sealing and resets -/

theorem witness_LockedRegistersKeepTheirValues :
    let locked := up.modFn (fnOf 15) (fun x => { x with windowLock := true })
    (up.barOpen 0 = true ∧ write0.poisoned = false ∧ write0.size = 8 ∧ write0.offset.toNat % 8 = 0 ∧ (up.fnSt 0).sealed = true ∧
      write0.offset.toNat ∈ [0x4018, 0x401C]) ∧
    (({ write0 with size := 4, offset := 0x4010 } : RegWriteIn).offset.toNat = 0x4010) ∧
    (locked.barOpen pfFn = true ∧ (locked.fnSt (fnOf 15)).windowLock = true ∧ 0x6100 + 0x100 * 15 ≤ (0x70E0 : BitVec 16).toNat ∧
      (0x70E0 : BitVec 16).toNat < 0x6200 + 0x100 * 15 ∧ (0x70E0 : BitVec 16).toNat % 8 = 0 ∧ (0x70E0 : BitVec 16).toNat % 0x20 < 0x1C) := by
  decide

/-- Every function open and unsealed. -/
def unsealed : State := { up with host := { up.host with fns := Vector.replicate 17 { openFn with sealed := false } } }

theorem witness_RegisterWritesSetTheirFields :
    (∀ f : Fn, unsealed.barOpen f = true ∧ (unsealed.fnSt f).sealed = false ∧ unsealed.linkAnswers = true ∧ unsealed.barDecodes f = true) ∧
    (∀ t : Tenant, unsealed.windowsLocked t = false) ∧ deadSt.linkAnswers = false ∧
    (0x6100 + 0x100 * 15 + 0x20 * 7 + 0x18 < 2 ^ 16 ∧ 255 < vectorsOf pfFn ∧ 63 < vectorsOf 0 ∧ 0x800C + 16 * 255 < 0x9000) ∧
    (bitOf 1 0 = true ∧ bitOf 2 0 = false ∧ (4 : Nat) ∈ [4, 8] ∧ 0x4010 % 8 = 0 ∧ 0x4004 % 8 ≠ 0) := by decide

/-- Every function asks for an examination, which the coming commit takes up; the registers of its request are `x`. -/
def sealSt (x : FnState) (ts : TenantSt) (st : ModuleState) : State :=
  { windowSt with host := { windowSt.host with fns := Vector.replicate 17 { x with sealed := false, sealDue := some 101, sealNow := true } },
                  work := { up.work with tenants := Vector.replicate 16 ts }, safety := { up.safety with state := st } }

def request1 : FnState :=
  { openFn with adminRingSize := 6, adminSqBase := 0x10000, adminCqBase := 0x40000, eventRingBase := 0x41000, eventRingSize := 6 }

theorem witness_SealExaminesTheRequest :
    let s := sealSt request1 tenant0 .ready
    (s.dead = false ∧ (s.fnSt 0).sealDue = some 101 ∧ (s.fnSt 0).resetBusy = false ∧ 101 ≤ s.clk.tick + 1 ∧
      (atTick s 99).clk.tick + 1 < 101) ∧
    ((s.fnSt 0).sealNow = true ∧ (s.fnSt 0).sealed = false ∧ s.isReady = true ∧ (s.fnSt pf).sealNow = true) ∧
    (sealSt request1 tenant0 .starting).isReady = false ∧
    (((sealSt request1 TenantSt.reset .ready).tenantSt 0).configured = false ∧ (s.tenantSt 0).configured = true) ∧
    ((sealSt { request1 with adminRingSize := 17 } tenant0 .ready).fnSt 0).adminRingSize = 17 ∧
    (6 ≤ request1.adminRingSize ∧ request1.adminSqBase.toNat % 4096 = 0 ∧ request1.adminCqBase.toNat % 4096 = 0 ∧
      request1.eventRingBase ≠ 0 ∧ request1.eventRingBase.toNat % 4096 = 0 ∧ request1.eventRingSize = 6) ∧
    ((1 : U64).toNat % 32 ≠ 0 ∧ request1.hbEnable = false) ∧
    (windowsDisjoint (s.windowsOf 0) = true ∧
      windowsDisjoint [{ taBase := 0, size := 8192, hostBase := 0, read := true, write := true },
        { taBase := 4096, size := 4096, hostBase := 0, read := true, write := true }] = false) ∧
    ((s.reaches 0 0x10000 (64 * 2 ^ 6) false = true ∧ s.reaches 0 0x40000 (64 * 2 ^ 6) true = true ∧
      s.reaches 0 0x41000 (64 * 2 ^ 6) true = true) ∧ s.reaches 0 0x10000 (64 * 2 ^ 6) true = false) := by decide

def pendingVector : MsixEntry := { vector := 63, addr := 0, data := 0, masked := true, pending := true }

theorem witness_ConfigurationEventsTakeTheirValues :
    let s := { up with host := { up.host with fns := Vector.replicate 17 { openFn with msix := [pendingVector] } } }
    let open_ := { up with host := { up.host with fns := Vector.replicate 17 { openFn with msix := [{ pendingVector with masked := false }] } } }
    (s.barOpen 0 = true ∧ vectorsOf 0 ≤ 64 ∧ 63 < vectorsOf 0 ∧ (s.fnSt 0).msixOf 63 = pendingVector ∧
      ((up.fnSt 0).msixOf 63).pending = false) ∧
    (up.dead = false ∧ up.boot.broughtUp = true ∧ up.host.linkUp = true ∧ (0 : Fn) ≠ pfFn) ∧
    (open_.dead = false ∧ ∃ e ∈ (open_.fnSt 0).msix, e.pending = true ∧ e.masked = false) ∧
    (up.boot.running = true ∧ 16 ∈ [1, 2, 4, 8, 16] ∧ 320 ∈ [25, 50, 80, 160, 320] ∧ 12 ∉ [1, 2, 4, 8, 16]) := by decide

/-- The resets of every function are in progress since commit 99. -/
def resetting : State :=
  { up with host := { up.host with fns := Vector.replicate 17 { openFn with sealed := false, resetBusy := true, resetCommit := some 99 } } }

theorem witness_ResetTriggersActAtOnce :
    up.pcieUsable = true ∧ (up.fnSt (fnOf 15)).resetBusy = false ∧ (up.fnSt pfFn).resetBusy = false ∧
    resetting.pcieUsable = true ∧ (resetting.fnSt (fnOf 0)).resetBusy = true ∧ (resetting.fnSt pfFn).resetBusy = true := by decide

theorem witness_ResetsEndAndKeepWhatIsSticky :
    let vf := { up with host := { up.host with fns := up.host.fns.set 2 { openFn with resetBusy := true, resetCommit := some 99 } } }
    (vf.dead = false ∧ (vf.fnSt (fnOf 2)).resetCommit = some 99 ∧ (vf.fnSt pfFn).resetBusy = false) ∧
    (resetting.dead = false ∧ (resetting.fnSt (fnOf 2)).resetCommit = some 99 ∧ (resetting.fnSt pfFn).resetBusy = true ∧
      (resetting.fnSt pfFn).resetCommit = some 99) ∧ (up.fnSt 0).resetCommit = none := by decide

/-! ### Witnesses: pools and memory -/

def alloc0 : AllocIn := { row := 0, bytes := 33554432, owner := .stream 0x10, cls := some .bestEffort, job := none, session := none }

def buffer0 : Buffer :=
  { row := 0, cls := 0, index := 0, owner := .stream 0x10, since := some 1, releasing := false, suspect := false, unreferenced := 5,
    job := none, releaser := none, session := none }

def poolSt (bs : List Buffer) (ls : List (Nat × Nat × Level)) : State := { up with pools := { up.pools with bufs := bs, levels := ls } }

def release0 : ReleaseIn := { row := 0, handle := 0, address := 0, node := 0, owner := .stream 0x10, job := none }

theorem witness_BuffersAreAllocatedAndReleased :
    let bare := { up with safety := { up.safety with retired := (List.range 8).map (fun n => ⟨.row, n⟩) } }
    let released : Buffer := { buffer0 with releasing := true }
    (up.dead = false ∧ 33554432 < (33554433 : U32).toNat ∧ classFor alloc0.bytes.toNat = some 5 ∧ classFor 1 = some 0) ∧
    poolAllows ((poolSt [] [(0, 5, .red)]).level 0 5) alloc0.owner alloc0.cls alloc0.job = false ∧
    (poolAllows (bare.level 0 5) alloc0.owner alloc0.cls alloc0.job = true ∧ ∀ r : Row, bare.freeInRow r 5 = none) ∧
    (poolAllows (up.level 0 5) alloc0.owner alloc0.cls alloc0.job = true ∧ partOfRow up.work.startMask (0 : Row).val = 0 ∧
      up.freeInRow 0 5 = some 0) ∧
    ((poolSt [buffer0] []).releaseCheck release0 = 0 ∧ (poolSt [buffer0] []).namedBuffer 0 0 = some buffer0) ∧
    up.releaseCheck release0 = 3 ∧
    ((poolSt [released] []).pools.bufs = [released] ∧ released.releasing = true ∧ released.owner ≠ .scrub ∧ released.releaser = none) := by
  decide

theorem witness_PoolsAuditAndReclaim :
    let s := poolSt [buffer0] []
    let closed : ClosedOwner := { partition := 0, owner := .stream 0x10, session := none, commit := 96 }
    let c := { s with pools := { s.pools with closed := [closed] } }
    let scrub := poolSt [{ buffer0 with owner := .scrub }] []
    (s.bufByHandle 0 0 = some buffer0 ∧ s.isReady = true ∧ isStreamOwner buffer0.owner = true ∧ 5 ≤ buffer0.unreferenced ∧
      buffer0.suspect = false) ∧
    (c.dead = false ∧ c.pools.closed = [closed] ∧ closed.commit + 5 ≤ c.clk.tick + 1 ∧ (atTick c 99).clk.tick + 1 < closed.commit + 5 ∧
      ∃ b ∈ c.pools.bufs, b.heldBy c.work.startMask closed.partition closed.owner closed.session = true ∧ b.releasing = false) ∧
    ({ buffer0 with unreferenced := 4 } : Buffer).unreferenced < 5 ∧
    (scrub.dead = false ∧ scrub.bufByHandle 0 0 = some { buffer0 with owner := .scrub } ∧ scrub.mapOffset 0 256 = some (1, 0) ∧
      256 < scrub.rowSize 0) := by decide

def entry0 (g : Nat) : WqEntry := { granule := g, data := List.replicate 32 7, enables := List.replicate 32 true }

def channelSt (xs : List WqEntry) (rs : List DramReq) : State :=
  up.modChannel 0 (fun x => { x with wq := xs, reqs := rs })

/-- Byte 0 of tile 1's SRAM. -/
def sramAddress : DevAddr := 0x1020000000

theorem witness_RequestsAreRefusedOrServed :
    (up.dead = false ∧ up.portOpen request0 = true ∧ up.devTarget 0x200000000000 = .nothing) ∧
    (up.devTarget 0x200000000 = .dram 1 0 ∧ 1 ≠ request0.row.val) ∧
    (up.devTarget 0x1BFFFFFF0 = .dram 0 0x1BFFFFFF0 ∧ up.rowSize 0 = 0x1C0000000 ∧ 0x1C0000000 < 0x1BFFFFFF0 + reqSize request0) ∧
    (up.devTarget 0 = .dram 0 0 ∧ partOfRow up.work.startMask 0 = request0.partition ∧ up.mapOffset 0 0 = some (0, 0) ∧
      wqCovers (up.channel 0).wq 0 32 = false ∧ wqCovers ((channelSt [entry0 0] []).channel 0).wq 0 32 = true) ∧
    (up.devTarget sramAddress = .sram 1 0 ∧ partOfRow up.work.startMask (1 / 2) = 0 ∧ up.available .facetTile 1 = true ∧
      ({ up with safety := { up.safety with retired := [⟨.facetTile, 1⟩] } } : State).available .facetTile 1 = false) := by decide

theorem up_memoryOk : up.memoryOk := ⟨by decide, by decide, fun c => by revert c; unfold queueOk; decide⟩

theorem witness_AcceptedWritesAreRead :
    let i : DramReqIn := { request0 with write := true, data := List.replicate 32 9, enables := List.replicate 32 true }
    let full := channelSt ((List.range 64).map (fun k => entry0 (k + 1))) []
    up.dead = false ∧ up.memoryOk ∧ up.portOpen i = true ∧ i.write = true ∧ up.devTarget 0 = .dram 0 0 ∧
    partOfRow up.work.startMask 0 = i.partition ∧ 0 + i.data.length ≤ up.rowSize 0 ∧ up.writeFits i (pieces 32 0 32) = true ∧
    full.writeFits i (pieces 32 0 32) = false := by
  refine ⟨rfl, up_memoryOk, rfl, rfl, by decide, by decide, by decide, by decide, by decide⟩

def read0 : DramReq := { seq := 0, port := 2, write := false, addr := 0, bytes := 32, raw := 64, deadline := 0, job := none }

theorem witness_DecisionsGrantOrDrain :
    let many (n : Nat) := (List.range n).map entry0
    (up.dead = false ∧ up.available .dramChannel 0 = true ∧ up.dramChoice 0 [] = none ∧ drainChoice (up.channel 0).wq [] = none) ∧
    ((channelSt [] [read0]).dramChoice 0 [] = some read0 ∧ drainChoice ((channelSt [] [read0]).channel 0).wq [] = none) ∧
    ((channelSt (many 47) [read0]).dramChoice 0 [] = some read0 ∧ drainChoice (many 47) [] = some (entry0 0) ∧ (many 47).length < 48) ∧
    ((many 48).length < 56 ∧ 48 ≤ (many 48).length ∧ read0.raw ≤ ((channelSt (many 48) [read0]).portOf 0 2).tokens) ∧
    56 ≤ (many 56).length ∧
    ((channelSt (many 48) []).dramChoice 0 [] = none ∧ drainChoice (many 48) [] = some (entry0 0)) := by decide

theorem witness_MemoryUpkeep :
    up.dead = false ∧ up.available .dramChannel 0 = true ∧ (up.channel 0).zqTick = none ∧
    ((up.modChannel 0 (fun x => { x with zqTick := some 83 })).channel 0).zqTick = some 83 ∧
    (up.modChannel 0 (fun x => { x with zqTick := some 82 })).clk.tick = 82 + 18 ∧
    up.available .dramChannel (otherChannel 0).val = true ∧ (up.channel 0).wanted ≠ 975 ∧
    95 ≤ ((up.modChannel 0 (fun x => { x with coolReads := 95 })).channel 0).coolReads ∧ (up.channel 0).coolReads < 95 ∧
    ((up.modChannel 0 (fun x => { x with wanted := 1950 })).channel 0).wanted = 1950 ∧
    (up.channel 0).scrubBytes + 64 ≤ 121089 ∧ 32 * (0x6FFFFFF : U32).toNat < 0xE0000000 := by decide

/-! ### Witnesses: Filigree and the chain -/

/-- Packet 1 is on its way from node 0 to node 2. -/
def flying0 : Flying := { pkt := packet0, at_ := 0, inPort := none, rowPort := .rowPlus, colPort := .colPlus, route := 1 }

def fabSt (x : Fabric) : State := { up with fab := x }

def mcast0 : FilPacket := { packet0 with vc := 2, mcast := some { bitmap := 6, missed := 0, mseq := 9, gen := 0, columnRing := false } }

theorem witness_FiligreePacketsAndCredits :
    let s := fabSt { Fabric.reset with packets := [flying0] }
    let poor := fabSt { Fabric.reset with packets := [flying0], credits := [{ node := 0, port := .rowPlus, vc := 0, held := 1, returning := 1 }] }
    let busy := fabSt { Fabric.reset with packets := [flying0, { flying0 with pkt := { packet0 with id := 2, vc := 3 } }] }
    let fence : FilPacket := { packet0 with fence := true }
    let waits := fabSt { Fabric.reset with unacked := [{ pkt := { packet0 with id := 2 }, trailing := false, missed := 0, gen := 0 }] }
    let f' : Flying := { flying0 with at_ := 1, inPort := some .rowPlus }
    let near := fabSt { Fabric.reset with packets := [f'] }
    let drains := { up with fab := { Fabric.reset with draining := [3], planCommit := some 99 } }
    up.dead = false ∧
    (s.fab.packets.find? (samePacket packet0) = some flying0 ∧ flying0.next = some .rowPlus ∧ stepNode 0 .rowPlus = 1 ∧ f'.next ≠ none ∧
      flying0.enters .rowPlus = true ∧ 2 ≤ (s.fab.credit 0 .rowPlus 0).held ∧ packet0.mcast = none ∧
      (s.fab.link 0 .rowPlus 0).grant (0 :: s.fab.readyVcs 0 .rowPlus) = some 0 ∧ (poor.fab.credit 0 .rowPlus 0).held < 2) ∧
    (busy.fab.packets.find? (samePacket packet0) = some flying0 ∧ 3 ∈ busy.fab.readyVcs 0 .rowPlus ∧
      some 3 ∉ (busy.fab.link 0 .rowPlus 0).recent) ∧
    (near.fab.packets.find? (samePacket packet0) = some f' ∧ f'.next = some .rowPlus ∧ f'.enters .rowPlus = false ∧
      (near.fab.link 1 .rowPlus 8).grant (0 :: near.fab.readyVcs 1 .rowPlus) = some 0 ∧ ({ f' with at_ := 2 } : Flying).next = none) ∧
    (waits.fab.packets.find? (samePacket fence) = none ∧ waits.fab.fenceOpen fence = false ∧ up.fab.fenceOpen fence = true) ∧
    (up.fab.packets.find? (samePacket packet0) = none ∧ up.mayInject packet0 = true ∧ packet0.vc ≠ 1 ∧ packet0 ∉ up.fab.resends ∧
      (up.flyingOf packet0).next = some .rowPlus ∧ 2 ≤ (up.fab.credit 0 .rowPlus 0).held ∧
      (up.fab.link 0 .rowPlus 0).grant (0 :: up.fab.readyVcs 0 .rowPlus) = some 0) ∧
    ((up.fab.credit 0 .rowPlus 0).returning = 0 ∧ 0 < (poor.fab.credit 0 .rowPlus 0).returning) ∧
    (({ pkt := mcast0, trailing := false, missed := 0, gen := 0 } : Unacked).pkt.src = 0 ∧ mcast0.mcast.map (·.mseq) = some 9) ∧
    (up.drainAge = 0 ∧ drains.drainAge = 2 ∧ (atTick drains 99).drainAge = 1 ∧ drains.fab.draining ≠ []) := by decide

def linkSt (x : LinkSt) : State := { up with chain := { up.chain with links := up.chain.links.set 0 x } }

def upLink : LinkSt := { LinkSt.reset with state := .up, peer := some 1 }

def flit0 : PeerFlit :=
  { tick := 90, deviceTime := 0, timeState := 0, moduleNo := 1, tray := 0, slot := 1, link := 0, routeEpoch := 1, flags := 1 }

def sent0 : Replay :=
  { seq := 0, vc := 0, fence := false, flits := 1, srcModule := 0, srcNode := 0, epoch := 1, dstModule := 1, dstNode := 5, e2eSeq := 2,
    payload := List.replicate 64 0 }

/-- The packet with the CRC of its bytes (R494). -/
def dataGood : ChainDataIn := { data0 with crc := BitVec.ofNat 32 (crc32c ((headerOf data0).header ++ data0.payload)) }

theorem dataGood_crc : crcOk dataGood = true := by
  have h : headerOf dataGood = headerOf data0 := by simp only [headerOf, dataGood]
  have e : dataGood.crc.toNat = crc32c ((headerOf data0).header ++ data0.payload) := by
    simp only [dataGood, BitVec.toNat_ofNat]
    exact Nat.mod_eq_of_lt (crc32c_lt _)
  rw [crcOk, h, e]
  simp [dataGood, data0]

theorem witness_ChainLinksTrainAndReplay :
    let hands (y : LinkSt) : State := linkSt { y with state := .handshake }
    (up.dead = false ∧ up.available .chainLink 0 = true ∧ up.miswired ⟨0, flit0⟩ = false ∧ flitModule flit0 = some 1 ∧
      up.miswired ⟨0, { flit0 with slot := 2 }⟩ = true ∧ flitModule { flit0 with moduleNo := 8 } = none) ∧
    (((hands LinkSt.reset).link 0).state = .handshake ∧ (up.link 0).state ≠ .handshake ∧ (up.link 0).gotReset = false ∧
      ((hands { LinkSt.reset with gotReset := true, gotAck := true }).link 0).gotAck = true) ∧
    (((linkSt upLink).link 0).isUp = true ∧ (upLink.acked 0).noProgress < 7 ∧
      7 ≤ (({ upLink with noProgress := 7, replay := [sent0] } : LinkSt).acked 0xFFFF).noProgress ∧
      ({ upLink with replay := [sent0] } : LinkSt).replay ≠ [] ∧ upLink.replay = [] ∧ upLink.eqTick = none ∧
      ({ upLink with eqTick := some 0 } : LinkSt).eqTick = some 0 ∧ (linkSt upLink).clk.tick < 0 + 600 ∧
      0 + 600 ≤ (atTick (linkSt upLink) 600).clk.tick) := by decide

theorem witness_ChainDataIsCarriedOnce :
    let s := linkSt upLink
    let routed : State := { s with chain := { s.chain with routes := [(2, some 0, some 1)] } }
    (s.dead = false ∧ (s.link 0).isUp = true ∧ (1 : U16).toNat ≠ upLink.rxExpect ∧ data0.linkSeq.toNat = upLink.rxExpect ∧
      crcOk { data0 with payload := [] } = false) ∧
    (epochFresh (s.peer 1).epoch 0 = true ∧ epochFresh (s.peer 1).epoch 63 = true ∧ epochFresh (s.peer 1).epoch 62 = false) ∧
    (data0.dstModule.val = s.boot.moduleNo ∧ e2eStale (s.e2eOf 1) 3 = false ∧
      e2eStale (({ s with chain := { s.chain with e2eSeen := [(1, [3])] } } : State).e2eOf 1) 3 = true) ∧
    ((2 : ModuleNo).val ≠ s.boot.moduleNo ∧ s.outLink? 2 = none ∧ (routed.outLink? 2).isSome = true) ∧
    (s.altLink? 2 = none ∧ s.primaryLink? 2 = none ∧ (routed.altLink? 2).isSome = true) := by decide

def peer1 : Peer := { Peer.reset with lastSeen := some 100, ready := true, heard := true, epoch := 1 }

/-- Module 1 is READY over link 0 and this module's buddy. -/
def buddySt : State :=
  { linkSt upLink with chain := { (linkSt upLink).chain with peers := (linkSt upLink).chain.peers.set 1 peer1, buddy := some 1,
                                                             routes := [(1, some 1, none)] } }

def mirror0 : Mirror :=
  { home := 1, handle := 0x10, fn := 0, ingestSlot := 5, metadataSlot := 6, cls := .guaranteed, codec := 1, seiSource := false,
    poolMode := false, width := 640, height := 480, frameRate := 30000, timeCodeOffset := 0, baseUncertainty := 0, motionMode := 0,
    binding := [{ model := 1, role := 0, sourceHead := 0, maxBoxes := 0 }], tracker := { tracks := [], nextId := 1 }, zones := [],
    lines := [], rules := [], frameSeq := 5, tokens := 1, tableEpoch := 1, quant := [] }

def rehomeSt (s : State) (due : Nat) : State := { s with chain := { s.chain with rehoming := [(due, 1, mirror0)] } }

def homing (s : State) : State := { s with host := { s.host with autoRehome := true } }

theorem witness_PeersAndMirrors :
    let captured := { buddySt with chain := { buddySt.chain with capturing := some (99, [0x10]) } }
    let owed (n : Nat) : State := { buddySt with chain := { buddySt.chain with mirrorDue := some n } }
    let old := { buddySt with chain := { buddySt.chain with peers := buddySt.chain.peers.set 1 { peer1 with lastSeen := some 97 } } }
    (up.dead = false ∧ flitModule flit0 = some 1 ∧ (1 : ModuleNo).val ≠ up.boot.moduleNo ∧ (up.link 0).state = .down ∧
      (buddySt.link 0).state ≠ .down ∧ (0 : ModuleNo).val = buddySt.boot.moduleNo) ∧
    ((2 : ModuleNo).val ≠ buddySt.boot.moduleNo ∧
      ({ buddySt with chain := { buddySt.chain with
        links := buddySt.chain.links.set 1 { upLink with peer := some 2 }, routes := [(2, some 1, none)] } } : State).outLink? 2 = some 1) ∧
    (buddySt.isReady = true ∧ buddySt.chain.buddy = some 1 ∧ buddySt.chain.mirrorDue = none ∧ buddySt.clk.tick % 30 ≠ 0 ∧
      (atTick buddySt 120).clk.tick % 30 = 0 ∧ (owed 100).chain.mirrorDue = some 100 ∧ 100 ≤ (owed 100).clk.tick ∧
      (owed 101).clk.tick < 101 ∧ up.chain.buddy = none) ∧
    (captured.dead = false ∧ captured.chain.capturing = some (99, [0x10]) ∧ captured.chain.buddy = some (1 : ModuleNo).val ∧
      captured.chain.buddy ≠ some (2 : ModuleNo).val) ∧
    (old.dead = false ∧ (old.peer 1).heard = true ∧ (old.peer 1).lost = false ∧ (old.peer 1).lastSeen = some 97 ∧ 97 + 3 ≤ old.clk.tick ∧
      (atTick old 99).clk.tick < 97 + 3) := by decide

theorem witness_StreamsRehomeAndBalance :
    let s := rehomeSt (homing tenantSt0) 101
    let balances := { up with work := { up.work with balance := { BalancePolicy.default with mode := 2, interval := 600 } } }
    (s.isReady = true ∧ s.chain.rehoming = [(101, 1, mirror0)] ∧ mirror0.handle = (0x10 : U16).toNat ∧ 101 ≤ s.clk.tick + 1 ∧
      (atTick s 99).clk.tick + 1 < 101) ∧
    ((homing tenantSt0).coming.rehomeFault 1 mirror0 = none ∧ (homing tenantSt0).homeStream? 1 mirror0 = none ∧
      up.coming.rehomeFault 1 mirror0 = some (2, 0) ∧ up.homeStream? 1 mirror0 = none) ∧
    (let own : Stream := { stream0 with binding := mirror0.binding, remote := some (1, 1) }
     let t := withStreams (homing tenantSt0) [own]
     t.work.streams = [own] ∧ t.homeStream? 1 { mirror0 with home := 0 } = some own ∧
      t.coming.rehomeFault 1 { mirror0 with home := 0 } = none) ∧
    (1 : ModuleNo).val ≠ up.boot.moduleNo ∧
    (up.work.balance.mode = 0 ∧ (balances.clk.tick + 1) % max 1 600 ≠ balances.boot.moduleNo * 600 / 8 ∧
      ((atTick balances 599).clk.tick + 1) % max 1 600 = balances.boot.moduleNo * 600 / 8 ∧ balances.isReady = true ∧
      balances.coming.loadPercent 0 (balances.coming.loadsWithout none) ≤ balances.work.balance.highWater ∧
      ({ BalancePolicy.default with mode := 1 } : BalancePolicy).mode = 1) := by decide

def migrate0 : StreamMigrateP := { handle := 0x10, targetModule := 1, decodeModule := 0xFF }

def migration0 : Migration :=
  { handle := 0x10, target := 1, decode := 1, head := some (head 0), balancer := false, start := 98, switched := false, previous := 0,
    ownRefusal := none }

def migratingSt (sw : Bool) : State :=
  { withStreams buddySt [stream0] with
    chain := { buddySt.chain with migrations := [{ migration0 with switched := sw }] },
    host := { buddySt.host with works := [workOf (.streamMigrate 0x10) 0x33] } }

def request2 : MigrationRequestIn :=
  { home := 1, handle := 0x10, cls := 1, codec := 1, poolMode := false, width := 640, height := 480, frameRate := 30000, motionMode := 0,
    decodeHere := true, inferHere := false, models := [{ model := 1, role := 0, sourceHead := 0, maxBoxes := 0, crc := 0 }] }

theorem witness_StreamsMigrate :
    let s := withStreams buddySt [stream0]
    let urgent := withStreams buddySt [{ stream0 with cls := .urgent }]
    let refusedHere := { migratingSt false with chain := { (migratingSt false).chain with migrations := [{ migration0 with ownRefusal := some 2 }] } }
    let away := withStreams up [{ stream0 with remote := some (1, 1), frames := [frame0] }]
    let leaving := { up with work := { up.work with evacuating := true } }
    (Admissible up (head 0) (.streamMigrate migrate0) ∧ up.liveStream? 0 0x10 = none) ∧
    (Admissible urgent (head 0) (.streamMigrate migrate0) ∧ (urgent.liveStream? 0 0x10).map (·.cls) = some .urgent) ∧
    (Admissible (withStreams up [stream0]) (head 0) (.streamMigrate migrate0) ∧ (withStreams up [stream0]).liveStream? 0 0x10 = some stream0 ∧
      (withStreams up [stream0]).migrating 0x10 = false ∧ (withStreams up [stream0]).routeUp 1 = false) ∧
    (Admissible s (head 0) (.streamMigrate migrate0) ∧ s.liveStream? 0 0x10 = some stream0 ∧ s.coming.migrationFault stream0 1 1 = none) ∧
    ((migratingSt false).isReady = true ∧ (migratingSt false).chain.migrations = [migration0] ∧
      migration0.start + 3 ≤ (migratingSt false).clk.tick + 1 ∧ (atTick (migratingSt false) 99).clk.tick + 1 < migration0.start + 3 ∧
      migration0.ownRefusal = none) ∧
    (refusedHere.chain.migrations = [{ migration0 with ownRefusal := some 2 }] ∧ refusedHere.isReady = true ∧
      refusedHere.workOf? (.streamMigrate 0x10) = some (workOf (.streamMigrate 0x10) 0x33)) ∧
    ((migratingSt true).stream? 0x10 = some stream0 ∧
      (migratingSt true).workOf? (.streamMigrate 0x10) = some (workOf (.streamMigrate 0x10) 0x33) ∧
      stream0.frames = [] ∧ ({ migration0 with switched := true } : Migration).switched = true) ∧
    (up.isReady = true ∧ tenantSt0.isReady = true ∧ tenantSt0.shareReason request2 = 0 ∧ leaving.shareReason request2 ≠ 0) ∧
    (away.isReady = true ∧ away.stream? 0x10 = some { stream0 with remote := some (1, 1), frames := [frame0] } ∧
      ([frame0].find? (fun (f : Frame) => f.seq == 3)) = some frame0 ∧
      away.infersHere { stream0 with remote := some (1, 1), frames := [frame0] } = false) := by unfold Admissible; decide

theorem witness_EvacuationEmptiesTheModule :
    let leaving := { up with work := { up.work with evacuating := true } }
    up.dead = false ∧ (up.work.evacuating = false ∧ (up.fnSt 0).sealed = true) ∧
    (leaving.dead = false ∧ leaving.work.evacuating = true ∧ leaving.work.evacDone = false ∧ leaving.isReady = true ∧
      leaving.work.streams = [] ∧ leaving.chain.migrations = [] ∧ leaving.chain.mirrors = [] ∧ leaving.chain.incoming = [] ∧
      (withStreams leaving [stream0]).work.streams ≠ []) ∧
    ({ leaving with work := { leaving.work with evacDone := true } } : State).work.evacDone = true := by decide

/-! ### Witnesses: faults and safety checks -/

def retained0 : Retained :=
  { handle := 0x10, fn := 0, commit := 99, frame := frame0, refs := [], prevField := none, tracker := { tracks := [], nextId := 1 }, buffers := [] }

def gap0 : Gap := { stream := 0x10, firstFrame := 1, lastFrame := 2, firstMissed := 0, lastMissed := 1, missed := 2, missedAlerts := 0 }

theorem witness_FaultsAndLossesAreTold :
    let kept := { up with work := { up.work with retained := [retained0] } }
    let gaps : Queue := { queueAt pf 6 .metadata with gaps := [gap0] }
    let events := queueAt pf 2 .event
    let lost := { withQueues up [events] with
      host := { up.host with queues := [events], fns := Vector.replicate 17 { openFn with eventDropped := 1 } } }
    up.isReady = true ∧
    ((withStreams up [{ stream0 with frames := [frame0] }]).isReady = true ∧ frame0.seq = (3 : U64).toNat ∧ frame0.idle = false) ∧
    (kept.work.retained = [retained0] ∧ retained0.frame.seq = (3 : U64).toNat ∧ retained0.commit + 2 ≤ kept.clk.tick + 1 ∧
      (atTick kept 99).clk.tick + 1 < retained0.commit + 2) ∧
    ((withQueues up [queueAt pf 6 .metadata]).queue? pf 6 = some (queueAt pf 6 .metadata) ∧ (queueAt pf 6 .metadata).gaps = []) ∧
    ((withQueues up [gaps]).queue? pf 6 = some gaps ∧ gaps.gaps = [gap0] ∧ gaps.missedRetractions = [] ∧
      1 ≤ (withQueues up [gaps]).writable gaps ∧ (withQueues up [gaps]).writable { gaps with prod := 63 } < 1) ∧
    (lost.queue? pf 2 = some events ∧ (lost.fnSt pf).eventDropped ≠ 0 ∧ lost.writable events ≠ 0 ∧
      lost.writable { events with prod := 63 } = 0 ∧ (up.fnSt pf).eventDropped = 0) := by decide

def retest0 : Retest := { unit := ⟨.facetTile, 0⟩, tick := 99, runs := 1, failed := false, column := none }

theorem witness_SafetyChecksAreNoted :
    let tests := { up with safety := { up.safety with retests := [retest0] } }
    let retired := { up with safety := { up.safety with retired := [⟨.controlCluster, 3⟩] } }
    (touchSlot ⟨.facetTile, 15⟩ = some 90 ∧ up.touchable ⟨.facetTile, 15⟩ = true ∧ (∀ r ∈ up.safety.retests, r.unit ≠ ⟨.facetTile, 15⟩) ∧
      (atTick up 186).clk.tick % 96 = 90 ∧ (atTick up 187).clk.tick % 96 = (90 + 1) % 96 ∧
      (atTick up 188).clk.tick % 96 ≠ 90 ∧ (atTick up 188).clk.tick % 96 ≠ (90 + 1) % 96) ∧
    (tests.safety.retests = [retest0] ∧ tests.touchable ⟨.facetTile, 0⟩ = true ∧ retest0.failed = false ∧ retest0.runs < 2 ∧
      retest0.tick < tests.clk.tick ∧ (atTick tests 99).clk.tick ≤ retest0.tick) ∧
    (up.isReady = true ∧ up.available .controlCluster 3 = true ∧ (∀ x ∈ up.safety.reloading, x.1 ≠ 3) ∧
      retired.available .controlCluster 3 = false ∧ retired.isReady = true) ∧
    up.dead = false := by decide

/-! ### Witnesses: heat and power -/

def hotSt (n c : Nat) (t : Option Nat) : State :=
  { up with safety := { up.safety with throttle := n, coolTicks := c, stepTick := t } }

theorem witness_HeatThrottlesThenStops :
    let stopped := { up with safety := { up.safety with arraysStopped := true, coolTicks := 600 } }
    up.boot.running = true ∧
    ((hotSt 4 0 (some 40)).safety.throttle < 5 ∧ (∀ t, (hotSt 4 0 (some 40)).safety.stepTick = some t → t + 60 ≤ 100) ∧
      5 ≤ (hotSt 5 0 none).safety.throttle ∧ (hotSt 0 0 (some 41)).clk.tick < 41 + 60) ∧
    ((hotSt 1 599 none).safety.coolTicks + 1 = 600 ∧ (hotSt 1 598 none).safety.coolTicks + 1 < 600 ∧
      (hotSt 1 599 none).safety.arraysStopped = false) ∧
    (up.isReady = true ∧ up.safety.state ≠ .failed ∧ (up.fnSt 0).sealed = true) ∧
    (stopped.safety.arraysStopped = true ∧ 600 ≤ stopped.safety.coolTicks) := by
  refine ⟨rfl, ⟨by decide, fun t h => ?_, by decide, by decide⟩, by decide, by decide, by decide⟩
  cases h
  decide

def stageSt (x : Power) : State := { up with power := x }

theorem witness_HotSwapStage :
    (stageSt { Power.reset with en := false, gate := .off, pwrgd := false }).power.en = false ∧
    (stageSt { Power.reset with en := false, gate := .off, faultLatched := true }).power.faultLatched = true ∧
    (stageSt { Power.reset with inputBad := true, gate := .off }).power.inputBad = true ∧
    ((stageSt { Power.reset with gate := .ramp }).power.gate = .ramp ∧ up.mmc.state ≠ .absent) ∧
    (up.power.gate = .on ∧ (stageSt { Power.reset with gate := .off }).power.gate = .off) ∧
    (let s := { stageSt { Power.reset with gate := .off, faultLatched := true, faultAges := [1, 2] } with
       mmc := { Mmc.reset with autoRetry := true } }
     s.mmc.autoRetry = true ∧ s.power.faultLatched = true ∧ s.power.noRetry = false ∧ s.power.en = true ∧ s.power.inputBad = false ∧
      s.power.recent < 3 ∧ 3 ≤ ({ s.power with faultAges := [1, 2, 60000] } : Power).recent) := by decide

def ledger0 : List LedgerEntry := [{ type := 1, unitKind := 1, unit := 3, source := 0, startCount := 1, tick := 0, detail := [] }]

theorem witness_StartsAndReady :
    let off := { up with power := { up.power with gate := .off, pwrgd := false }, boot := { up.boot with running := false } }
    let s := { State.reset with nor := { State.reset.nor with ledger0 := ledger0, ledger1 := ledger0 },
                                boot := { Boot.reset with broughtUp := true } }
    ({ off with power := up.power } : State).power.pwrgd = true ∧ off.boot.running = false ∧ off.power.pwrgd = false ∧
    (up.boot.running = true ∧ up.safety.state ≠ .failed ∧ failedSt.safety.state = .failed) ∧
    (State.reset.safety.state = .starting ∧ up.safety.state ≠ .starting ∧ State.reset.boot.broughtUp = false ∧ State.reset.power.pwrgd = true) ∧
    (s.ledgerOk ∧ s.boot.broughtUp = true ∧ s.safety.state = .starting ∧ retiredBy s.nor.ledger0 = [⟨.facetTile, 3⟩]) ∧
    vital .assayNode = true := by unfold State.ledgerOk; decide

theorem witness_ManagementController :
    let absent := { up with mmc := { Mmc.reset with state := .absent } }
    let rebuilds := { up with mmc := { Mmc.reset with state := .rebuilding, restartDue := true } }
    (up.boot.running = true ∧ up.mmc.state = .serving ∧ absent.mmc.state = .absent ∧ rebuilds.mmc.state = .rebuilding) ∧
    (up.safety.arraysStopped = false ∧ up.nor.writesStopped = false ∧ up.mmc.restartDue = false ∧ rebuilds.mmc.restartDue = true) := by decide

/-! ### Witnesses: management -/

/-- A transaction addressed to the MMC of slot 0, with its PEC. -/
def toMmc : MgmtPath := .smbus { address := 0x60, kHz := 400, pec := true }

theorem witness_ManagementRequestsAreServed :
    let absent := { up with mmc := { Mmc.reset with state := .absent } }
    let rebuilds := { up with mmc := { Mmc.reset with state := .rebuilding } }
    (absent.access toMmc = .silent ∧ up.access (.vdm 0) = .silent ∧ rebuilds.access toMmc = .notReady ∧ up.access toMmc = .serve ∧
      up.access (.vdm pf) = .serve) ∧
    (up.mmc.events = [] ∧ up.nor.writesStopped = false ∧ up.mmc.log[0]? = none ∧ up.sensor 0x7FFF = none ∧ up.safety.failCause = none) ∧
    ((0 : U64).toNat % 1000000000 = 0 ∧ (1 : U64).toNat % 1000000000 ≠ 0 ∧ up.dead = false ∧ up.clk.fromMmc = none) := by decide

theorem witness_PldmUpdate :
    let u : PldmUpdate := { passed := [2], component := some 2, activating := false }
    let s := { up with mmc := { Mmc.reset with update := some u } }
    let v := { fwSt .verified .confirmed [] with mmc := { Mmc.reset with update := some u } }
    (up.access toMmc = .serve ∧ up.mmc.update = none ∧ (up.fw 2).holder = none ∧ (up.fw 3).holder = none) ∧
    (s.access toMmc = .serve ∧ s.mmc.update = some u ∧ (2 : U16).toNat ∈ u.passed ∧ (3 : U16).toNat ∉ u.passed ∧
      (s.fw 2).downloadBarred .pldm = false ∧ [(1 : Byte)] ≠ [] ∧ 1 ≤ slotSize 2 ∧ s.nor.writesStopped = false ∧ (s.fw 2).running = 1) ∧
    (u.component = some 2 ∧ (v.fw 2).idleSlot.state = .verified ∧ (s.fw 2).idleSlot.state ≠ .verified) := by decide

/-! ### Worked examples of the spec -/

/-- The state after a command. -/
def after (i : Instr) (s : State) : State := match exec i s with
  | .next t => t
  | .fault _ => s
  | .refused _ => s

/-- 03: 600 ticks are a second; the pattern of R55. -/
theorem test_tickLengths : (nominalLen 0, nominalLen 1, nominalLen 2, nominalNs 600) = (1666667, 1666667, 1666666, 1000000000) := by decide

/-- 03, the example: 620 ns is reported as 78 units, 16,132 ns as 2,017, 22,044 ns as 2,756. -/
theorem test_uncertainty : (encodeUnc (some (620 * 10 ^ 10)), encodeUnc (some (16132 * 10 ^ 10)), encodeUnc (some (22044 * 10 ^ 10)),
    encodeUnc none) = (78, 2017, 2756, 0xFFFF) := by decide

/-- 03: in HOLDOVER u_dev is 212 ns 120 s after the last accepted edge, once LOCKED has lasted 20 minutes. -/
theorem test_holdoverUncertainty :
    ({ Clock.reset with mode := .holdover, lockedTicks := 720000, lastAccepted := some 0, ocxoNs := 120000000000 } : Clock).uDev =
      some (212 * 10 ^ 10) := by decide

/-- 01: module 2 in slot 2 of tray 0 reaches slots 3, 0 and 1; row 2's nodes. -/
theorem test_wiring : ((wiredTo 0 2 0).1, (wiredTo 1 2 0).1, (wiredTo 2 2 0).1) = (3, 0, 1) ∧
    (nodeOfUnit ⟨.decodeEngine, 6⟩, nodeOfUnit ⟨.visionEngine, 2⟩, nodeOfUnit ⟨.facetTile, 4⟩, nodeOfUnit ⟨.postEngine, 2⟩) =
      (20, 21, 18, 22) := by decide

/-- 01, 04: with row 5's cluster retired 21 decode engines and 14 tiles are left, AVAILABLE 0xFC7FFF and 0xF3FF. -/
theorem test_retiredRow :
    let s := { up with safety := { up.safety with retired := [⟨.controlCluster, 5⟩] } }
    (s.unitsOf 0 .decodeEngine).length = 21 ∧ (s.unitsOf 0 .facetTile).length = 14 ∧
    sumOf ((s.unitsOf 0 .decodeEngine).map (2 ^ ·)) = 0xFC7FFF ∧ sumOf ((s.unitsOf 0 .facetTile).map (2 ^ ·)) = 0xF3FF := by decide

/-- 06: producer index 3 with check 0x0212 and WAKE; a stale ID is rejected with code 2. -/
theorem test_doorbell :
    let q : Queue := { queueAt 0 9 .ingest with id := 0x212, log2 := 7, vector := some 3 }
    (dbIndex 0x82120003, dbCheck 0x82120003, dbWake 0x82120003, dbReserved 0x82120003) = (3, 0x212, true, false) ∧
    doorbellCheck (some q) 9 1024 0x82120003 true = 0 ∧ doorbellCheck (some q) 9 1024 0x01F70003 true = 2 ∧
    (q.ring 0x82120003 5 0).prod = 3 ∧ (q.ring 0x82120003 5 0).wakes = [3] := by decide

/-- 11: the check value of CRC-32C. -/
theorem test_crc : crc32c [0x31, 0x32, 0x33, 0x34, 0x35, 0x36, 0x37, 0x38, 0x39] = 0xE3069283 := by decide +kernel

/-- 08: the cycles of TN-1's and CV-05's motion fields. -/
theorem test_motionCycles : (motionCycles 0 3840 2160, motionCycles 1 3840 2160, motionCycles 1 1920 1080) = (522400, 1559200, 392800) := by
  decide

/-- 12: the thresholds of a pool of 8,192 buffers. -/
theorem test_levels : (nextLevel 0 2047 8192, nextLevel 0 2048 8192, nextLevel 1 2211 8192, nextLevel 1 2212 8192) = (1, 0, 1, 0) ∧
    (nextLevel 1 819 8192, nextLevel 1 820 8192, nextLevel 2 983 8192, nextLevel 2 984 8192) = (2, 1, 2, 1) := by decide

/-- 13: the line at row offset 0x1_2345_6700 of row 2 of module 2. -/
theorem test_addressMap :
    let s := { up with boot := { up.boot with moduleNo := 2 } }
    s.devTarget 0x400523456700 = .dram 2 0x123456700 ∧ s.mapOffset 2 0x123456700 = some (5, 0x91A2B300) ∧ pageOf 0x91A2B300 = 1363481 := by
  decide

/-- 15: the decode charges of TN-1 and of a 1080p stream. -/
theorem test_decodeCharge : (codedPixels 2 3840 2160, enginesFor (codedPixels 2 3840 2160), decodeCharge (codedPixels 2 3840 2160),
    decodeCharge (codedPixels 1 1920 1080)) = (8355840, 8, 9645532, 2411383) := by decide

/-- 16: facet tile 5's slot. -/
theorem test_touchSlot : touchSlot ⟨.facetTile, 5⟩ = some 30 ∧ 73200030 % 96 = 30 := by decide

/-- 10: a share of 229 over a limit of 66 moves d by 2. -/
theorem test_retune :
    let g : ScaleGroup := { group0 with total := 114032640, clip := 399000 }
    (candidateOf CalPolicy.default [] [g] g 7).map (fun c => (c.group, c.want)) = some (7, 2) := by decide

/-- 15: TN-1's picture of 3840 x 2160 is admitted beside nothing else. -/
theorem test_admitsTn1 :
    tenantSt0.admitReason [] (tenantSt0.openProfile 0 { open0 with codec := 2, width := 3840, height := 2160 }) = none := by decide

/-- 06: a NOP with SIGNAL raises its clasp by 1 and completes in the coming commit. -/
theorem test_nopSignals :
    let s := withQueues (withClasps up [claspAt 3 0]) [{ queueAt 0 0 .command with paired := some 1 }, queueAt 0 1 .completion]
    let t := after (.nop (headSig 0)) s
    t.host.clasps.map (·.value) = [6] ∧ t.host.completions.map (fun c => (c.body.status, c.body.tick)) = [(0, 101)] := by decide

/-- 02: a commit of a running die takes it to the next tick and counts the OCXO time of the tick just ended. -/
theorem test_commitTicks :
    let t := after (.commit { measuredNs := 1666667, heartbeatsDiffer := false, badCrc := [] }) State.reset
    t.clk.tick = 1 ∧ t.clk.ocxoNs = 1666667 := by decide

/-- 05: FLR of VF 3 sets RESET_BUSY at once and unseals the function. -/
theorem test_flr :
    let t := after (.flr { fn := 3 }) up
    (t.fnSt 3).resetBusy = true ∧ (t.fnSt 3).sealed = false ∧ (t.fnSt 4).resetBusy = false := by decide

/-- 18: the current limit trips while the stage ramps; the entry is logged by an MMC that serves. -/
theorem test_trip :
    let t := after (.currentLimitTimeout { vOut := 1200, iPeak := 980, msInPhase := 3 }) (stageSt { Power.reset with gate := .ramp })
    t.power.gate = .off ∧ t.power.faultLatched = true ∧
        t.mmc.log.map (fun e => (e.cause, e.phase, e.timeInPhase, e.vOut, e.iPeak)) = [(1, 1, 3, 1200, 980)] := by decide

end Sys2Proof.Tests
end

section
/-! Writes to locked registers: O33. -/

namespace Sys2Proof.Machine

/-! ### The fields of one function (R16) -/

/-- The record of a discarded write in FN_STATUS.RWL_VIOLATION (R16). -/
def FnState.recordRwl (x : FnState) : FnState := { x with rwlViolation := true }

/-- The RWL fields among the function set-up registers, as block offsets; FN_CONTROL, at 0x010, has SEAL beside one. -/
def rwlOffsets : List Nat := [0x018, 0x01C, 0x020, 0x028, 0x02C, 0x030, 0x034, 0x038, 0x040, 0x044]

theorem FnState.rwl_sealed {x : FnState} (hs : x.sealed = true) (g : FnState → FnState) : x.rwl g = x.recordRwl := by
  simp [FnState.rwl, FnState.recordRwl, hs]

theorem FnState.writeReg_sealed {x : FnState} (hs : x.sealed = true) {off : Nat} (h : off ∈ rwlOffsets) (v due : Nat) :
    x.writeReg off v due = x.recordRwl := by
  simp only [rwlOffsets, List.mem_cons, List.not_mem_nil, or_false] at h
  rcases h with rfl | rfl | rfl | rfl | rfl | rfl | rfl | rfl | rfl | rfl <;>
    simp only [FnState.writeReg, FnState.rwl_sealed hs]

/-- FN_CONTROL of a sealed function: HB_ENABLE is recorded, and SEAL may ask for an examination. -/
theorem FnState.writeReg_control_sealed {x : FnState} (hs : x.sealed = true) (v due : Nat) :
    x.writeReg 0x010 v due =
      { x.recordRwl with sealDue := if bitOf v 0 && x.sealDue.isNone then some due else x.sealDue } := by
  simp only [FnState.writeReg, FnState.rwl_sealed hs, FnState.recordRwl]
  split <;> rfl

/-- The second dword of an 8-byte write finds the violation recorded: at an RWL field it records the same again, and at
the reserved upper dword of a 32-bit register it does nothing (R11). -/
theorem FnState.writeReg_upper_recorded {x : FnState} (hs : x.sealed = true) {off : Nat}
    (h : off ∈ rwlOffsets ∨ off ∈ [0x014, 0x024, 0x03C]) (v due : Nat) : x.recordRwl.writeReg off v due = x.recordRwl := by
  rcases h with h | h
  · exact FnState.writeReg_sealed (x := x.recordRwl) hs h v due
  · simp only [List.mem_cons, List.not_mem_nil, or_false] at h
    rcases h with rfl | rfl | rfl <;> rfl

theorem rwlOffsets_upper {off : Nat} (h : off ∈ rwlOffsets) (ha : off % 8 = 0) :
    off + 4 ∈ rwlOffsets ∨ off + 4 ∈ [0x014, 0x024, 0x03C] := by
  have all : ∀ o ∈ rwlOffsets, o % 8 = 0 → o + 4 ∈ rwlOffsets ∨ o + 4 ∈ [0x014, 0x024, 0x03C] := by decide
  exact all off h ha

/-! ### One dword written to BAR0 (Table 5.3) -/

theorem State.writeBar0_setup (s : State) (f : Fn) {off : Nat} (h : off < 0x1000) (v due : Nat) :
    s.writeBar0 f (0x4000 + off) v due = s.modFn f (fun x => x.writeReg off v due) := by
  rw [State.writeBar0, if_neg (by omega), if_pos (by omega), Nat.add_sub_cancel_left]

theorem State.writeBar0_module (s : State) {off : Nat} (h : off < 0x2000) (v due : Nat) :
    s.writeBar0 pfFn (0x6000 + off) v due = s.writeModuleReg off v due := by
  rw [State.writeBar0, if_neg (by omega), if_neg (by omega), if_pos (by simp; omega), if_pos isPf_pfFn,
    Nat.add_sub_cancel_left]

/-- Within the windows of a tenant whose windows are locked, a write is recorded in the PF, but at a window's reserved end
it does nothing (R11, R181). -/
theorem State.writeModuleReg_locked {s : State} {t : Tenant} (hl : s.windowsLocked t = true) {off : Nat} (h : off < 0x100)
    (v due : Nat) : s.writeModuleReg (0x100 + 0x100 * t.val + off) v due =
      if 0x1C ≤ off % 0x20 then s else s.modFn pfFn FnState.recordRwl := by
  have ht : (⟨(0x100 + 0x100 * t.val + off - 0x100) / 0x100, by omega⟩ : Tenant) = t := Fin.ext (by simp; omega)
  have hmod : (0x100 + 0x100 * t.val + off) % 0x20 = off % 0x20 := by omega
  rw [State.writeModuleReg, if_neg (by omega), if_neg (by omega), dif_pos (by omega)]
  simp only [ht, hl, hmod, if_true]
  rfl

theorem State.windowsLocked_recordRwl (s : State) (f : Fn) (t : Tenant) :
    (s.modFn f FnState.recordRwl).windowsLocked t = s.windowsLocked t := by
  unfold State.windowsLocked
  by_cases h : fnOf t = f
  · subst h; rw [State.fnSt_modFn]; rfl
  · rw [State.fnSt_modFn_ne s _ h]

/-- Recording a violation twice is recording it once. -/
theorem State.recordRwl_recordRwl (s : State) (f : Fn) :
    (s.modFn f FnState.recordRwl).modFn f FnState.recordRwl = s.modFn f FnState.recordRwl :=
  State.modFn_modFn s f _ _

/-! ### REGISTER_WRITE -/

/-- R13, R169: a write that acts is one dword or two. -/
theorem exec_registerWrite_of_dwords {i : RegWriteIn} {s t : State} (hopen : s.barOpen i.fn = true) (hp : i.poisoned = false)
    (ha : i.size = 4 ∧ i.offset.toNat % 4 = 0 ∨ i.size = 8 ∧ i.offset.toNat % 8 = 0)
    (hlow : s.writeBar0 i.fn i.offset.toNat (i.value.toNat % 2 ^ 32) (s.rwcDue i.toEdgeNs) = t)
    (hupper : i.offset.toNat % 8 = 0 → ∀ v due, t.writeBar0 i.fn (i.offset.toNat + 4) v due = t) :
    exec (.registerWrite i) s = .next t := by
  change execRegisterWrite i s = .next t
  rcases ha with ⟨hsize, halign⟩ | ⟨hsize, halign⟩
  · simp [execRegisterWrite, hopen, hp, hsize, halign, hlow, -Nat.reducePow]
  · simp [execRegisterWrite, hopen, hp, hsize, halign, hlow, hupper halign, -Nat.reducePow]

section
variable {i : RegWriteIn} {s : State} (hopen : s.barOpen i.fn = true) (hp : i.poisoned = false)
  (ha : i.size = 4 ∧ i.offset.toNat % 4 = 0 ∨ i.size = 8 ∧ i.offset.toNat % 8 = 0)
include hopen hp ha

/-- R16, for a register that is RWL throughout. -/
theorem exec_registerWrite_rwl (hs : (s.fnSt i.fn).sealed = true) {off : Nat} (hoff : i.offset.toNat = 0x4000 + off)
    (h : off ∈ rwlOffsets) : exec (.registerWrite i) s = .next (s.modFn i.fn FnState.recordRwl) := by
  have hlt : off < 0x0FFC := (by decide : ∀ o ∈ rwlOffsets, o < 0x0FFC) off h
  refine exec_registerWrite_of_dwords hopen hp ha ?_ fun halign v due => ?_
  · rw [hoff, State.writeBar0_setup s _ (by omega)]
    exact State.modFn_congr (FnState.writeReg_sealed hs h _ _)
  · rw [hoff, Nat.add_assoc, State.writeBar0_setup _ _ (by omega)]
    apply State.modFn_same
    rw [State.fnSt_modFn]
    exact FnState.writeReg_upper_recorded hs (rwlOffsets_upper h (by omega)) v due

/-- R16, for FN_CONTROL. -/
theorem exec_registerWrite_control (hs : (s.fnSt i.fn).sealed = true) (hoff : i.offset.toNat = 0x4010) :
    ∃ d, exec (.registerWrite i) s = .next (s.modFn i.fn (fun x => { x.recordRwl with sealDue := d })) := by
  refine ⟨if bitOf (i.value.toNat % 2 ^ 32) 0 && (s.fnSt i.fn).sealDue.isNone then some (s.rwcDue i.toEdgeNs)
    else (s.fnSt i.fn).sealDue, exec_registerWrite_of_dwords hopen hp ha ?_ fun _ v due => ?_⟩
  · rw [hoff, State.writeBar0_setup s _ (off := 0x010) (by omega)]
    exact State.modFn_congr (FnState.writeReg_control_sealed hs _ _)
  · rw [hoff, State.writeBar0_setup _ _ (off := 0x014) (by omega)]
    exact State.modFn_same rfl

/-- R181. -/
theorem exec_registerWrite_locked_window (hf : i.fn = pfFn) {t : Tenant} (hl : s.windowsLocked t = true) {off : Nat}
    (hoff : i.offset.toNat = 0x6000 + (0x100 + 0x100 * t.val + off)) (h : off < 0x100) (hw : off % 0x20 < 0x1C) :
    exec (.registerWrite i) s = .next (s.modFn pfFn FnState.recordRwl) := by
  refine exec_registerWrite_of_dwords hopen hp ha ?_ fun halign v due => ?_
  · rw [hoff, hf, State.writeBar0_module s (by omega), State.writeModuleReg_locked hl h, if_neg (by omega)]
  · have hl' : (s.modFn pfFn FnState.recordRwl).windowsLocked t = true := by rw [State.windowsLocked_recordRwl, hl]
    rw [hoff, hf, Nat.add_assoc, Nat.add_assoc, State.writeBar0_module _ (by omega),
      State.writeModuleReg_locked hl' (by omega), State.recordRwl_recordRwl, ite_self]

end

/-- Settles O33. A write acts dword by dword: the first dword records the violation, and the second of an 8-byte write
meets the same lock, or a reserved dword, and adds nothing. -/
theorem lockedRegistersKeepTheirValues : Obligations.LockedRegistersKeepTheirValues := by
  unfold Obligations.LockedRegistersKeepTheirValues
  intro i s hopen hp ha
  refine ⟨fun hs h => ?_, fun hs h => exec_registerWrite_control hopen hp ha hs h, fun hf t hl hlo hhi hw => ?_⟩
  · have hblock : ∀ o ∈ [0x4018, 0x401C, 0x4020, 0x4028, 0x402C, 0x4030, 0x4034, 0x4038, 0x4040, 0x4044],
        o = 0x4000 + (o - 0x4000) ∧ o - 0x4000 ∈ rwlOffsets := by decide
    obtain ⟨hoff, hmem⟩ := hblock _ h
    exact exec_registerWrite_rwl hopen hp ha hs hoff hmem
  · exact exec_registerWrite_locked_window hopen hp ha hf hl (off := i.offset.toNat - (0x6100 + 0x100 * t.val))
      (by omega) (by omega) (by omega)

end Sys2Proof.Machine
end

section
/-! PARTITION_PLAN and the state after reset: O16, O6. -/

namespace Sys2Proof.Machine

/-! ### A ring command that is refused -/

/-- An admissible ring command whose effect refuses it completes with that status and leaves the rest as it was. -/
theorem ringRow_refuses {s : State} {h : CmdHead} {c : RingCmd} {eff : CmdEffect} {st : Status}
    (ha : Admissible s h c) (he : eff s.coming = refuse s.coming st) :
    ∃ t, s.ringRow h c eff = .next t ∧ Completes s t h (opcodeOf c) st 0xFFFF [] :=
  ringRow_answers ha he rfl

/-! ### A plan that takes effect -/

/-- R43: each tenant follows the first row of its partition, and nothing else of the tenant changes. -/
theorem State.tenantSt_installPlan (s : State) (new : BitVec 8) (t : Tenant) :
    (s.installPlan new).tenantSt t =
      { s.tenantSt t with partition := remap s.work.startMask new (s.tenantSt t).partition } :=
  Vector.getElem_map _ t.isLt

@[simp] theorem State.tenantSt_backTo (s : State) (c : Clock) (t : Tenant) : (s.backTo c).tenantSt t = s.tenantSt t := rfl

/-! ### PARTITION_PLAN, a case for each precondition of Table 6.10 and one for its effect -/

section
variable {p : PartitionPlanP} {s : State}

theorem applyPartitionPlan_busy (hb : s.planBusy p.startMask = true) :
    applyPartitionPlan p s = refuse s .partitionBusy := if_pos hb

theorem applyPartitionPlan_lacksCluster (hb : s.planBusy p.startMask = false)
    (hc : s.planLacksCluster p.startMask = true) : applyPartitionPlan p s = refuse s .unitUnavailable := by
  simp [applyPartitionPlan, hb, hc]

theorem applyPartitionPlan_dropsTenant (hb : s.planBusy p.startMask = false)
    (hc : s.planLacksCluster p.startMask = false) (hd : s.planDropsTenant p.startMask = true) :
    applyPartitionPlan p s = refuse s .invalidState := by
  simp [applyPartitionPlan, hb, hc, hd]

/-- The RESULT is the route-plan epoch as the plan leaves it, one above the one it found (R74). -/
theorem applyPartitionPlan_installs (hb : s.planBusy p.startMask = false)
    (hc : s.planLacksCluster p.startMask = false) (hd : s.planDropsTenant p.startMask = false) :
    applyPartitionPlan p s = (s.installPlan p.startMask, some (okWith (le 4 (s.work.routeEpoch + 1)))) := by
  simp [applyPartitionPlan, hb, hc, hd, State.installPlan]

end

/-- Settles O16. No precondition reads the clock, so each holds of the coming commit's state as it holds of `s`; a refusal
leaves that state as it was, and a plan is installed in it, so that the drain begins at the coming commit. -/
theorem partitionPlanInstalls : Obligations.PartitionPlanInstalls := by
  unfold Obligations.PartitionPlanInstalls
  intro h p s ha
  refine ⟨fun hb => ringRow_refuses ha (applyPartitionPlan_busy hb),
    fun hb hc => ringRow_refuses ha (applyPartitionPlan_lacksCluster hb hc),
    fun hb hc hd => ringRow_refuses ha (applyPartitionPlan_dropsTenant hb hc hd), fun hb hc hd => ?_⟩
  obtain ⟨u, hexec, hdone⟩ := ringRow_answers ha (applyPartitionPlan_installs (s := s.coming) hb hc hd) rfl
  refine ⟨(s.coming.installPlan p.startMask).backTo s.clk, u, hexec, hdone, rfl, rfl, fun t => ?_,
    rfl, rfl, rfl, rfl, rfl, rfl, rfl, rfl, rfl, rfl, rfl, rfl⟩
  rw [State.tenantSt_backTo, State.tenantSt_installPlan]
  exact ⟨rfl, rfl, rfl⟩

/-! ### Reset -/

@[simp] theorem State.tenantSt_reset (t : Tenant) : State.reset.tenantSt t = TenantSt.reset :=
  Vector.getElem_replicate t.isLt

@[simp] theorem State.fnSt_reset (f : Fn) : State.reset.fnSt f = FnState.reset :=
  Vector.getElem_replicate f.isLt

theorem State.channel_reset (c : Channel) : State.reset.channel c = ChannelSt.reset (c.val % 2 == 1) :=
  Vector.getElem_ofFn c.isLt

/-- Both memories are empty and no write waits in any channel. -/
theorem State.reset_memoryOk : State.reset.memoryOk := by
  refine ⟨rfl, rfl, fun c e he => ?_⟩
  rw [State.channel_reset] at he
  cases he

/-- Both copies of the ledger are empty. -/
theorem State.reset_ledgerOk : State.reset.ledgerOk := ⟨rfl, Nat.zero_le _⟩

/-- Settles O6, field by field: tenants and functions are replicated from one reset record each. -/
theorem resetState : Obligations.ResetState := by
  unfold Obligations.ResetState
  refine ⟨rfl, rfl, rfl, rfl, rfl, rfl, rfl, rfl, fun t => ?tenant, rfl, rfl, rfl, fun f => ?function, rfl, rfl, rfl, rfl, rfl,
    rfl, rfl, rfl, rfl, rfl, State.reset_memoryOk, State.reset_ledgerOk⟩
  case tenant =>
    rw [State.tenantSt_reset]
    exact ⟨rfl, rfl, rfl⟩
  case function =>
    rw [State.fnSt_reset]
    exact ⟨rfl, rfl, rfl, rfl, rfl, rfl, rfl⟩

end Sys2Proof.Machine
end

section
/-! What the time unit makes of its references: O8, O9, O10. -/

namespace Sys2Proof.Machine

/-! ### A fault of a reference (Table 3.2, R111) -/

/-- The 10 MHz reference, while valid, is lost: an open evaluation goes on. -/
theorem Clock.dropRef_lost {c : Clock} (h : c.refValid = true) :
    c.dropRef 0x0101 = { c.refFault 0x0101 with refValid := false, refRun := 0 } := if_pos h

/-- The 10 MHz reference, while valid, is rejected: an open evaluation ends. -/
theorem Clock.dropRef_rejected {c : Clock} (h : c.refValid = true) :
    c.dropRef 0x0103 = { c.endEvaluation.refFault 0x0103 with refValid := false, refRun := 0 } := if_pos h

theorem Clock.dropPps_valid {c : Clock} (h : c.ppsValid = true) (code : Nat) :
    c.dropPps code = { c.endEvaluation.refFault code with ppsValid := false, ppsRun := 0 } := if_pos h

theorem Clock.refFault_leaves_locked {c : Clock} (h : c.mode = .locked) (code : Nat) :
    (c.refFault code).leaveLocked = true := by
  simp [Clock.refFault, h]

/-! ### A frequency measurement (R98, R107, R112) -/

theorem Clock.measure_rejects {c : Clock} {d : Int} (h : 20000 < d.natAbs) : c.measure (some d) = c.dropRef 0x0103 :=
  if_neg (by omega)

theorem Clock.measure_qualifies {c : Clock} {d : Int} (h : d.natAbs ≤ 20000) (hq : c.refValid = true ∨ 2 ≤ c.refRun) :
    c.measure (some d) = { c with
      refValid := true, refRun := 0, ratePpb := d, lockedPpb := if c.mode == .locked then d else c.lockedPpb } := by
  simp [Clock.measure, h, hq]

theorem Clock.measure_counts {c : Clock} {d : Int} (h : d.natAbs ≤ 20000) (hv : c.refValid = false) (hr : c.refRun < 2) :
    c.measure (some d) = { c with refRun := c.refRun + 1 } := by
  simp [Clock.measure, h, hv, hr]

/-- A 10 MHz reference that is lost or rejected is not valid, and none of its measurements counts any more. -/
theorem Clock.dropRef_restarts (c : Clock) (code : Nat) :
    (c.dropRef code).refValid = false ∧ (c.dropRef code).refRun = 0 := by
  unfold Clock.dropRef
  split
  next => exact ⟨rfl, rfl⟩
  next h => exact ⟨Bool.eq_false_iff.mpr h, rfl⟩

/-- `c` with what a measurement may change taken from `d`: what concerns the 10 MHz reference, and what a fault of it ends. -/
def Clock.withRefOf (c d : Clock) : Clock :=
  { c with refValid := d.refValid, refRun := d.refRun, ratePpb := d.ratePpb, lockedPpb := d.lockedPpb, held := d.held,
           notes := d.notes, lockRun := d.lockRun, leaveLocked := d.leaveLocked }

theorem Clock.dropRef_eq (c : Clock) (code : Nat) : c.dropRef code = c.withRefOf (c.dropRef code) := by
  unfold Clock.dropRef
  dsimp only
  (repeat' split) <;> rfl

/-- The PPS, time and the state stay as they are at a measurement. -/
theorem Clock.measure_eq (c : Clock) (ppb : Option Int) : c.measure ppb = c.withRefOf (c.measure ppb) := by
  cases ppb with
  | none => rfl
  | some d =>
    unfold Clock.measure
    dsimp only
    split
    · split <;> rfl
    · exact c.dropRef_eq 0x0103

/-- A measurement within 20 ppm, or none, leaves an open evaluation as it is. -/
theorem Clock.measure_held {c : Clock} {ppb : Option Int} (h : ∀ d, ppb = some d → d.natAbs ≤ 20000) :
    (c.measure ppb).held = c.held := by
  cases ppb with
  | none => rfl
  | some d =>
    simp only [Clock.measure, h d rfl, if_true]
    split <;> rfl

/-! ### An edge of a valid PPS (R657, R111) -/

section
variable {c : Clock} {after : Nat} {dev : Int} (hd : c.deviation (c.ocxoNs + after) = dev)
include hd

theorem Clock.judgeValid_rejects (h : 20000 < dev.natAbs) :
    c.judgeValid after = ({ c.dropPps 0x0103 with ppsRun := 1 }, false) := by
  simp only [Clock.judgeValid, hd, h, if_true]

theorem Clock.judgeValid_accepts (h : dev.natAbs ≤ 50) :
    c.judgeValid after =
      (({ c with lastNear := some (c.ocxoNs + after) } : Clock).endEvaluation.accept after, true) := by
  simp only [Clock.judgeValid, hd, h, if_true, if_neg (show ¬ 20000 < dev.natAbs by omega)]

theorem Clock.judgeValid_holds_first (h : 50 < dev.natAbs) (hmax : dev.natAbs ≤ 20000) (hheld : c.held = []) :
    c.judgeValid after = ({ c with lastNear := some (c.ocxoNs + after), held := [dev] }, false) := by
  simp [Clock.judgeValid, hd, hheld, show ¬ 20000 < dev.natAbs by omega, show ¬ dev.natAbs ≤ 50 by omega]

/-- The third edge within 50 ns of the two held is the phase step. -/
theorem Clock.judgeValid_steps (h : 50 < dev.natAbs) (hmax : dev.natAbs ≤ 20000) (hlen : c.held.length = 2)
    (hnear : ∀ x ∈ c.held, (dev - x).natAbs ≤ 50) :
    c.judgeValid after =
      ((({ c with lastNear := some (c.ocxoNs + after), held := [] } : Clock).note 0x0105 dev).accept after, true) := by
  have hany : c.held.any (fun x => decide (50 < (dev - x).natAbs)) = false := by simpa using hnear
  simp [Clock.judgeValid, hd, hany, hlen, show ¬ 20000 < dev.natAbs by omega, show ¬ dev.natAbs ≤ 50 by omega]

end

/-! ### An edge of a PPS that is not valid (R112) -/

/-- An edge at OCXO time `t` comes a second after the latest one, within 20 us. -/
def Clock.spacedAt (c : Clock) (t : Nat) : Prop :=
  ∃ e, c.lastEdge = some e ∧ ((t : Int) - e - 1000000000).natAbs ≤ 20000

theorem Clock.judgeInvalid_restarts {c : Clock} {after : Nat} (h : ¬ c.spacedAt (c.ocxoNs + after)) :
    c.judgeInvalid after = ({ c with ppsRun := 1 }, false) := by
  unfold Clock.judgeInvalid
  cases he : c.lastEdge with
  | none => rfl
  | some e =>
    have hfar : ¬ (((c.ocxoNs + after : Nat) : Int) - e - 1000000000).natAbs ≤ 20000 := fun hn => h ⟨e, he, hn⟩
    simp only [hfar, decide_false]
    rfl

theorem Clock.judgeInvalid_counts {c : Clock} {after : Nat} (h : c.spacedAt (c.ocxoNs + after)) (hr : c.ppsRun < 2) :
    c.judgeInvalid after = ({ c with ppsRun := c.ppsRun + 1 }, false) := by
  obtain ⟨e, he, hnear⟩ := h
  simp only [Clock.judgeInvalid, he, hnear, decide_true, if_true]
  exact if_neg (show ¬ 3 ≤ c.ppsRun + 1 by omega)

theorem Clock.judgeInvalid_qualifies {c : Clock} {after : Nat} (h : c.spacedAt (c.ocxoNs + after)) (hr : 2 ≤ c.ppsRun) :
    c.judgeInvalid after =
      (({ c with ppsValid := true, ppsRun := 0, lastNear := some (c.ocxoNs + after) } : Clock).accept after, true) := by
  obtain ⟨e, he, hnear⟩ := h
  simp only [Clock.judgeInvalid, he, hnear, decide_true, if_true]
  exact if_pos (show 3 ≤ c.ppsRun + 1 by omega)

/-! ### PPS_EDGE -/

/-- What an edge makes of the clock that the second's measurement leaves. -/
def Clock.judge (c : Clock) (after : Nat) : Clock :=
  if c.ppsValid then (c.judgeValid after).1 else (c.judgeInvalid after).1

theorem Clock.judge_valid {c : Clock} (h : c.ppsValid = true) (after : Nat) :
    c.judge after = (c.judgeValid after).1 := if_pos h

theorem Clock.judge_invalid {c : Clock} (h : c.ppsValid = false) (after : Nat) :
    c.judge after = (c.judgeInvalid after).1 := if_neg (by simp [h])

/-- `d` has the tick, device time, state and arming of `c`: what judging an edge leaves alone (R99, R106). -/
structure Clock.SameTime (c d : Clock) : Prop where
  tick : d.tick = c.tick
  ocxoNs : d.ocxoNs = c.ocxoNs
  stepTotal : d.stepTotal = c.stepTotal
  mode : d.mode = c.mode
  armed : d.armed = c.armed

theorem Clock.sameTime_dropPps (c : Clock) (code : Nat) : c.SameTime (c.dropPps code) := by
  unfold Clock.dropPps
  split <;> exact ⟨rfl, rfl, rfl, rfl, rfl⟩

theorem Clock.sameTime_measure (c : Clock) (ppb : Option Int) : c.SameTime (c.measure ppb) := by
  rw [c.measure_eq ppb]
  exact ⟨rfl, rfl, rfl, rfl, rfl⟩

theorem Clock.sameTime_judgeValid (c : Clock) (after : Nat) : c.SameTime (c.judgeValid after).1 := by
  unfold Clock.judgeValid
  dsimp only
  split
  · obtain ⟨ht, ho, hs, hm, ha⟩ := c.sameTime_dropPps 0x0103
    exact ⟨ht, ho, hs, hm, ha⟩
  · (repeat' split) <;> exact ⟨rfl, rfl, rfl, rfl, rfl⟩

theorem Clock.sameTime_judgeInvalid (c : Clock) (after : Nat) : c.SameTime (c.judgeInvalid after).1 := by
  by_cases h : c.spacedAt (c.ocxoNs + after)
  · by_cases hr : c.ppsRun < 2
    · rw [Clock.judgeInvalid_counts h hr]
      exact ⟨rfl, rfl, rfl, rfl, rfl⟩
    · rw [Clock.judgeInvalid_qualifies h (by omega)]
      exact ⟨rfl, rfl, rfl, rfl, rfl⟩
  · rw [Clock.judgeInvalid_restarts h]
    exact ⟨rfl, rfl, rfl, rfl, rfl⟩

theorem Clock.sameTime_judge (c : Clock) (after : Nat) : c.SameTime (c.judge after) := by
  unfold Clock.judge
  split
  · exact c.sameTime_judgeValid after
  · exact c.sameTime_judgeInvalid after

theorem Clock.SameTime.trans {c d e : Clock} (h : c.SameTime d) (k : d.SameTime e) : c.SameTime e :=
  ⟨k.tick.trans h.tick, k.ocxoNs.trans h.ocxoNs, k.stepTotal.trans h.stepTotal, k.mode.trans h.mode,
    k.armed.trans h.armed⟩

theorem Clock.load_unarmed {c : Clock} (h : c.armed = none) (after : Nat) : c.load after = c := by
  simp only [Clock.load, h]

theorem Clock.ppsEdge_short {c : Clock} {i : PpsIn} (h : i.widthNs < 100) : c.ppsEdge i = c := if_pos h

/-- With nothing armed, an edge is judged and noted as the latest, and nothing else comes of it. -/
theorem Clock.ppsEdge_unarmed {c : Clock} {i : PpsIn} (hw : 100 ≤ i.widthNs) (ha : c.armed = none) :
    ∃ lr, c.ppsEdge i = { (c.measure i.ocxoPpb).judge (c.timed i.afterEdgeNs) with
      lastEdge := some (c.ocxoNs + c.timed i.afterEdgeNs), lockRun := lr } := by
  have hsame := (c.sameTime_measure i.ocxoPpb).trans
    ((c.measure i.ocxoPpb).sameTime_judge (c.timed i.afterEdgeNs))
  have hj : (if (c.measure i.ocxoPpb).ppsValid then (c.measure i.ocxoPpb).judgeValid (c.timed i.afterEdgeNs)
      else (c.measure i.ocxoPpb).judgeInvalid (c.timed i.afterEdgeNs)).1 =
      (c.measure i.ocxoPpb).judge (c.timed i.afterEdgeNs) := by
    unfold Clock.judge
    split <;> rfl
  simp only [Clock.ppsEdge, if_neg (show ¬ i.widthNs < 100 by omega), hj, Clock.load_unarmed (hsame.armed.trans ha),
    ite_self, hsame.ocxoNs]
  exact ⟨_, rfl⟩

theorem exec_ppsEdge_unarmed (i : PpsIn) {s : State} (hrun : s.boot.running = true) (ha : s.clk.armed = none) :
    exec (.ppsEdge i) s = .next { s with clk := s.clk.ppsEdge i } := by
  change execPpsEdge i s = _
  simp [execPpsEdge, hrun, ha]

/-- PPS_EDGE while nothing is armed: the clock that the second's measurement leaves judges the edge. -/
theorem exec_ppsEdge_judges {i : PpsIn} {s : State} (hrun : s.boot.running = true) (ha : s.clk.armed = none)
    (hw : 100 ≤ i.widthNs) : ∃ lr, exec (.ppsEdge i) s = .next { s with clk :=
      { (s.clk.measure i.ocxoPpb).judge (s.clk.timed i.afterEdgeNs) with
        lastEdge := some (s.clk.ocxoNs + s.clk.timed i.afterEdgeNs), lockRun := lr } } := by
  obtain ⟨lr, he⟩ := Clock.ppsEdge_unarmed hw ha
  exact ⟨lr, by rw [exec_ppsEdge_unarmed i hrun ha, he]⟩

theorem exec_measurementWindow (i : MeasureIn) {s : State} (hrun : s.boot.running = true) (hv : s.clk.ppsValid = false) :
    exec (.measurementWindow i) s = .next { s with clk := s.clk.measure (some i.ocxoPpb) } := by
  change execMeasurementWindow i s = _
  simp [execMeasurementWindow, hrun, hv]

/-- Settles O8. A measurement within 20 ppm moves nothing an edge is judged by, so each clause is the branch of `judgeValid`
that the deviation takes. -/
theorem ppsEdgeIsJudged : Obligations.PpsEdgeIsJudged := by
  unfold Obligations.PpsEdgeIsJudged
  intro i s hrun ha run after dev
  refine ⟨fun hw => ?ignored, fun hw hv hppm => ?judged⟩
  case ignored =>
    rw [exec_ppsEdge_unarmed i hrun ha, Clock.ppsEdge_short hw]
  case judged =>
    obtain ⟨lr, hexec⟩ := exec_ppsEdge_judges hrun ha hw
    have hsame := (s.clk.sameTime_measure i.ocxoPpb).trans ((s.clk.measure i.ocxoPpb).sameTime_judge run)
    have hm := s.clk.measure_eq i.ocxoPpb
    have hheld := Clock.measure_held (c := s.clk) hppm
    generalize s.clk.measure i.ocxoPpb = m at hexec hsame hm hheld
    have hv' : m.ppsValid = true := by rw [hm]; exact hv
    have hdev : m.deviation (m.ocxoNs + run) = dev := by rw [hm]; rfl
    rw [show s.clk.timed i.afterEdgeNs = run from rfl, Clock.judge_valid hv'] at hexec
    rw [Clock.judge_valid hv'] at hsame
    refine ⟨_, hexec, hsame.tick, hsame.stepTotal, hsame.mode, rfl, fun h => ?rejected, fun h => ?accepted,
      fun h hmax hnone => ?held, fun h hmax hlen hnear => ?stepped⟩
    case rejected =>
      rw [Clock.judgeValid_rejects hdev h, Clock.dropPps_valid hv', hm]
      exact ⟨rfl, rfl, rfl, { code := 0x0103, value := 0 }, List.mem_append_right _ (List.mem_singleton_self _), rfl⟩
    case accepted =>
      rw [Clock.judgeValid_accepts hdev h, hm]
      exact ⟨hv, rfl, rfl, rfl⟩
    case held =>
      rw [Clock.judgeValid_holds_first hdev h hmax (hheld.trans hnone), hm]
      exact ⟨hv, rfl, rfl, rfl, rfl⟩
    case stepped =>
      rw [Clock.judgeValid_steps hdev h hmax (by rw [hheld, hlen]) (by rw [hheld]; exact hnear), hm]
      exact ⟨hv, rfl, rfl, { code := 0x0105, value := dev }, List.mem_append_right _ (List.mem_singleton_self _), rfl, rfl⟩

/-- Settles O9. The first part is `judgeInvalid` after a measurement, which leaves the PPS as it is; the second is
`measure` itself. -/
theorem referencesQualify : Obligations.ReferencesQualify := by
  unfold Obligations.ReferencesQualify
  refine ⟨fun i s hrun ha hw hv => ?pps, fun i s hrun hv => ?measurement⟩
  case pps =>
    intro after spaced
    obtain ⟨lr, hexec⟩ := exec_ppsEdge_judges hrun ha hw
    have hm := s.clk.measure_eq i.ocxoPpb
    generalize s.clk.measure i.ocxoPpb = m at hexec hm
    rw [Clock.judge_invalid (c := m) (by rw [hm]; exact hv)] at hexec
    have hspaced : m.spacedAt (m.ocxoNs + s.clk.timed i.afterEdgeNs) ↔ spaced := by rw [hm]; rfl
    have hcount : m.ppsRun = s.clk.ppsRun := by rw [hm]; rfl
    refine ⟨_, hexec, rfl, fun h => ?restarts, fun h hr => ?counts, fun h hr => ?qualifies⟩
    case restarts =>
      rw [Clock.judgeInvalid_restarts (mt hspaced.mp h), hm]
      exact ⟨hv, rfl, rfl⟩
    case counts =>
      rw [Clock.judgeInvalid_counts (hspaced.mpr h) (hcount ▸ hr), hm]
      exact ⟨hv, rfl, rfl⟩
    case qualifies =>
      rw [Clock.judgeInvalid_qualifies (hspaced.mpr h) (hcount ▸ hr), hm]
      exact ⟨rfl, rfl⟩
  case measurement =>
    have hsame := s.clk.sameTime_measure (some i.ocxoPpb)
    refine ⟨_, exec_measurementWindow i hrun hv, hsame.tick, hsame.mode, fun h hq => ?qualifies, fun h hr hn => ?counts,
      fun h => ?rejects⟩
    case qualifies =>
      rw [Clock.measure_qualifies h hq]
      exact ⟨rfl, rfl⟩
    case counts =>
      rw [Clock.measure_counts h hr hn]
      exact ⟨hr, rfl⟩
    case rejects =>
      rw [Clock.measure_rejects h]
      exact s.clk.dropRef_restarts 0x0103

/-! ### The rows of Table 3.2 -/

theorem exec_timeRefLoss10m {i : RefWindowIn} {s : State} (hrun : s.boot.running = true) (h : i.edges < 16) :
    exec (.timeRefLoss10m i) s = .next { s with clk := s.clk.dropRef 0x0101 } := by
  change execTimeRefLoss10m i s = _
  simp [execTimeRefLoss10m, hrun, h]

theorem exec_timeRefLossPps {i : AfterEdgeIn} {s : State} (hrun : s.boot.running = true) :
    exec (.timeRefLossPps i) s = .next { s with clk := s.clk.ppsLost (s.clk.timed i.afterEdgeNs) } := by
  change execTimeRefLossPps i s = _
  simp [execTimeRefLossPps, hrun]

theorem exec_timeRateReject_tenMHz {ppb : Int} {s : State} (hrun : s.boot.running = true) (h : 20000 < ppb.natAbs) :
    exec (.timeRateReject (.tenMHz ppb)) s = .next { s with clk := s.clk.dropRef 0x0103 } := by
  change execTimeRateReject (.tenMHz ppb) s = _
  simp [execTimeRateReject, hrun, h]

theorem exec_timeRateReject_pps {dev : Int} {s : State} (hrun : s.boot.running = true) (h : 20000 < dev.natAbs) :
    exec (.timeRateReject (.pps dev)) s = .next { s with clk := s.clk.dropPps 0x0103 } := by
  change execTimeRateReject (.pps dev) s = _
  simp [execTimeRateReject, hrun, h]

section
variable {c : Clock} {t after : Nat} (hnear : c.lastNear = some t)
include hnear

theorem Clock.ppsLost_in_time (h : c.ocxoNs + after < t + 1000002000) : c.ppsLost after = c := by
  simp [Clock.ppsLost, hnear, show ¬ t + 1000002000 ≤ c.ocxoNs + after by omega]

theorem Clock.ppsLost_late (hv : c.ppsValid = true) (h : t + 1000002000 ≤ c.ocxoNs + after) :
    c.ppsLost after = c.dropPps 0x0102 := by
  simp [Clock.ppsLost, hnear, hv, h]

end

/-- Settles O10. -/
theorem referenceFaults : Obligations.ReferenceFaults := by
  unfold Obligations.ReferenceFaults
  intro s hrun
  refine ⟨fun i => ⟨fun h => ?present, fun h hv => ⟨_, exec_timeRefLoss10m hrun h, ?lost10m⟩⟩,
    fun i t hnear hv => ⟨fun h => ?inTime, fun h => ⟨_, exec_timeRefLossPps hrun, ?lostPps⟩⟩,
    fun ppb h hv => ⟨_, exec_timeRateReject_tenMHz hrun h, ?rejected10m⟩,
    fun dev h hv => ⟨_, exec_timeRateReject_pps hrun h, ?rejectedPps⟩⟩
  case present =>
    change execTimeRefLoss10m i s = _
    simp [execTimeRefLoss10m, show ¬ i.edges < 16 by omega]
  case lost10m =>
    rw [Clock.dropRef_lost hv]
    exact ⟨rfl, rfl, rfl, rfl, rfl, fun h => Clock.refFault_leaves_locked h 0x0101⟩
  case inTime =>
    rw [exec_timeRefLossPps hrun, Clock.ppsLost_in_time hnear h]
  case lostPps =>
    rw [Clock.ppsLost_late hnear hv h, Clock.dropPps_valid hv]
    exact ⟨rfl, rfl, rfl, rfl, rfl, rfl, fun h => Clock.refFault_leaves_locked h 0x0102⟩
  case rejected10m =>
    rw [Clock.dropRef_rejected hv]
    exact ⟨rfl, rfl, rfl, rfl, fun h => Clock.refFault_leaves_locked h 0x0103⟩
  case rejectedPps =>
    rw [Clock.dropPps_valid hv]
    exact ⟨rfl, rfl, rfl, rfl, fun h => Clock.refFault_leaves_locked h 0x0103⟩

end Sys2Proof.Machine
end

section
/-! The limits of HOLDOVER, STEPPED and an arming: O11. -/

namespace Sys2Proof.Machine

/-! ### Raising events (06:R242) -/

/-- From `s` to `t` nothing changes but the functions' own state; there, events join those held, and SEALED stays. -/
structure OnlyRaises (s t : State) : Prop where
  rest : t = { s with host := { s.host with fns := t.host.fns } }
  sealed_eq : ∀ f, (t.fnSt f).sealed = (s.fnSt f).sealed
  grows : ∀ f, ∃ es, (t.fnSt f).eventHeld = (s.fnSt f).eventHeld ++ es

theorem OnlyRaises.refl (s : State) : OnlyRaises s s := ⟨rfl, fun _ => rfl, fun _ => ⟨[], (List.append_nil _).symm⟩⟩

theorem OnlyRaises.trans {s t u : State} (h : OnlyRaises s t) (k : OnlyRaises t u) : OnlyRaises s u where
  rest := by rw [k.rest, h.rest]
  sealed_eq f := (k.sealed_eq f).trans (h.sealed_eq f)
  grows f := by
    obtain ⟨es, hes⟩ := h.grows f
    obtain ⟨es', hes'⟩ := k.grows f
    exact ⟨es ++ es', by rw [hes', hes, List.append_assoc]⟩

theorem OnlyRaises.clk_eq {s t : State} (h : OnlyRaises s t) : t.clk = s.clk := by rw [h.rest]

theorem OnlyRaises.sealedFns_eq {s t : State} (h : OnlyRaises s t) : t.sealedFns = s.sealedFns := by
  simp only [State.sealedFns, h.sealed_eq]

theorem State.raise_onlyRaises (s : State) (f : Fn) (code : Nat) (d : List Byte) : OnlyRaises s (s.raise f code d) := by
  have hself := State.fnSt_raiseFull s f code (severityOf code) 0xFFFF 0xFFFF 0xFF d
  have hne := fun k hk => State.fnSt_raiseFull_ne s (f := f) (k := k) hk code (severityOf code) 0xFFFF 0xFFFF 0xFF d
  rw [← State.raise] at hself
  obtain ⟨e, -, -, he⟩ := hself
  refine ⟨rfl, fun k => ?_, fun k => ?_⟩ <;> by_cases hk : k = f
  · rw [hk, he]; rfl
  · rw [State.raise, hne k hk]
  · exact ⟨_, by rw [hk, he]; rfl⟩
  · exact ⟨[], by rw [State.raise, hne k hk, List.append_nil]⟩

theorem OnlyRaises.foldl {α : Type} {g : State → α → State} (hg : ∀ s a, OnlyRaises s (g s a)) (l : List α) (s : State) :
    OnlyRaises s (l.foldl g s) := by
  induction l generalizing s with
  | nil => exact .refl s
  | cons a l ih => exact (hg s a).trans (ih (g s a))

theorem State.raiseAll_onlyRaises (s : State) (fs : List Fn) (code : Nat) (d : List Byte) :
    OnlyRaises s (s.raiseAll fs code d) := OnlyRaises.foldl (fun s f => s.raise_onlyRaises f code d) fs s

theorem Raised.after {s t u : State} {f : Fn} {code tick : Nat} (h : OnlyRaises s t) (k : Raised t u f code tick) :
    Raised s u f code tick := by
  obtain ⟨es, hes⟩ := h.grows f
  obtain ⟨es', hes', e, he, hce⟩ := k
  exact ⟨es ++ es', by rw [hes', hes, List.append_assoc], e, List.mem_append_right _ he, hce⟩

theorem Raised.before {s t u : State} {f : Fn} {code tick : Nat} (k : Raised s t f code tick) (h : OnlyRaises t u) :
    Raised s u f code tick := by
  obtain ⟨es, hes⟩ := h.grows f
  obtain ⟨es', hes', e, he, hce⟩ := k
  exact ⟨es' ++ es, by rw [hes, hes', List.append_assoc], e, List.mem_append_left _ he, hce⟩

theorem State.raise_raised (s : State) (f : Fn) (code : Nat) (d : List Byte) :
    Raised s (s.raise f code d) f code s.clk.tick := by
  obtain ⟨e, hcode, htick, he⟩ := State.fnSt_raiseFull s f code (severityOf code) 0xFFFF 0xFFFF 0xFF d
  exact ⟨_, congrArg FnState.eventHeld he, _, List.mem_singleton_self _, hcode, htick⟩

/-- An event that one step of a fold raises, after whatever the steps before it raised, is raised by the fold. -/
theorem Raised.foldl {α : Type} {g : State → α → State} (hg : ∀ s a, OnlyRaises s (g s a)) {l : List α} {a : α}
    (ha : a ∈ l) {s : State} {f : Fn} {code tick : Nat} (hr : ∀ u, OnlyRaises s u → Raised u (g u a) f code tick) :
    Raised s (l.foldl g s) f code tick := by
  obtain ⟨before, rest, rfl⟩ := List.append_of_mem ha
  have hpre := OnlyRaises.foldl hg before s
  rw [List.foldl_append, List.foldl_cons]
  exact ((hr _ hpre).after hpre).before (OnlyRaises.foldl hg rest _)

theorem State.raiseAll_raised (s : State) {fs : List Fn} {f : Fn} (hf : f ∈ fs) (code : Nat) (d : List Byte) :
    Raised s (s.raiseAll fs code d) f code s.clk.tick :=
  Raised.foldl (fun s k => s.raise_onlyRaises k code d) hf fun u hu => by
    rw [← hu.clk_eq]
    exact u.raise_raised f code d

theorem State.mem_sealedFns {s : State} {f : Fn} : f ∈ s.sealedFns ↔ (s.fnSt f).sealed = true := by
  simp [State.sealedFns, allFns]

/-! ### The time events of a commit (R114) -/

/-- The clock without the events that await the commit. -/
def Clock.noted (c : Clock) : Clock := { c with notes := [] }

theorem State.raiseNote_onlyRaises (s : State) (toAll : Bool) (code : Nat) (d : List Byte) :
    OnlyRaises s (if toAll then s.raiseAll s.sealedFns code d else s.raise pfFn code d) := by
  split
  · exact s.raiseAll_onlyRaises _ _ _
  · exact s.raise_onlyRaises _ _ _

theorem State.raiseTimeNotes_onlyRaises (s : State) (old : TimeMode) :
    OnlyRaises { s with clk := s.clk.noted } (s.raiseTimeNotes old) := by
  unfold State.raiseTimeNotes
  exact OnlyRaises.foldl (fun u (n : TimeNote) => u.raiseNote_onlyRaises _ n.code _) _ _

/-- The cause of a change of state goes to every sealed function. -/
theorem State.raiseTimeNotes_raised {s : State} {old : TimeMode} {n : TimeNote} (hn : n ∈ s.clk.notes)
    (hold : old ≠ s.clk.mode) (hcause : n.code ∈ [0x0101, 0x0102, 0x0103, 0x0106, 0x0107]) {f : Fn}
    (hf : (s.fnSt f).sealed = true) : Raised s (s.raiseTimeNotes old) f n.code s.clk.tick := by
  unfold State.raiseTimeNotes
  refine Raised.foldl (s := { s with clk := s.clk.noted }) (fun u (n : TimeNote) => u.raiseNote_onlyRaises _ n.code _) hn
    fun u hu => ?_
  have htick : s.clk.tick = u.clk.tick := by rw [hu.clk_eq]; rfl
  have hmem : f ∈ u.sealedFns := State.mem_sealedFns.mpr ((hu.sealed_eq f).trans hf)
  have hboth : (old != s.clk.mode && [0x0101, 0x0102, 0x0103, 0x0106, 0x0107].contains n.code) = true := by
    rw [List.contains_iff_mem.mpr hcause, bne_iff_ne.mpr hold, Bool.and_self]
  rw [if_pos hboth, htick]
  exact u.raiseAll_raised hmem n.code _

/-! ### The commit that ends HOLDOVER (Table 3.1) -/

theorem Clock.transition_expires {c : Clock} (hm : c.mode = .holdover) (he : c.expired = true)
    (hl : c.leaveLocked = false) (hk : c.lockable = false) : c.transition = c.leaveHoldover := by
  simp [Clock.transition, hm, he, hl, hk]

theorem State.timeCommit_unloaded {s : State} (h : s.clk.loaded = none) :
    s.timeCommit = ({ s with clk := s.clk.transition } : State).raiseTimeNotes s.clk.mode := by
  simp only [State.timeCommit, Clock.applyLoad, h]

/-- Log entry 160: the uncertainty that FREE-RUN begins with is what HOLDOVER had without the slewing term. -/
theorem Clock.uDev_leaveHoldover {c : Clock} (hm : c.mode = .holdover) (ht : c.todLoaded = true) :
    ({ c.leaveHoldover with phaseErr := 0 } : Clock).uDev = ({ c with phaseErr := 0 } : Clock).uDev := by
  simp [Clock.uDev, Clock.leaveHoldover, Clock.note, hm, ht]

/-! ### The rows that end at a limit -/

theorem exec_timeHoldoverExpired {s : State} {t : Nat} (hrun : s.boot.running = true) (hm : s.clk.mode = .holdover)
    (ht : s.clk.holdoverAt = some t) : exec .timeHoldoverExpired s = .next
      (if t + 600000000000 ≤ s.clk.ocxoNs + s.clk.lastLen then { s with clk := { s.clk with expired := true } } else s) := by
  change execTimeHoldoverExpired s = _
  simp [execTimeHoldoverExpired, hrun, hm, ht]

theorem exec_steppedClear {s : State} {n : Nat} (hn : s.clk.steppedUntil = some n) : exec .steppedClear s =
    .next (if n ≤ s.clk.tick + 1 then { s with clk := { s.clk with steppedUntil := none } } else s) := by
  change execSteppedClear s = _
  simp only [execSteppedClear, hn]

/-- R616: an MMC that serves requests sends the response to TOD_ARM. -/
theorem State.answerTod_serving {s : State} (h : s.mmc.state = .serving) (code : Nat) :
    s.answerTod code = { s with mmc := { s.mmc with
      response := some { smbus := true, msgType := 0x7E, command := 0x01, code := code, data := [] } } } := by
  simp [State.answerTod, h]

section
variable {i : AfterEdgeIn} {s : State} {a : Armed} (ha : s.clk.armed = some a)
include ha

theorem exec_noReference_early (h : s.clk.ocxoNs + s.clk.timed i.afterEdgeNs < a.atNs + 1000002000) :
    exec (.noReference i) s = .next s := by
  change execNoReference i s = _
  simp only [execNoReference, ha, if_neg (Nat.not_le.mpr h)]

variable (h : a.atNs + 1000002000 ≤ s.clk.ocxoNs + s.clk.timed i.afterEdgeNs)
include h

theorem exec_noReference_smbus (hh : a.head = none) :
    exec (.noReference i) s = .next (({ s with clk := { s.clk with armed := none } } : State).answerTod 4) := by
  change execNoReference i s = _
  simp only [execNoReference, ha, if_pos h, hh, Option.isNone_none, if_true]

theorem exec_noReference_timeSet {g : CmdHead} {w : Work} (hh : a.head = some g) (hw : s.timeSetWork? (some g) = some w) :
    exec (.noReference i) s =
      .next (({ s with clk := { s.clk with armed := none } } : State).finishWork w (failWith .noReference)) := by
  have hw' : ({ s with clk := { s.clk with armed := none } } : State).timeSetWork? (some g) = some w := hw
  change execNoReference i s = _
  simp only [execNoReference, ha, if_pos h, hh, Option.isNone_some, hw']
  rfl

end

/-- Settles O11. -/
theorem timeLimitsEnd : Obligations.TimeLimitsEnd := by
  unfold Obligations.TimeLimitsEnd
  refine ⟨fun s t hrun hm ht => ?holdover, fun s hm he hl hload hk => ?freeRun, fun s n hn => ?stepped,
    fun i s a ha => ⟨exec_noReference_early ha, fun h => ⟨fun hh hs => ?smbus, fun g w hh hw => ?timeSet⟩⟩⟩
  case holdover =>
    rw [exec_timeHoldoverExpired hrun hm ht]
    exact ⟨fun h => by rw [if_neg (by omega)], fun h => by rw [if_pos h]⟩
  case freeRun =>
    have hu : s.timeCommit = ({ s with clk := s.clk.leaveHoldover } : State).raiseTimeNotes .holdover := by
      rw [State.timeCommit_unloaded hload, Clock.transition_expires hm he hl hk, hm]
    have hraise := State.raiseTimeNotes_onlyRaises { s with clk := s.clk.leaveHoldover } .holdover
    have hnote : ({ code := 0x0107, value := 0 } : TimeNote) ∈ s.clk.leaveHoldover.notes :=
      List.mem_append_right _ (List.mem_singleton_self _)
    intro u
    rw [show u = s.timeCommit from rfl, hu]
    refine ⟨by rw [hraise.clk_eq]; rfl, by rw [hraise.clk_eq]; rfl, by rw [hraise.clk_eq]; rfl, fun ht => ?uncertainty,
      fun f hf => ?event, by rw [hraise.rest], by rw [hraise.rest], by rw [hraise.rest], by rw [hraise.rest],
      by rw [hraise.rest], by rw [hraise.rest], by rw [hraise.rest]⟩
    case uncertainty =>
      rw [hraise.clk_eq]
      exact Clock.uDev_leaveHoldover hm ht
    case event =>
      exact State.raiseTimeNotes_raised (s := { s with clk := s.clk.leaveHoldover }) hnote
        (show TimeMode.holdover ≠ .freeRun by decide) (by decide) hf
  case stepped =>
    rw [exec_steppedClear hn]
    exact ⟨fun h => by rw [if_pos h], fun h => by rw [if_neg (by omega)]⟩
  case smbus =>
    rw [exec_noReference_smbus ha h hh, State.answerTod_serving (by exact hs)]
  case timeSet =>
    rw [exec_noReference_timeSet ha h hh hw]
    rfl

end Sys2Proof.Machine
end

section
/-! TIME_SET: O12. -/

namespace Sys2Proof.Machine

section
variable {h : CmdHead} {p : TimeSetP} {s : State} (hres : rowReserved h (.timeSet p) = none)
include hres

/-- R100: TIME_SET is the PF's alone. -/
theorem State.wireFault_timeSet_vf (hf : h.fn ≠ pfFn) :
    s.wireFault h (.timeSet p) (rowReserved h (.timeSet p)) = some (failAt .notPermitted 0) := by
  have hpf : isPf h.fn = false := Bool.eq_false_iff.mpr (mt (isPf_iff _).mp hf)
  simp [State.wireFault, hres, cmdFault, pfOnly, hpf, lowerFault]

/-- R101: the value is a whole number of seconds. -/
theorem State.wireFault_timeSet_fraction (hf : h.fn = pfFn) (hv : p.nextPpsTime.toNat % 1000000000 ≠ 0) :
    s.wireFault h (.timeSet p) (rowReserved h (.timeSet p)) = some (failAt .invalidField 8) := by
  simp [State.wireFault, hres, cmdFault, pfOnly, hf, rangeFault, firstFault, hv, lowerFault]

theorem admissible_timeSet (hf : h.fn = pfFn) (hv : p.nextPpsTime.toNat % 1000000000 = 0)
    (htake : s.takesCommands h.fn = true) (hhead : s.headFault h = none) : Admissible s h (.timeSet p) := by
  refine ⟨htake, ?_, hhead⟩
  simp [State.wireFault, hres, cmdFault, pfOnly, hf, rangeFault, firstFault, hv, lowerFault]

end

/-! ### What an arming replaces (R104) -/

theorem State.supersede_none {s : State} (h : s.clk.armed = none) : s.supersede = s := by
  simp only [State.supersede, h]

theorem State.supersede_smbus {s : State} {a : Armed} (h : s.clk.armed = some a) (hh : a.head = none)
    (hs : s.mmc.state = .serving) : s.supersede = { s with mmc := { s.mmc with
      response := some { smbus := true, msgType := 0x7E, command := 0x01, code := 5, data := [] } } } := by
  simp [State.supersede, h, hh, State.answerTod_serving hs]

theorem State.supersede_timeSet {s : State} {a : Armed} {g : CmdHead} {w : Work} (h : s.clk.armed = some a)
    (hh : a.head = some g) (hw : s.timeSetWork? (some g) = some w) :
    s.supersede = s.finishNow w (failWith .superseded) := by
  simp [State.supersede, State.endTimeSet, h, hh, hw]

/-- R102: the state once TIME_SET has armed its value and begun its work, where `v` is what superseding left. -/
def State.timeSetBegun (s v : State) (h : CmdHead) (p : TimeSetP) : State :=
  { v with
    clk := { s.clk with armed := some { value := p.nextPpsTime.toNat, head := some h, atNs := s.clk.ocxoNs + s.clk.lastLen } }
    host := { v.host with works := v.host.works ++ [begun s h 0x80 .timeSet] } }

/-- An admissible TIME_SET supersedes what was armed and then waits; superseding does not touch the clock. -/
theorem exec_timeSet_arms {s v : State} {h : CmdHead} {p : TimeSetP} (ha : Admissible s h (.timeSet p))
    (hv : s.coming.supersede = v) (hclk : v.clk = s.coming.clk) :
    exec (.timeSet h p) s = .next (s.timeSetBegun v h p) := by
  change execTimeSet h p s = _
  rw [execTimeSet, ringRow_works ha rfl]
  simp only [State.beginWork, State.arm, hv, hclk, State.withHost]
  rfl

/-- Completing a work that began as a step of its own: the completion, and the work gone from those that wait. -/
theorem finishNow_completes {s : State} {w : Work} (hpos : w.pos = none) (a : Answer) :
    (s.coming.finishNow w a).clk = s.coming.clk ∧
    Completes { s with host := { s.host with works := s.host.works.erase w } } ((s.coming.finishNow w a).backTo s.clk)
      w.head w.opcode a.status a.offset a.result := by
  obtain ⟨b, hb, hfields⟩ :=
    complete_spec (s.coming.withHost { s.host with works := s.host.works.erase w }) w.head w.opcode a
  have hfin : s.coming.finishNow w a =
      (s.coming.withHost { s.host with works := s.host.works.erase w }).complete w.head w.opcode none a := by
    rw [State.finishNow, hpos]
    rfl
  rw [hfin, hb]
  exact ⟨rfl, b, a.clasp, rfl, hfields⟩

/-- Settles O12. -/
theorem timeSetArms : Obligations.TimeSetArms := by
  unfold Obligations.TimeSetArms
  intro h p s htake hres
  refine ⟨fun hf => ?vf, fun hf hv => ?fraction, fun hf hv hhead => ?armed⟩
  case vf => exact ringRow_wireFault htake (State.wireFault_timeSet_vf hres hf)
  case fraction => exact ringRow_wireFault htake (State.wireFault_timeSet_fraction hres hf hv)
  case armed =>
    have ha := admissible_timeSet hres hf hv htake hhead
    refine ⟨fun hnone => ?nothing, fun a hsome hh hs => ?smbus, fun a g w hsome hh hw hpos => ?timeSet⟩
    case nothing =>
      exact exec_timeSet_arms (v := s.coming) ha (State.supersede_none hnone) rfl
    case smbus =>
      exact exec_timeSet_arms ha (State.supersede_smbus (s := s.coming) hsome hh hs) rfl
    case timeSet =>
      obtain ⟨hclk, hdone⟩ := finishNow_completes (s := s) hpos (failWith .superseded)
      have hexec := exec_timeSet_arms ha (State.supersede_timeSet hsome hh hw) hclk
      exact ⟨_, _, hexec, hdone, rfl⟩

end Sys2Proof.Machine
end

section
/-! Writes and reads of BAR0: O34. -/

namespace Sys2Proof.Machine

/-! ### The two dwords of a 64-bit register -/

/-- Replacing both halves of a 64-bit register leaves nothing of its old value. -/
theorem setHalf_setHalf (old v : U64) :
    setHalf (setHalf old false (v.toNat % 2 ^ 32)) true (v.toNat / 2 ^ 32) = v := by
  have hv := v.isLt
  apply BitVec.eq_of_toNat_eq
  simp only [setHalf, bitsOf, Bool.false_eq_true, if_false, if_true, BitVec.toNat_ofNat, Nat.shiftRight_eq_div_pow]
  omega

/-- The address field of a window register after both its dwords are written, `bits` of them in the upper one: the value
written, its low 12 bits 0 (Table 5.11). -/
theorem address_halves (old v bits : Nat) :
    (old / 2 ^ 32 * 2 ^ 32 + v % 2 ^ 32 / 4096 * 4096 % 2 ^ 32) % 2 ^ 32 + 2 ^ 32 * (v / 2 ^ 32 % 2 ^ bits) =
      v % 2 ^ (32 + bits) / 4096 * 4096 := by
  rw [Nat.pow_add 2 32 bits, Nat.mod_mul]
  generalize v / 2 ^ 32 % 2 ^ bits = upper
  omega

/-- Bits [4:0] of a register (R7). -/
theorem bitsOf_four_zero (v : Nat) : bitsOf v 4 0 = v % 32 := rfl

/-! ### Function set-up registers that are not locked (Tables 5.5 to 5.9) -/

theorem FnState.rwl_unsealed {x : FnState} (hs : x.sealed = false) (g : FnState → FnState) : x.rwl g = g x := by
  simp [FnState.rwl, hs]

theorem FnState.writeReg_control_unsealed {x : FnState} (hs : x.sealed = false) (v due : Nat) :
    x.writeReg 0x010 v due =
      { x with hbEnable := bitOf v 1, sealDue := if bitOf v 0 && x.sealDue.isNone then some due else x.sealDue } := by
  simp only [FnState.writeReg, FnState.rwl_unsealed hs]
  split <;> rfl

theorem FnState.writeReg_adminRingSize {x : FnState} (hs : x.sealed = false) (v due : Nat) :
    x.writeReg 0x020 v due = { x with adminRingSize := v % 32 } := by
  simp only [FnState.writeReg, FnState.rwl_unsealed hs, bitsOf_four_zero]

theorem FnState.writeReg_eventRingSize {x : FnState} (hs : x.sealed = false) (v due : Nat) :
    x.writeReg 0x038 v due = { x with eventRingSize := v % 32 } := by
  simp only [FnState.writeReg, FnState.rwl_unsealed hs, bitsOf_four_zero]

/-- An 8-byte write to the function set-up registers, as the two dwords it is made of (R169). -/
def FnState.writeReg64 (x : FnState) (off : Nat) (v : U64) (due : Nat) : FnState :=
  (x.writeReg off (v.toNat % 2 ^ 32) due).writeReg (off + 4) (v.toNat / 2 ^ 32) due

section
variable {x : FnState} (hs : x.sealed = false) (v : U64) (due : Nat)
include hs

theorem FnState.writeReg64_adminSqBase : x.writeReg64 0x018 v due = { x with adminSqBase := v } := by
  simp only [FnState.writeReg64, FnState.writeReg, FnState.rwl, hs, Bool.false_eq_true, if_false, setHalf_setHalf]

theorem FnState.writeReg64_adminCqBase : x.writeReg64 0x028 v due = { x with adminCqBase := v } := by
  simp only [FnState.writeReg64, FnState.writeReg, FnState.rwl, hs, Bool.false_eq_true, if_false, setHalf_setHalf]

theorem FnState.writeReg64_eventRingBase : x.writeReg64 0x030 v due = { x with eventRingBase := v } := by
  simp only [FnState.writeReg64, FnState.writeReg, FnState.rwl, hs, Bool.false_eq_true, if_false, setHalf_setHalf]

theorem FnState.writeReg64_heartbeatAddr : x.writeReg64 0x040 v due = { x with heartbeatAddr := v } := by
  simp only [FnState.writeReg64, FnState.writeReg, FnState.rwl, hs, Bool.false_eq_true, if_false, setHalf_setHalf]

end

/-! ### Windows that are not locked (Table 5.11) -/

/-- An 8-byte write to a window register file, as the two dwords it is made of (R169). -/
def Window.writeReg64 (x : Window) (off v : Nat) : Window := (x.writeReg off (v % 2 ^ 32)).writeReg (off + 4) (v / 2 ^ 32)

theorem Window.writeReg64_taBase (x : Window) (v : Nat) :
    x.writeReg64 0x00 v = { x with taBase := v % 2 ^ 48 / 4096 * 4096 } := by
  simp only [Window.writeReg64, Window.writeReg, address_halves x.taBase v 16]

theorem Window.writeReg64_size (x : Window) (v : Nat) :
    x.writeReg64 0x08 v = { x with size := v % 2 ^ 48 / 4096 * 4096 } := by
  simp only [Window.writeReg64, Window.writeReg, address_halves x.size v 16]

theorem Window.writeReg64_hostBase (x : Window) (v : U64) :
    x.writeReg64 0x10 v.toNat = { x with hostBase := v.toNat / 4096 * 4096 } := by
  simp only [Window.writeReg64, Window.writeReg, address_halves x.hostBase v.toNat 32, Nat.mod_eq_of_lt v.isLt]

/-- The state with a window of a tenant replaced. -/
def State.putWindow (s : State) (t : Tenant) (w : Fin 8) (x : Window) : State :=
  { s with host := { s.host with windows := s.host.windows.set (8 * t.val + w.val) x (by omega) } }

@[simp] theorem State.window_putWindow (s : State) (t : Tenant) (w : Fin 8) (x : Window) :
    (s.putWindow t w x).window t w = x :=
  vget_set_self s.host.windows ⟨8 * t.val + w.val, by omega⟩ x

@[simp] theorem State.putWindow_putWindow (s : State) (t : Tenant) (w : Fin 8) (x y : Window) :
    (s.putWindow t w x).putWindow t w y = s.putWindow t w y := by
  simp only [State.putWindow, Vector.set_set]

theorem State.windowsLocked_putWindow (s : State) (t u : Tenant) (w : Fin 8) (x : Window) :
    (s.putWindow t w x).windowsLocked u = s.windowsLocked u := rfl

/-- Offset of a register of window `w` of tenant `t` in the module set-up registers (Table 5.11). -/
def windowOff (t : Tenant) (w : Fin 8) (off : Nat) : Nat := 0x100 + 0x100 * t.val + 0x20 * w.val + off

theorem windowOff_lt (t : Tenant) (w : Fin 8) {off : Nat} (h : off < 0x20) : windowOff t w off < 0x1100 := by
  unfold windowOff
  omega

/-- The file a window register stands in, and its offset there. -/
theorem windowOff_place (t : Tenant) (w : Fin 8) {off : Nat} (h : off < 0x20) :
    (windowOff t w off - 0x100) / 0x100 = t.val ∧ windowOff t w off % 0x100 / 0x20 = w.val ∧
      windowOff t w off % 0x20 = off := by
  unfold windowOff
  omega

theorem State.writeModuleReg_window {s : State} {t : Tenant} (hl : s.windowsLocked t = false) (w : Fin 8) {off : Nat}
    (h : off < 0x1C) (v due : Nat) :
    s.writeModuleReg (windowOff t w off) v due = s.putWindow t w ((s.window t w).writeReg off v) := by
  obtain ⟨htenant, hwindow, hreg⟩ := windowOff_place t w (off := off) (by omega)
  have hlt := windowOff_lt t w (off := off) (by omega)
  have hge : 0x100 ≤ windowOff t w off := by unfold windowOff; omega
  have hk : 8 * t.val + w.val < 128 := by omega
  rw [State.writeModuleReg, if_neg (by omega), if_neg (by omega), dif_pos ⟨hge, hlt⟩]
  simp only [htenant, hwindow, hreg, Fin.eta, hl, if_neg (show ¬ 0x1C ≤ off by omega), Bool.false_eq_true, if_false,
    dif_pos hk]
  rfl

/-! ### The MSI-X table (R167, R173) -/

theorem vectorsOf_le (f : Fn) : vectorsOf f ≤ 256 := by
  unfold vectorsOf
  split <;> omega

theorem State.writeBar0_msix (s : State) (f : Fn) {off : Nat} (h : off < 0x1000) (v due : Nat) :
    s.writeBar0 f (0x8000 + off) v due = s.writeMsix f off v := by
  rw [State.writeBar0, if_neg (by omega), if_neg (by omega), if_neg (by simp), if_pos (by simp; omega),
    Nat.add_sub_cancel_left]

theorem State.writeMsix_data {s : State} {f : Fn} {n : Nat} (hn : n < vectorsOf f) (v : Nat) :
    s.writeMsix f (16 * n + 8) v =
      s.modFn f (fun x => x.setMsix { (s.fnSt f).msixOf n with data := BitVec.ofNat 32 v }) := by
  have hentry : (16 * n + 8) / 16 = n := by omega
  have hfield : (16 * n + 8) % 16 = 8 := by omega
  simp only [State.writeMsix, hentry, hfield, Nat.not_le.mpr hn, if_false]

theorem State.writeMsix_control {s : State} {f : Fn} {n : Nat} (hn : n < vectorsOf f) (v : Nat) :
    s.writeMsix f (16 * n + 12) v =
      if bitOf v 0 then s.modFn f (fun x => x.setMsix { (s.fnSt f).msixOf n with masked := true }) else s.unmask f n := by
  have hentry : (16 * n + 12) / 16 = n := by omega
  have hfield : (16 * n + 12) % 16 = 12 := by omega
  simp only [State.writeMsix, hentry, hfield, Nat.not_le.mpr hn, if_false]

theorem exec_msixUnmask_unmasks {s : State} {f : Fn} {n : Nat} (hopen : s.barOpen f = true) (hn : n < vectorsOf f) :
    exec (.msixUnmask ⟨f, n⟩) s = .next (s.unmask f n) := by
  change execMsixUnmask ⟨f, n⟩ s = _
  simp [execMsixUnmask, hopen, hn]

/-! ### REGISTER_WRITE where nothing is locked -/

/-- Below the set-up registers stands the Hallmark range, and from the pending-bit array on nothing is written (R123,
R168). -/
theorem State.writeBar0_ignored (s : State) (f : Fn) {off : Nat} (h : off < 0x4000 ∨ 0x9000 ≤ off) (v due : Nat) :
    s.writeBar0 f off v due = s := by
  rcases h with h | h
  · rw [State.writeBar0, if_pos h]
  · rw [State.writeBar0, if_neg (by omega), if_neg (by omega), if_neg (by simp; omega), if_neg (by simp; omega)]

theorem State.logWrite_poisoned {s : State} {f : Fn} (hopen : s.barOpen f = true) :
    s.logWrite f true = s.logError f aerPoisoned := by
  simp only [State.barOpen, Bool.and_eq_true] at hopen
  obtain ⟨⟨hlink, hbar⟩, -⟩ := hopen
  simp [State.logWrite, hlink, hbar]

section
variable {i : RegWriteIn} {s : State} (hopen : s.barOpen i.fn = true)
include hopen

theorem exec_registerWrite_poisoned (hp : i.poisoned = true) :
    exec (.registerWrite i) s = .next (s.logError i.fn aerPoisoned) := by
  change execRegisterWrite i s = _
  simp [execRegisterWrite, hp, State.logWrite_poisoned hopen]

variable (hp : i.poisoned = false)
include hp

/-- R13, R169: a naturally aligned write of 4 bytes is one dword. -/
theorem exec_registerWrite_dword (hsize : i.size = 4) (ha : i.offset.toNat % 4 = 0) :
    exec (.registerWrite i) s =
      .next (s.writeBar0 i.fn i.offset.toNat (i.value.toNat % 2 ^ 32) (s.rwcDue i.toEdgeNs)) := by
  change execRegisterWrite i s = _
  simp [execRegisterWrite, hopen, hp, hsize, ha, -Nat.reducePow]

/-- R13, R169: a naturally aligned write of 8 bytes is two dwords, the lower one first. -/
theorem exec_registerWrite_qword (hsize : i.size = 8) (ha : i.offset.toNat % 8 = 0) :
    exec (.registerWrite i) s =
      .next ((s.writeBar0 i.fn i.offset.toNat (i.value.toNat % 2 ^ 32) (s.rwcDue i.toEdgeNs)).writeBar0 i.fn
        (i.offset.toNat + 4) (i.value.toNat / 2 ^ 32) (s.rwcDue i.toEdgeNs)) := by
  change execRegisterWrite i s = _
  simp [execRegisterWrite, hopen, hp, hsize, ha, -Nat.reducePow]

theorem exec_registerWrite_unacted (h4 : ¬ (i.size = 4 ∧ i.offset.toNat % 4 = 0))
    (h8 : ¬ (i.size = 8 ∧ i.offset.toNat % 8 = 0)) : exec (.registerWrite i) s = .next s := by
  change execRegisterWrite i s = _
  simp [execRegisterWrite, hopen, hp, h4, h8]

/-- R11, R13, R123, R168, R169: the writes that change nothing. -/
theorem exec_registerWrite_ignored (h : (i.size ≠ 4 ∧ i.size ≠ 8) ∨ i.offset.toNat % i.size ≠ 0 ∨
    i.offset.toNat + i.size ≤ 0x4000 ∨ 0x9000 ≤ i.offset.toNat) : exec (.registerWrite i) s = .next s := by
  by_cases h4 : i.size = 4 ∧ i.offset.toNat % 4 = 0
  · obtain ⟨hsize, ha⟩ := h4
    rw [exec_registerWrite_dword hopen hp hsize ha, State.writeBar0_ignored _ _ (by rw [hsize] at h; omega)]
  by_cases h8 : i.size = 8 ∧ i.offset.toNat % 8 = 0
  · obtain ⟨hsize, ha⟩ := h8
    rw [hsize] at h
    rw [exec_registerWrite_qword hopen hp hsize ha, State.writeBar0_ignored s _ (by omega),
      State.writeBar0_ignored _ _ (by omega)]
  · exact exec_registerWrite_unacted hopen hp h4 h8

/-- A 4-byte write to a function set-up register. -/
theorem exec_registerWrite_setup (hsize : i.size = 4) {off : Nat} (hoff : i.offset.toNat = 0x4000 + off)
    {g : FnState → FnState} (hg : (s.fnSt i.fn).writeReg off (i.value.toNat % 2 ^ 32) (s.rwcDue i.toEdgeNs) = g (s.fnSt i.fn))
    (hlt : off < 0x1000 := by omega) (ha : off % 4 = 0 := by omega) :
    exec (.registerWrite i) s = .next (s.modFn i.fn g) := by
  rw [exec_registerWrite_dword hopen hp hsize (by omega), hoff, State.writeBar0_setup s _ hlt, State.modFn_congr hg]

/-- An 8-byte write to a function set-up register. -/
theorem exec_registerWrite_setup64 (hsize : i.size = 8) {off : Nat} (hoff : i.offset.toNat = 0x4000 + off)
    {g : FnState → FnState} (hg : (s.fnSt i.fn).writeReg64 off i.value (s.rwcDue i.toEdgeNs) = g (s.fnSt i.fn))
    (hlt : off < 0x0FFC := by omega) (ha : off % 8 = 0 := by omega) :
    exec (.registerWrite i) s = .next (s.modFn i.fn g) := by
  rw [exec_registerWrite_qword hopen hp hsize (by omega), hoff, Nat.add_assoc, State.writeBar0_setup s _ (by omega),
    State.writeBar0_setup _ _ (by omega), State.modFn_modFn]
  exact congrArg Host.Outcome.next (State.modFn_congr hg)

/-- A 4-byte write of the PF to a module set-up register. -/
theorem exec_registerWrite_module (hf : i.fn = pfFn) (hsize : i.size = 4) {off : Nat} (hoff : i.offset.toNat = 0x6000 + off)
    (hlt : off < 0x2000 := by omega) (ha : off % 4 = 0 := by omega) :
    exec (.registerWrite i) s = .next (s.writeModuleReg off (i.value.toNat % 2 ^ 32) (s.rwcDue i.toEdgeNs)) := by
  rw [exec_registerWrite_dword hopen hp hsize (by omega), hf, hoff, State.writeBar0_module s hlt]

section
variable (hf : i.fn = pfFn) {t : Tenant} (hl : s.windowsLocked t = false) (w : Fin 8)
include hf hl

/-- An 8-byte write of the PF to a register of a window that is not locked. -/
theorem exec_registerWrite_window64 (hsize : i.size = 8) {off : Nat} (hoff : i.offset.toNat = 0x6000 + windowOff t w off)
    {x : Window} (hx : (s.window t w).writeReg64 off i.value.toNat = x)
    (hlt : off < 0x18 := by omega) (ha : off % 8 = 0 := by omega) :
    exec (.registerWrite i) s = .next (s.putWindow t w x) := by
  have hbound := windowOff_lt t w (off := off + 4) (by omega)
  have hnext : windowOff t w off + 4 = windowOff t w (off + 4) := rfl
  have halign : i.offset.toNat % 8 = 0 := by rw [hoff, windowOff]; omega
  rw [exec_registerWrite_qword hopen hp hsize halign, hf, hoff, Nat.add_assoc, hnext, State.writeBar0_module s (by omega),
    State.writeBar0_module _ (by omega), State.writeModuleReg_window hl w (by omega),
    State.writeModuleReg_window (by rw [State.windowsLocked_putWindow, hl]) w (by omega), State.window_putWindow,
    State.putWindow_putWindow, ← hx, Window.writeReg64]

/-- A 4-byte write of the PF to a register of a window that is not locked. -/
theorem exec_registerWrite_window (hsize : i.size = 4) {off : Nat} (hoff : i.offset.toNat = 0x6000 + windowOff t w off)
    (hlt : off < 0x1C := by omega) (ha : off % 4 = 0 := by omega) :
    exec (.registerWrite i) s = .next (s.putWindow t w ((s.window t w).writeReg off (i.value.toNat % 2 ^ 32))) := by
  have hbound := windowOff_lt t w (off := off) (by omega)
  rw [exec_registerWrite_module hopen hp hf hsize hoff (by omega) (by unfold windowOff; omega),
    State.writeModuleReg_window hl w hlt]

end

/-- A 4-byte write to the entry of a vector in the MSI-X table. -/
theorem exec_registerWrite_msix (hsize : i.size = 4) {n : Nat} (hn : n < vectorsOf i.fn) {field : Nat}
    (hoff : i.offset.toNat = 0x8000 + (16 * n + field)) (hlt : field < 16 := by omega) (ha : field % 4 = 0 := by omega) :
    exec (.registerWrite i) s = .next (s.writeMsix i.fn (16 * n + field) (i.value.toNat % 2 ^ 32)) := by
  have hcount := vectorsOf_le i.fn
  rw [exec_registerWrite_dword hopen hp hsize (by omega), hoff, State.writeBar0_msix s _ (by omega)]

/-- Message data of an MSI-X entry. -/
theorem exec_registerWrite_msixData (hsize : i.size = 4) {n : Nat} (hn : n < vectorsOf i.fn)
    (hoff : i.offset.toNat = 0x8008 + 16 * n) : exec (.registerWrite i) s =
      .next (s.modFn i.fn (fun x => x.setMsix { (s.fnSt i.fn).msixOf n with data := i.value.setWidth 32 })) := by
  have hdata : BitVec.ofNat 32 (i.value.toNat % 2 ^ 32) = i.value.setWidth 32 := BitVec.eq_of_toNat_eq (by simp)
  rw [exec_registerWrite_msix hopen hp hsize hn (field := 8) (by omega), State.writeMsix_data hn, hdata]

/-- Vector control of an MSI-X entry: its bit 0 masks the vector or unmasks it (R173). -/
theorem exec_registerWrite_msixControl (hsize : i.size = 4) {n : Nat} (hn : n < vectorsOf i.fn)
    (hoff : i.offset.toNat = 0x800C + 16 * n) : exec (.registerWrite i) s =
      .next (if bitOf (i.value.toNat % 2 ^ 32) 0 then
        s.modFn i.fn (fun x => x.setMsix { (s.fnSt i.fn).msixOf n with masked := true }) else s.unmask i.fn n) := by
  rw [exec_registerWrite_msix hopen hp hsize hn (field := 12) (by omega), State.writeMsix_control hn]

end

/-! ### What a read returns (R124, R167-R169) -/

theorem leVal_replicate_zero (n : Nat) : leVal (List.replicate n 0#8) = 0 := by
  induction n with
  | zero => rfl
  | succ n ih => simp [List.replicate_succ, leVal, ih]

/-- Beyond its end a byte string reads as 0. -/
theorem rd_beyond {bs : List Byte} {off : Nat} (h : bs.length ≤ off) (n : Nat) : rd bs off n = 0 := by
  simp [rd, sliceAt, List.drop_eq_nil_of_le h, leVal_replicate_zero]

theorem State.barRead_closed {s : State} {f : Fn} (h : s.linkAnswers = false ∨ s.barDecodes f = false) (off size : Nat) :
    s.barRead f off size = none := by
  rcases h with h | h <;> simp [State.barRead, h]

theorem State.readModuleReg_window (s : State) (t : Tenant) (w : Fin 8) {off : Nat} (h : off < 0x20) :
    s.readModuleReg (windowOff t w off) = (s.window t w).readReg off := by
  obtain ⟨htenant, hwindow, hreg⟩ := windowOff_place t w h
  have hlt := windowOff_lt t w h
  have hge : 0x100 ≤ windowOff t w off := by unfold windowOff; omega
  rw [State.readModuleReg, if_neg (by omega), if_neg (by omega), dif_pos ⟨hge, hlt⟩]
  simp only [htenant, hwindow, hreg]
  rfl

section
variable {s : State} {f : Fn} (hlink : s.linkAnswers = true) (hbar : s.barDecodes f = true)
include hlink hbar

theorem State.barRead_unaligned {off size : Nat} (h : (size ≠ 4 ∧ size ≠ 8) ∨ off % size ≠ 0) :
    s.barRead f off size = some 0 := by
  have h8 : ¬ (size = 8 ∧ off % 8 = 0) := by rintro ⟨rfl, h0⟩; omega
  have h4 : ¬ (size = 4 ∧ off % 4 = 0) := by rintro ⟨rfl, h0⟩; omega
  simp [State.barRead, hlink, hbar, h8, h4]

theorem State.barRead_qword {off : Nat} (ha : off % 8 = 0) : s.barRead f off 8 = some (s.readBar0 f off) := by
  simp [State.barRead, hlink, hbar, ha]

theorem State.barRead_hallmark {off : Nat} (ha : off % 8 = 0) (h : off < 0x4000) :
    s.barRead f off 8 = some (rd ((s.host.views.get f).bytes (viewCode f)) off 8) := by
  rw [State.barRead_qword hlink hbar ha, State.readBar0, if_pos h]

theorem State.barRead_setup {off : Nat} (ha : off % 8 = 0 := by omega) (h : off < 0x1000 := by omega) :
    s.barRead f (0x4000 + off) 8 = some (s.readFnReg f off) := by
  rw [State.barRead_qword hlink hbar (by omega), State.readBar0, if_neg (by omega), if_pos (by omega),
    Nat.add_sub_cancel_left]

theorem State.barRead_module (hf : f = pfFn) {off : Nat} (ha : off % 8 = 0 := by omega) (h : off < 0x2000 := by omega) :
    s.barRead f (0x6000 + off) 8 = some (s.readModuleReg off) := by
  rw [State.barRead_qword hlink hbar (by omega), State.readBar0, if_neg (by omega), if_neg (by omega),
    if_pos (by simp; omega), hf, if_pos isPf_pfFn, Nat.add_sub_cancel_left]

theorem State.barRead_window (hf : f = pfFn) (t : Tenant) (w : Fin 8) {off : Nat} (ha : off % 8 = 0) (h : off < 0x20)
    {o : Nat} (ho : o = 0x6000 + windowOff t w off) : s.barRead f o 8 = some ((s.window t w).readReg off) := by
  have hbound := windowOff_lt t w h
  rw [ho, State.barRead_module hlink hbar hf (by unfold windowOff; omega) (by omega), State.readModuleReg_window s t w h]

/-- R168: no block stands between the set-up registers and those of the module, nor after the pending-bit array. -/
theorem State.barRead_uncovered {off : Nat} (ha : off % 8 = 0) (h : 0x5000 ≤ off ∧ off < 0x6000 ∨ 0xA000 ≤ off) :
    s.barRead f off 8 = some 0 := by
  rw [State.barRead_qword hlink hbar ha, State.readBar0, if_neg (by omega), if_neg (by omega), if_neg (by simp; omega),
    if_neg (by simp; omega), if_neg (by simp; omega)]

end

/-- Settles O34. A write that acts is one dword or two, each at the field its offset names; the two dwords of a 64-bit
register replace both halves of it. -/
theorem registerWritesSetTheirFields : Obligations.RegisterWritesSetTheirFields := by
  unfold Obligations.RegisterWritesSetTheirFields
  refine ⟨fun i s hopen => ?writes, fun s f => ⟨State.barRead_closed, fun hlink hbar => ?reads⟩⟩
  case writes =>
    intro due v sets
    refine ⟨exec_registerWrite_poisoned hopen, exec_registerWrite_ignored hopen, fun hp hsize => ?dwords,
      fun hp hsize hs => ?bases, fun hp hf t w hl => ?windows, fun hp hsize n hn => ?vectors⟩
    case dwords =>
      refine ⟨fun h => ?_, fun hf h => ?_, fun hf h => ?_, fun hs => ⟨fun h => ?_, fun h => ?_, fun h => ?_⟩⟩
      · exact exec_registerWrite_setup hopen hp hsize (off := 0x008) (by rw [h]; rfl) rfl
      · exact exec_registerWrite_module hopen hp hf hsize (off := 0) (by rw [h]; rfl)
      · exact exec_registerWrite_module hopen hp hf hsize (off := 8) (by rw [h]; rfl)
      · exact exec_registerWrite_setup hopen hp hsize (off := 0x010) (by rw [h]; rfl)
          (FnState.writeReg_control_unsealed hs _ _)
      · exact exec_registerWrite_setup hopen hp hsize (off := 0x020) (by rw [h]; rfl)
          (FnState.writeReg_adminRingSize hs _ _)
      · exact exec_registerWrite_setup hopen hp hsize (off := 0x038) (by rw [h]; rfl)
          (FnState.writeReg_eventRingSize hs _ _)
    case bases =>
      refine ⟨fun h => ?_, fun h => ?_, fun h => ?_, fun h => ?_⟩
      · exact exec_registerWrite_setup64 hopen hp hsize (off := 0x018) (by rw [h]; rfl)
          (FnState.writeReg64_adminSqBase hs _ _)
      · exact exec_registerWrite_setup64 hopen hp hsize (off := 0x028) (by rw [h]; rfl)
          (FnState.writeReg64_adminCqBase hs _ _)
      · exact exec_registerWrite_setup64 hopen hp hsize (off := 0x030) (by rw [h]; rfl)
          (FnState.writeReg64_eventRingBase hs _ _)
      · exact exec_registerWrite_setup64 hopen hp hsize (off := 0x040) (by rw [h]; rfl)
          (FnState.writeReg64_heartbeatAddr hs _ _)
    case windows =>
      intro base k old puts
      refine ⟨fun hsize h => ?_, fun hsize h => ?_, fun hsize h => ?_, fun hsize h => ?_⟩
      · exact exec_registerWrite_window64 hopen hp hf hl w hsize (off := 0x00) (by rw [h, windowOff]; omega)
          (Window.writeReg64_taBase _ _)
      · exact exec_registerWrite_window64 hopen hp hf hl w hsize (off := 0x08) (by rw [h, windowOff]; omega)
          (Window.writeReg64_size _ _)
      · exact exec_registerWrite_window64 hopen hp hf hl w hsize (off := 0x10) (by rw [h, windowOff]; omega)
          (Window.writeReg64_hostBase _ _)
      · exact exec_registerWrite_window hopen hp hf hl w hsize (off := 0x18) (by rw [h, windowOff]; omega)
    case vectors =>
      refine ⟨exec_registerWrite_msixData hopen hp hsize hn, fun h hbit => ?masks, fun h hbit => ?unmasks⟩
      case masks => exact (exec_registerWrite_msixControl hopen hp hsize hn h).trans (by rw [if_pos hbit])
      case unmasks =>
        rw [exec_registerWrite_msixControl hopen hp hsize hn h, exec_msixUnmask_unmasks hopen hn,
          if_neg (by rw [hbit]; decide)]
  case reads =>
    intro table reads
    refine ⟨fun off size => State.barRead_unaligned hlink hbar, fun off ha h => ?hallmark, ?setup, fun hf => ?module⟩
    case hallmark =>
      have hread := State.barRead_hallmark hlink hbar ha h
      exact ⟨hread, fun hlen => hread.trans (congrArg some (rd_beyond hlen 8))⟩
    case setup =>
      exact ⟨State.barRead_setup hlink hbar (off := 0x018), State.barRead_setup hlink hbar (off := 0x028),
        State.barRead_setup hlink hbar (off := 0x030), State.barRead_setup hlink hbar (off := 0x040),
        State.barRead_uncovered hlink hbar (by omega) (by omega), State.barRead_uncovered hlink hbar (by omega) (by omega)⟩
    case module =>
      exact ⟨State.barRead_module hlink hbar hf (off := 0), State.barRead_module hlink hbar hf (off := 8), fun t w =>
        State.barRead_window hlink hbar hf t w (off := 0x00) (by omega) (by omega) (by unfold windowOff; omega)⟩

end Sys2Proof.Machine
end

section
/-! The functions and the tenants they serve: facts for O35 to O38. -/

namespace Sys2Proof.Machine

theorem fnOf_ne_pfFn (t : Tenant) : fnOf t ≠ pfFn := by
  revert t; decide

/-- A function is the PF's or a tenant's. -/
theorem pfFn_or_fnOf (f : Fn) : f = pfFn ∨ ∃ t, f = fnOf t := by
  revert f; decide

theorem tenantOf_eq_some {f : Fn} {t : Tenant} : tenantOf f = some t ↔ f = fnOf t := by
  revert f t; decide

theorem tenantOf_eq_none {f : Fn} : tenantOf f = none ↔ f = pfFn := by
  revert f; decide

theorem isPf_fnOf (t : Tenant) : isPf (fnOf t) = false := by
  revert t; decide

theorem bne_pfFn (f : Fn) : (f != pfFn) = !isPf f := by
  revert f; decide

end Sys2Proof.Machine
end

section
/-! SEAL: O35. -/

namespace Sys2Proof.Machine

/-! ### The checks of Table 5.10 -/

/-- Check 2 fails. -/
def State.seatUnconfigured (s : State) (f : Fn) : Bool := (tenantOf f).any (fun t => !(s.tenantSt t).configured)

/-- Check 3 fails. -/
def FnState.adminRingsUnsound (x : FnState) : Bool :=
  !(ringSizeOk x.adminRingSize && x.adminSqBase.toNat % 4096 == 0 && x.adminCqBase.toNat % 4096 == 0)

/-- Check 4 fails. -/
def FnState.eventRingUnsound (x : FnState) : Bool :=
  x.eventRingBase != 0 && !(x.eventRingBase.toNat % 4096 == 0 && ringSizeOk x.eventRingSize)

/-- Check 5 fails. -/
def FnState.heartbeatUnaligned (x : FnState) : Bool := x.hbEnable && x.heartbeatAddr.toNat % 32 != 0

/-- Check 6 fails. -/
def State.windowsOverlap (s : State) (f : Fn) : Bool := (tenantOf f).any (fun t => !windowsDisjoint (s.windowsOf t))

/-- Check 7 passes; the PF's addresses are bus addresses. -/
def State.rangesReached (s : State) (f : Fn) : Bool :=
  let x := s.fnSt f
  (tenantOf f).isNone || (s.reaches f x.adminSqBase.toNat (64 * 2 ^ x.adminRingSize) false &&
    s.reaches f x.adminCqBase.toNat (64 * 2 ^ x.adminRingSize) true &&
    (!(x.eventRingBase != 0) || s.reaches f x.eventRingBase.toNat (64 * 2 ^ x.eventRingSize) true) &&
    (!x.hbEnable || s.reaches f x.heartbeatAddr.toNat 32 true))

/-- Table 5.10: the first check that fails gives the code. -/
theorem State.sealCheck_eq (s : State) (f : Fn) : s.sealCheck f =
    if !s.isReady then 1
    else if s.seatUnconfigured f then 2
    else if (s.fnSt f).adminRingsUnsound then 3
    else if (s.fnSt f).eventRingUnsound then 4
    else if (s.fnSt f).heartbeatUnaligned then 5
    else if s.windowsOverlap f then 6
    else if s.rangesReached f then 0 else 7 := by
  unfold State.sealCheck State.seatUnconfigured State.windowsOverlap State.rangesReached
  cases tenantOf f <;> rfl

/-- No check reads whether the request has come to its commit. -/
theorem State.sealCheck_modFn_sealNow (s : State) (f : Fn) (b : Bool) :
    (s.modFn f (fun x => { x with sealNow := b })).sealCheck f = s.sealCheck f := by
  unfold State.sealCheck
  rw [State.fnSt_modFn]
  rfl

theorem State.seatUnconfigured_iff {s : State} {f : Fn} :
    s.seatUnconfigured f = true ↔ ∃ t, f = fnOf t ∧ (s.tenantSt t).configured = false := by
  simp [State.seatUnconfigured, Option.any_eq_true, tenantOf_eq_some]

theorem FnState.adminRingsUnsound_iff {x : FnState} : x.adminRingsUnsound = true ↔
    x.adminRingSize < 6 ∨ 16 < x.adminRingSize ∨ x.adminSqBase.toNat % 4096 ≠ 0 ∨ x.adminCqBase.toNat % 4096 ≠ 0 := by
  simp only [FnState.adminRingsUnsound, ringSizeOk, Bool.not_eq_true', Bool.and_eq_false_iff, decide_eq_false_iff_not, Nat.not_le,
    beq_eq_false_iff_ne, ne_eq, or_assoc]

theorem FnState.eventRingUnsound_iff {x : FnState} : x.eventRingUnsound = true ↔ x.eventRingBase ≠ 0 ∧
    (x.eventRingBase.toNat % 4096 ≠ 0 ∨ x.eventRingSize < 6 ∨ 16 < x.eventRingSize) := by
  simp only [FnState.eventRingUnsound, ringSizeOk, Bool.and_eq_true, bne_iff_ne, Bool.not_eq_true', Bool.and_eq_false_iff,
    beq_eq_false_iff_ne, decide_eq_false_iff_not, Nat.not_le]

theorem FnState.heartbeatUnaligned_iff {x : FnState} :
    x.heartbeatUnaligned = true ↔ x.hbEnable = true ∧ x.heartbeatAddr.toNat % 32 ≠ 0 := by
  simp [FnState.heartbeatUnaligned]

theorem State.windowsOverlap_iff {s : State} {f : Fn} :
    s.windowsOverlap f = true ↔ ∃ t, f = fnOf t ∧ windowsDisjoint (s.windowsOf t) = false := by
  simp [State.windowsOverlap, Option.any_eq_true, tenantOf_eq_some]

theorem State.rangesReached_iff {s : State} {f : Fn} : s.rangesReached f = true ↔ f = pfFn ∨
    s.reaches f (s.fnSt f).adminSqBase.toNat (64 * 2 ^ (s.fnSt f).adminRingSize) false = true ∧
    s.reaches f (s.fnSt f).adminCqBase.toNat (64 * 2 ^ (s.fnSt f).adminRingSize) true = true ∧
    ((s.fnSt f).eventRingBase ≠ 0 →
      s.reaches f (s.fnSt f).eventRingBase.toNat (64 * 2 ^ (s.fnSt f).eventRingSize) true = true) ∧
    ((s.fnSt f).hbEnable = true → s.reaches f (s.fnSt f).heartbeatAddr.toNat 32 true = true) := by
  simp [State.rangesReached, tenantOf_eq_none, and_assoc, Classical.or_iff_not_imp_left]

/-! ### The examination (R175, R176) -/

/-- R176: the function as its sealing leaves it. -/
def FnState.sealedAs (x : FnState) (f : Fn) : FnState :=
  { x with sealNow := false, sealed := true, windowLock := !isPf f, sealDue := none, sealError := 0, safetyEvents := 0 }

/-- R176: the state with a function sealed, its queues empty behind those that were there. -/
def State.withSealed (s : State) (f : Fn) : State :=
  (s.modFn f (fun x => x.sealedAs f)).withHost
    { (s.modFn f (fun x => x.sealedAs f)).host with queues := s.host.queues ++ (s.fnSt f).adminQueues f }

section
variable {s : State} {f : Fn} (hnow : (s.fnSt f).sealNow = true) (hs : (s.fnSt f).sealed = false)
include hnow hs

theorem State.takeSeal_examines :
    s.takeSeal f = (s.modFn f (fun x => { x with sealNow := false })).sealFn f := by
  rw [State.takeSeal, if_pos hnow]
  exact if_neg (by rw [State.fnSt_modFn]; simp [hs])

theorem State.takeSeal_refuses {code : Nat} (hcode : s.sealCheck f = code) (hne : code ≠ 0) :
    s.takeSeal f = s.modFn f (fun y => { y with sealNow := false, sealDue := none, sealError := code }) := by
  rw [State.takeSeal_examines hnow hs, State.sealFn, State.sealCheck_modFn_sealNow, hcode, if_neg hne, State.modFn_modFn]

theorem State.takeSeal_seals (hcode : s.sealCheck f = 0) : s.takeSeal f = s.withSealed f := by
  rw [State.takeSeal_examines hnow hs, State.sealFn, State.sealCheck_modFn_sealNow, hcode, if_pos rfl]
  dsimp only
  rw [State.modFn_modFn, State.fnSt_modFn]
  rfl

end

theorem State.fnSt_withSealed (s : State) (f : Fn) : (s.withSealed f).fnSt f = (s.fnSt f).sealedAs f :=
  State.fnSt_modFn s f (fun x => x.sealedAs f)

theorem State.fnSt_withSealed_ne (s : State) {f g : Fn} (h : g ≠ f) : (s.withSealed f).fnSt g = s.fnSt g :=
  State.fnSt_modFn_ne s (fun x => x.sealedAs f) h

/-! ### SEAL (R175) -/

/-- A request on a function in no reset goes to the coming commit when it is due by then. -/
theorem exec_sealRow {i : FnIn} {s : State} {due : Nat} (hd : s.dead = false) (hb : (s.fnSt i.fn).resetBusy = false)
    (hdue : (s.fnSt i.fn).sealDue = some due) : exec (.sealRow i) s =
      .next (if due ≤ s.clk.tick + 1 then s.modFn i.fn (fun x => { x with sealNow := true }) else s) := by
  change execSeal i s = _
  simp [execSeal, hd, hb, hdue]

/-- Settles O35. The examination is `sealCheck`, whose code is the first check of Table 5.10 that fails; a code other than 0
refuses the request and 0 seals. -/
theorem sealExaminesTheRequest : Obligations.SealExaminesTheRequest := by
  unfold Obligations.SealExaminesTheRequest
  refine ⟨fun i s due hd hb hdue => ?goes, fun f s hnow hs => ?examined⟩
  case goes =>
    rw [exec_sealRow hd hb hdue]
    exact ⟨fun h => by rw [if_pos h], fun h => by rw [if_neg (by omega)]⟩
  case examined =>
    intro x fails
    have refused : ∀ {code}, s.sealCheck f = code → code ≠ 0 → fails code := State.takeSeal_refuses hnow hs
    have first := s.sealCheck_eq f
    rw [show s.fnSt f = x from rfl] at first
    refine ⟨fun hready => refused (first.trans (if_pos (by simp [hready]))) (by decide), fun hready => ?_⟩
    rw [if_neg (by simp [hready])] at first
    refine ⟨fun t hf hc => refused (first.trans (if_pos (State.seatUnconfigured_iff.mpr ⟨t, hf, hc⟩))) (by decide),
      fun hseat => ?_⟩
    rw [if_neg (by simpa [State.seatUnconfigured_iff] using hseat)] at first
    refine ⟨fun hbad => refused (first.trans (if_pos (FnState.adminRingsUnsound_iff.mpr hbad))) (by decide),
      fun hlo hhi hsq hcq => ?_⟩
    rw [if_neg (by rw [FnState.adminRingsUnsound_iff]; omega)] at first
    refine ⟨fun hbase hbad => refused (first.trans (if_pos (FnState.eventRingUnsound_iff.mpr ⟨hbase, hbad⟩))) (by decide),
      fun hevent => ?_⟩
    have hsound : ¬ x.eventRingUnsound = true := by
      rw [FnState.eventRingUnsound_iff]
      rintro ⟨hbase, hbad⟩
      have hsizes := hevent.resolve_left hbase
      omega
    rw [if_neg hsound] at first
    refine ⟨fun hen hbad => refused (first.trans (if_pos (FnState.heartbeatUnaligned_iff.mpr ⟨hen, hbad⟩))) (by decide),
      fun hbeat => ?_⟩
    rw [if_neg (by rw [FnState.heartbeatUnaligned_iff]; exact fun h => h.2 (hbeat h.1))] at first
    refine ⟨fun t hf hw => refused (first.trans (if_pos (State.windowsOverlap_iff.mpr ⟨t, hf, hw⟩))) (by decide),
      fun hapart => ?_⟩
    rw [if_neg (by simpa [State.windowsOverlap_iff] using hapart)] at first
    refine ⟨fun hf hbad => refused (first.trans (if_neg ?unreached)) (by decide), fun hreach => ?sealed⟩
    case unreached =>
      rw [State.rangesReached_iff, or_iff_right hf]
      rintro ⟨hsqReached, hcqReached, -, -⟩
      exact hbad.elim (ne_true_of_eq_false · hsqReached) (ne_true_of_eq_false · hcqReached)
    case sealed =>
      have hseals := State.takeSeal_seals hnow hs (first.trans (if_pos (State.rangesReached_iff.mpr hreach)))
      have hself : (s.takeSeal f).fnSt f = x.sealedAs f := by rw [hseals, State.fnSt_withSealed]
      refine ⟨by rw [hself]; rfl, by rw [hself]; rfl, by rw [hself]; rfl, by rw [hself]; rfl, fun g hg => ?_, ?_⟩
      · rw [hseals, State.fnSt_withSealed_ne s hg]
      · rw [hseals]
        rfl

end Sys2Proof.Machine
end

section
/-! MSI-X, the enables of a function and the link: O36. -/

namespace Sys2Proof.Machine

/-! ### Messages owed to the next commit (R173, R187) -/

/-- From `s` to `t` messages join those the issue step owes, and nothing else changes. -/
structure OnlyOwes (s t : State) : Prop where
  rest : t = { s with host := { s.host with owedMsix := t.host.owedMsix } }
  grows : ∀ m ∈ s.host.owedMsix, m ∈ t.host.owedMsix

theorem OnlyOwes.refl (s : State) : OnlyOwes s s := ⟨rfl, fun _ h => h⟩

theorem OnlyOwes.trans {s t u : State} (h : OnlyOwes s t) (k : OnlyOwes t u) : OnlyOwes s u :=
  ⟨by rw [k.rest, h.rest], fun m hm => k.grows m (h.grows m hm)⟩

theorem State.oweMsix_onlyOwes (s : State) (f : Fn) (v : Nat) : OnlyOwes s (s.oweMsix f (some v)) := by
  unfold State.oweMsix
  dsimp only
  split
  · exact .refl s
  · exact ⟨rfl, fun m hm => List.mem_append_left _ hm⟩

theorem State.mem_oweMsix (s : State) (f : Fn) (v : Nat) : (f, v) ∈ (s.oweMsix f (some v)).host.owedMsix := by
  unfold State.oweMsix
  dsimp only
  split
  next h => exact List.contains_iff_mem.mp h
  next => exact List.mem_append_right _ (List.mem_singleton_self _)

theorem OnlyOwes.fnSt_eq {s t : State} (h : OnlyOwes s t) (f : Fn) : t.fnSt f = s.fnSt f := by rw [h.rest]; rfl

/-- The messages of several vectors of a function are owed. -/
theorem State.oweAll (f : Fn) (es : List MsixEntry) (s : State) :
    OnlyOwes s (es.foldl (fun s e => s.oweMsix f (some e.vector)) s) ∧
      ∀ e ∈ es, (f, e.vector) ∈ (es.foldl (fun s e => s.oweMsix f (some e.vector)) s).host.owedMsix := by
  induction es generalizing s with
  | nil => exact ⟨.refl s, fun e he => nomatch he⟩
  | cons x es ih =>
    obtain ⟨howes, hmem⟩ := ih (s.oweMsix f (some x.vector))
    refine ⟨(s.oweMsix_onlyOwes f x.vector).trans howes, fun e he => ?_⟩
    rcases List.mem_cons.mp he with rfl | he
    · exact howes.grows _ (s.mem_oweMsix f e.vector)
    · exact hmem e he

theorem State.owePending_onlyOwes (s : State) (f : Fn) : OnlyOwes s (s.owePending f) := by
  unfold State.owePending
  dsimp only
  split
  · exact (State.oweAll f _ s).1
  · exact .refl s

theorem State.mem_owePending {s : State} {f : Fn} (hbus : (s.fnSt f).busMaster = true) (hmsix : (s.fnSt f).msixEnable = true)
    {e : MsixEntry} (he : e ∈ (s.fnSt f).msix) (hp : e.pending = true) (hm : e.masked = false) :
    (f, e.vector) ∈ (s.owePending f).host.owedMsix := by
  unfold State.owePending
  rw [if_pos (by simp [hbus, hmsix])]
  exact (State.oweAll f _ s).2 e (List.mem_filter.mpr ⟨he, by simp [hp, hm]⟩)

/-! ### MSIX_UNMASK (R173) -/

theorem exec_msixUnmask_beyond {i : MsixUnmaskIn} {s : State} (hopen : s.barOpen i.fn = true) (h : vectorsOf i.fn ≤ i.vector) :
    exec (.msixUnmask i) s = .next s := by
  change execMsixUnmask i s = _
  simp [execMsixUnmask, hopen, Nat.not_lt.mpr h]

/-- A vector that is masked with a message pending owes it once it is unmasked. -/
theorem State.unmask_eq (s : State) (f : Fn) (v : Nat) : s.unmask f v =
    if ((s.fnSt f).msixOf v).masked && ((s.fnSt f).msixOf v).pending then
      (s.modFn f (fun x => x.setMsix { (s.fnSt f).msixOf v with masked := false })).oweMsix f (some v)
    else s.modFn f (fun x => x.setMsix { (s.fnSt f).msixOf v with masked := false }) := rfl

/-! ### BUS_MASTER_ENABLE (R187) -/

/-- The function's configuration enables as the write gives them. -/
def FnState.takeEnables (x : FnState) (i : BusMasterIn) : FnState :=
  { x with busMaster := i.enable, memEnable := i.memory, msixEnable := i.msix }

/-- Memory Space Enable of a VF implies VF Enable (log entry 6). -/
def State.takeEnables (s : State) (i : BusMasterIn) : State :=
  { s.modFn i.fn (fun x => x.takeEnables i) with
    host := { (s.modFn i.fn (fun x => x.takeEnables i)).host with vfEnable := s.host.vfEnable || (!isPf i.fn && i.memory) } }

/-- The other configuration registers of a function, as the write gives them. -/
def FnState.takeConfig (x : FnState) (c : ConfigIn) : FnState :=
  { x.clearAer c.aerClear with bar0 := c.bar0, bar2 := c.bar2, aerMask := c.aerMask, aerSeverity := c.aerSeverity }

/-- The other configuration registers, where the write names them. -/
def State.takeConfig (s : State) (i : BusMasterIn) : State :=
  match i.config with
  | some c => s.writeConfig i.fn c
  | none => s

theorem exec_busMasterEnable {i : BusMasterIn} {s : State} (hd : s.dead = false) (hup : s.boot.broughtUp = true)
    (hlink : s.host.linkUp = true) :
    exec (.busMasterEnable i) s = .next (((s.takeEnables i).takeConfig i).owePending i.fn) := by
  have henables : (if !isPf i.fn && i.memory then
      (s.modFn i.fn (fun x => x.takeEnables i)).withHost { (s.modFn i.fn (fun x => x.takeEnables i)).host with vfEnable := true }
      else s.modFn i.fn (fun x => x.takeEnables i)) = s.takeEnables i := by
    unfold State.takeEnables
    cases !isPf i.fn && i.memory
    · rw [Bool.or_false]; rfl
    · rw [Bool.or_true]; rfl
  change execBusMasterEnable i s = _
  simp only [execBusMasterEnable, hd, hup, hlink, Bool.not_true, Bool.or_false, Bool.false_eq_true, if_false]
  rw [← henables]
  rfl

theorem State.fnSt_takeEnables (s : State) (i : BusMasterIn) :
    (s.takeEnables i).fnSt i.fn = (s.fnSt i.fn).takeEnables i := State.fnSt_modFn s i.fn (fun x => x.takeEnables i)

theorem State.fnSt_takeEnables_ne (s : State) {i : BusMasterIn} {f : Fn} (h : f ≠ i.fn) :
    (s.takeEnables i).fnSt f = s.fnSt f := State.fnSt_modFn_ne s (fun x => x.takeEnables i) h

theorem State.takeConfig_none (s : State) {i : BusMasterIn} (h : i.config = none) : s.takeConfig i = s := by
  simp only [State.takeConfig, h]

theorem State.takeConfig_some (s : State) {i : BusMasterIn} {c : ConfigIn} (h : i.config = some c) :
    s.takeConfig i = s.writeConfig i.fn c := by
  simp only [State.takeConfig, h]

theorem State.fnSt_writeConfig (s : State) (f : Fn) (c : ConfigIn) :
    (s.writeConfig f c).fnSt f = (s.fnSt f).takeConfig c := by
  unfold State.writeConfig
  dsimp only
  split <;> exact State.fnSt_modFn s f (fun x => x.takeConfig c)

theorem State.fnSt_writeConfig_ne (s : State) {f g : Fn} (h : g ≠ f) (c : ConfigIn) :
    (s.writeConfig f c).fnSt g = s.fnSt g := by
  unfold State.writeConfig
  dsimp only
  split <;> exact State.fnSt_modFn_ne s (fun x => x.takeConfig c) h

/-- The configuration registers are all that the write changes. -/
theorem State.takeConfig_rest (s : State) (i : BusMasterIn) : ∃ fns b0 b2 v d, s.takeConfig i =
    { s with host := { s.host with fns := fns, vfBar0 := b0, vfBar2 := b2, timeoutValue := v, timeoutDisable := d } } := by
  unfold State.takeConfig State.writeConfig
  dsimp only
  (repeat' split) <;> exact ⟨_, _, _, _, _, rfl⟩

/-- The enables and the MSI-X table are not among those registers. -/
theorem State.fnSt_takeConfig (s : State) (i : BusMasterIn) :
    ((s.takeConfig i).fnSt i.fn).busMaster = (s.fnSt i.fn).busMaster ∧
    ((s.takeConfig i).fnSt i.fn).memEnable = (s.fnSt i.fn).memEnable ∧
    ((s.takeConfig i).fnSt i.fn).msixEnable = (s.fnSt i.fn).msixEnable ∧
    ((s.takeConfig i).fnSt i.fn).msix = (s.fnSt i.fn).msix := by
  cases hc : i.config with
  | none => rw [s.takeConfig_none hc]; exact ⟨rfl, rfl, rfl, rfl⟩
  | some c => rw [s.takeConfig_some hc, State.fnSt_writeConfig]; exact ⟨rfl, rfl, rfl, rfl⟩

theorem State.fnSt_takeConfig_ne (s : State) {i : BusMasterIn} {f : Fn} (h : f ≠ i.fn) :
    (s.takeConfig i).fnSt f = s.fnSt f := by
  cases hc : i.config with
  | none => rw [s.takeConfig_none hc]
  | some c => rw [s.takeConfig_some hc, State.fnSt_writeConfig_ne s h]

/-! ### LINK_RETRAINING (R162) -/

theorem exec_linkRetraining (i : LinkTrainIn) {s : State} (hrun : s.boot.running = true) :
    exec (.linkRetraining i) s = .next (if i.lanes ∈ [1, 2, 4, 8, 16] ∧ i.rate10 ∈ [25, 50, 80, 160, 320] then
      { s with host := { s.host with linkUp := true, retrained := some (i.lanes, i.rate10) } } else s) := by
  change execLinkRetraining i s = _
  simp only [execLinkRetraining, hrun, linkTrainOk, Bool.true_and, Bool.and_eq_true, List.contains_iff_mem]
  rfl

/-- Settles O36. A configuration write takes the enables, then the registers it names, and then owes what is pending: the three
steps touch different fields. -/
theorem configurationEventsTakeTheirValues : Obligations.ConfigurationEventsTakeTheirValues := by
  unfold Obligations.ConfigurationEventsTakeTheirValues
  refine ⟨fun i s hopen => ?unmask, fun i s hd hup hlink => ?enable, fun i s hrun => ?retrain⟩
  case unmask =>
    intro e u
    refine ⟨exec_msixUnmask_beyond hopen, fun hv hquiet => ?_, fun hv hm hp => ?_⟩
    · have hnot : ¬ (e.masked && e.pending) = true := by
        rw [Bool.and_eq_true]
        exact fun h => hquiet.elim (ne_true_of_eq_false · h.1) (ne_true_of_eq_false · h.2)
      rw [exec_msixUnmask_unmasks hopen hv, State.unmask_eq, if_neg hnot]
    · have hboth : (e.masked && e.pending) = true := by rw [hm, hp]; rfl
      rw [exec_msixUnmask_unmasks hopen hv, State.unmask_eq, if_pos hboth]
      exact ⟨_, u.mem_oweMsix i.fn i.vector, congrArg Host.Outcome.next (u.oweMsix_onlyOwes i.fn i.vector).rest⟩
  case enable =>
    have howes := ((s.takeEnables i).takeConfig i).owePending_onlyOwes i.fn
    have hself := howes.fnSt_eq i.fn
    obtain ⟨hbus, hmem, hmsix, hvectors⟩ := (s.takeEnables i).fnSt_takeConfig i
    obtain ⟨fns, b0, b2, v, d, hrest⟩ := (s.takeEnables i).takeConfig_rest i
    rw [State.fnSt_takeEnables] at hbus hmem hmsix hvectors
    refine ⟨_, exec_busMasterEnable hd hup hlink, by rw [howes.rest, hrest]; rfl, by rw [howes.rest, hrest]; rfl,
      by rw [hself, hbus]; rfl, by rw [hself, hmem]; rfl, by rw [hself, hmsix]; rfl, fun f hf => ?others, ?vfEnable,
      fun hc => ?unnamed, fun c hc => ?named, fun hen hms e he hp hm => ?owed⟩
    case others =>
      rw [howes.fnSt_eq, State.fnSt_takeConfig_ne _ hf, State.fnSt_takeEnables_ne s hf]
    case vfEnable =>
      rw [howes.rest, hrest, bne_pfFn]
      rfl
    case unnamed =>
      rw [hself, howes.rest, State.takeConfig_none _ hc, State.fnSt_takeEnables]
      exact ⟨rfl, rfl, rfl⟩
    case named =>
      rw [hself, howes.rest, State.takeConfig_some _ hc, State.fnSt_writeConfig]
      refine ⟨rfl, rfl, rfl, fun hf => ?_⟩
      rw [hf]
      exact ⟨rfl, rfl⟩
    case owed =>
      refine State.mem_owePending (hbus.trans hen) (hmsix.trans hms) ?_ hp hm
      rw [hvectors]
      exact he
  case retrain =>
    rw [exec_linkRetraining i hrun]
    exact ⟨fun hl hr => by rw [if_pos ⟨hl, hr⟩], fun h => by rw [if_neg (fun k => h.elim (· k.1) (· k.2))]⟩

end Sys2Proof.Machine
end

section
/-! The reset triggers: O37. -/

namespace Sys2Proof.Machine

/-! ### The functions a trigger resets (R188-R190, R195) -/

/-- R195: a function as a trigger leaves it. -/
def FnState.triggered (x : FnState) : FnState := if x.resetBusy then x else x.trigger

theorem FnState.triggered_busy {x : FnState} (h : x.resetBusy = true) : x.triggered = x := if_pos h

theorem FnState.triggered_idle {x : FnState} (h : x.resetBusy = false) : x.triggered = x.trigger := if_neg (by simp [h])

theorem FnState.triggered_triggered (x : FnState) : x.triggered.triggered = x.triggered := by
  cases h : x.resetBusy with
  | false => rw [FnState.triggered_idle h, FnState.triggered_busy (x := x.trigger) rfl]
  | true => rw [FnState.triggered_busy h, FnState.triggered_busy h]

theorem State.triggerOne_eq (s : State) (f : Fn) : s.triggerOne f = s.modFn f FnState.triggered := by
  unfold State.triggerOne
  split
  next h => exact (State.modFn_same (FnState.triggered_busy h)).symm
  next h => exact State.modFn_congr (FnState.triggered_idle (Bool.eq_false_iff.mpr h)).symm

/-- Triggers for several functions change the functions' own state and nothing else. -/
theorem State.triggerEach_eq (fs : List Fn) (s : State) :
    ∃ fns, fs.foldl State.triggerOne s = { s with host := { s.host with fns := fns } } := by
  induction fs generalizing s with
  | nil => exact ⟨_, rfl⟩
  | cons f fs ih =>
    obtain ⟨fns, hfns⟩ := ih (s.triggerOne f)
    rw [State.triggerOne_eq] at hfns
    exact ⟨fns, by rw [List.foldl_cons, State.triggerOne_eq, hfns]; rfl⟩

theorem State.fnSt_triggerEach (fs : List Fn) (s : State) (k : Fn) :
    (fs.foldl State.triggerOne s).fnSt k = if k ∈ fs then (s.fnSt k).triggered else s.fnSt k := by
  induction fs generalizing s with
  | nil => rfl
  | cons f fs ih =>
    rw [List.foldl_cons, State.triggerOne_eq, ih]
    by_cases hk : k = f
    · subst hk
      rw [State.fnSt_modFn, FnState.triggered_triggered, ite_self, if_pos List.mem_cons_self]
    · rw [State.fnSt_modFn_ne s _ hk]
      simp [hk]

theorem fnOf_mem_tenantFns (v : Tenant) : fnOf v ∈ allTenants.map fnOf :=
  List.mem_map_of_mem (List.mem_finRange v)

theorem pfFn_not_mem_tenantFns : pfFn ∉ allTenants.map fnOf := by decide

/-- R188: the trigger for every tenant. -/
theorem State.triggerTenants_eq (s : State) : ∃ fns : Vector FnState 17,
    s.triggerTenants = { s with host := { s.host with fns := fns } } ∧ fns.get pfFn = s.fnSt pfFn ∧
      ∀ v, fns.get (fnOf v) = (s.fnSt (fnOf v)).triggered := by
  have hfns := State.fnSt_triggerEach (allTenants.map fnOf) s
  have hpf := hfns pfFn
  rw [if_neg pfFn_not_mem_tenantFns] at hpf
  have hvf := fun v => hfns (fnOf v)
  simp only [if_pos (fnOf_mem_tenantFns _)] at hvf
  obtain ⟨fns, hrest⟩ := State.triggerEach_eq (allTenants.map fnOf) s
  rw [hrest] at hpf hvf
  exact ⟨fns, hrest, hpf, hvf⟩

/-- R190: a function whose reset begins: its set-up registers at their reset values, and nothing more issued for it. -/
def State.cleared (t : State) (f : Fn) : Prop :=
  (t.fnSt f).resetBusy = true ∧ t.mayIssue f = false ∧
    (t.fnSt f).sealed = false ∧ (t.fnSt f).sealDue = none ∧ (t.fnSt f).sealError = 0 ∧ (t.fnSt f).hbEnable = false ∧
    (t.fnSt f).adminSqBase = 0 ∧ (t.fnSt f).adminCqBase = 0 ∧ (t.fnSt f).adminRingSize = 0 ∧
    (t.fnSt f).eventRingBase = 0 ∧ (t.fnSt f).eventRingSize = 0 ∧ (t.fnSt f).heartbeatAddr = 0

theorem State.cleared_of_triggered {t : State} {f : Fn} {x : FnState} (h : t.fnSt f = x.triggered) (hidle : x.resetBusy = false) :
    t.cleared f := by
  rw [FnState.triggered_idle hidle] at h
  unfold State.cleared State.mayIssue
  rw [h]
  exact ⟨rfl, rfl, rfl, rfl, rfl, rfl, rfl, rfl, rfl, rfl, rfl, rfl⟩

/-! ### A trigger for the PF (R189, R190, R196) -/

theorem State.triggerPf_busy {s : State} (h : (s.fnSt pfFn).resetBusy = true) : s.triggerPf = s := if_pos h

/-- The PF's registers at their reset values, but AUTO_REHOME, with the functions as the trigger leaves them. -/
def State.resetPfRegisters (s : State) (fns : Vector FnState 17) : State :=
  { s with host := { s.host with
    fns := fns, vfEnable := false, vfBar0 := 0, vfBar2 := 0, timeoutValue := 0, timeoutDisable := false,
    windows := Vector.replicate 128 Window.reset, sampleAllowWritten := 0,
    sampleWrites := [{ value := 0, due := s.clk.tick + 1 }] } }

/-- A reset of the PF resets every function that is in none. -/
theorem State.triggerPf_idle {s : State} (h : (s.fnSt pfFn).resetBusy = false) :
    ∃ fns : Vector FnState 17, s.triggerPf = s.resetPfRegisters fns ∧ ∀ f, fns.get f = (s.fnSt f).triggered := by
  obtain ⟨fns, htenants, hpf, hvf⟩ := s.triggerTenants_eq
  refine ⟨fns.set pfFn.val (fns.get pfFn).triggered, ?_, fun f => ?_⟩
  · rw [State.triggerPf, if_neg (by simp [h]), State.triggerOne_eq, htenants]
    rfl
  · rcases pfFn_or_fnOf f with rfl | ⟨v, rfl⟩
    · rw [vget_set_self, hpf]
    · rw [vget_set_ne _ _ (fnOf_ne_pfFn v), hvf]

/-- The state with the PCIe link up or down. -/
def State.withLink (s : State) (up : Bool) : State := { s with host := { s.host with linkUp := up } }

theorem State.triggerPf_linkUp (s : State) : s.triggerPf.host.linkUp = s.host.linkUp := by
  cases h : (s.fnSt pfFn).resetBusy with
  | true => rw [State.triggerPf_busy h]
  | false =>
    obtain ⟨fns, hpf, -⟩ := State.triggerPf_idle h
    rw [hpf]
    rfl

/-- A trigger that is no link down leaves the link as it was. -/
theorem State.triggerPf_withLink (s : State) {i : Instr} (h : i ≠ .pcieLinkDown) :
    s.triggerPf.withLink (s.host.linkUp && i != .pcieLinkDown) = s.triggerPf := by
  rw [bne_iff_ne.mpr h, Bool.and_true, ← s.triggerPf_linkUp]
  rfl

/-! ### The rows -/

/-- The PF's triggers: an FLR, a hot reset, a link down, the entry into D3hot. -/
def triggersPf (i : Instr) : Prop := i = .flr ⟨pfFn⟩ ∨ i = .hotReset ∨ i = .pcieLinkDown ∨ i = .d3hotEntry

section
variable {s : State} (h : s.pcieUsable = true)
include h

theorem exec_flr_vf (v : Tenant) : exec (.flr ⟨fnOf v⟩) s = .next (s.modFn (fnOf v) FnState.triggered) := by
  change execFlr ⟨fnOf v⟩ s = _
  simp only [execFlr, h, isPf_fnOf, State.triggerOne_eq, Bool.not_true, Bool.false_eq_true, if_false]

theorem exec_vfEnableClear : exec .vfEnableClear s =
    .next { s.triggerTenants with host := { s.triggerTenants.host with vfEnable := false } } := by
  change execVfEnableClear s = _
  simp only [execVfEnableClear, h, Bool.not_true, Bool.false_eq_true, if_false, State.withHost]

/-- Each of the PF's triggers resets it; a link down also takes the link. -/
theorem exec_triggersPf {i : Instr} (hi : triggersPf i) :
    exec i s = .next (s.triggerPf.withLink (s.host.linkUp && i != .pcieLinkDown)) := by
  rcases hi with rfl | rfl | rfl | rfl
  · rw [s.triggerPf_withLink (by simp)]
    change execFlr ⟨pfFn⟩ s = _
    simp [execFlr, h]
  · rw [s.triggerPf_withLink (by simp)]
    change execHotReset s = _
    simp [execHotReset, h]
  · change execPcieLinkDown s = _
    simp [execPcieLinkDown, h, State.withHost, State.withLink]
  · rw [s.triggerPf_withLink (by simp)]
    change execD3hotEntry s = _
    simp [execD3hotEntry, h]

end

/-- Settles O37. Every function a trigger resets is `triggered`: as it was when its reset is in progress, else with its registers
at their reset values. -/
theorem resetTriggersActAtOnce : Obligations.ResetTriggersActAtOnce := by
  unfold Obligations.ResetTriggersActAtOnce
  intro s husable
  refine ⟨fun v => ⟨_, exec_flr_vf husable v, rfl, fun f hf => State.fnSt_modFn_ne s _ hf, fun hbusy => ?again,
    fun hidle => ?flr⟩,
    ⟨_, exec_vfEnableClear husable, ?tenants⟩, fun i hi => ⟨_, exec_triggersPf husable hi, rfl, ?pf⟩⟩
  case again => exact State.modFn_same (FnState.triggered_busy hbusy)
  case flr => exact State.cleared_of_triggered (State.fnSt_modFn s _ _) hidle
  case tenants =>
    obtain ⟨fns, htenants, hpf, hvf⟩ := s.triggerTenants_eq
    rw [htenants]
    exact ⟨rfl, hpf, fun v hidle => State.cleared_of_triggered (hvf v) hidle⟩
  case pf =>
    cases h : (s.fnSt pfFn).resetBusy with
    | true =>
      rw [State.triggerPf_busy h]
      exact ⟨rfl, rfl, rfl, fun _ => rfl, fun hidle => absurd hidle (by decide)⟩
    | false =>
      obtain ⟨fns, hpf, hfns⟩ := State.triggerPf_idle h
      rw [hpf]
      refine ⟨rfl, rfl, rfl, fun hbusy => absurd hbusy (by decide), fun _ => ?_⟩
      exact ⟨State.cleared_of_triggered (hfns pfFn) h, rfl, rfl,
        fun v hv => State.cleared_of_triggered (hfns (fnOf v)) hv⟩

end Sys2Proof.Machine
end

section
/-! The end of a reset and what no reset changes: O38. -/

namespace Sys2Proof.Machine

/-- What each step of a fold keeps, the fold keeps. -/
theorem foldl_keeps {α β γ : Type} (p : β → γ) {g : β → α → β} (hg : ∀ b a, p (g b a) = p b) (l : List α)
    (b : β) : p (l.foldl g b) = p b :=
  List.foldlRecOn (motive := fun t => p t = p b) l g rfl fun t ht a _ => (hg t a).trans ht

/-! ### What no reset changes (R197) -/

/-- The tick counter and the time unit, both copies of the ledger, and AUTO_REHOME with what was last written to it. -/
def State.sticky (s : State) : Clock × List LedgerEntry × List LedgerEntry × Bool × Bool :=
  (s.clk, s.nor.ledger0, s.nor.ledger1, s.host.autoRehome, s.host.autoRehomeWritten)

/-- `t` has the sticky part of `s`, but for what TIME_SET armed (R196, R197). -/
def KeepsSticky (s t : State) : Prop :=
  t.clk = { s.clk with armed := t.clk.armed, loaded := t.clk.loaded } ∧
    t.nor.ledger0 = s.nor.ledger0 ∧ t.nor.ledger1 = s.nor.ledger1 ∧
    t.host.autoRehome = s.host.autoRehome ∧ t.host.autoRehomeWritten = s.host.autoRehomeWritten

theorem KeepsSticky.of_sticky {s t : State} (h : t.sticky = s.sticky) : KeepsSticky s t := by
  obtain ⟨hclk, hledger0, hledger1, hauto, hwritten⟩ : t.clk = s.clk ∧ t.nor.ledger0 = s.nor.ledger0 ∧
      t.nor.ledger1 = s.nor.ledger1 ∧ t.host.autoRehome = s.host.autoRehome ∧
      t.host.autoRehomeWritten = s.host.autoRehomeWritten := by simpa [State.sticky] using h
  exact ⟨by rw [hclk], hledger0, hledger1, hauto, hwritten⟩

/-! ### The commit that begins a reset (R191) -/

theorem State.tellClosed_sticky (s : State) (x : Stream) : (s.tellClosed x).sticky = s.sticky := by
  unfold State.tellClosed
  refine foldl_keeps State.sticky (fun _ _ => ?_) _ s
  rfl

theorem State.forgetStream_sticky (s : State) (x : Stream) : (s.forgetStream x).sticky = s.sticky := rfl

theorem State.closeStreamsOf_sticky (s : State) (f : Fn) : (s.closeStreamsOf f).sticky = s.sticky := by
  unfold State.closeStreamsOf
  exact foldl_keeps State.sticky (fun s x => ((s.tellClosed x).forgetStream_sticky x).trans (s.tellClosed_sticky x)) _ s

theorem State.touchEpoch_sticky (s : State) (f : Fn) : (s.touchEpoch f).sticky = s.sticky := by
  unfold State.touchEpoch
  split <;> rfl

theorem State.unsubscribe_sticky (s : State) (t : Tenant) : (s.unsubscribe t).sticky = s.sticky := by
  unfold State.unsubscribe
  refine foldl_keeps State.sticky (fun _ x => ?_) _ s
  exact State.touchEpoch_sticky _ x.fn

theorem State.scrubTenant_sticky (s : State) (t : Tenant) : (s.scrubTenant t).sticky = s.sticky := rfl

theorem State.beginTenant_sticky (s : State) (t : Tenant) : (s.beginTenant t).sticky = s.sticky := by
  have hscrub := fun u : State => (u.unsubscribe t).scrubTenant_sticky t
  have hunsub := fun u : State => u.unsubscribe_sticky t
  unfold State.beginTenant
  exact ((hscrub _).trans (hunsub _)).trans (s.closeStreamsOf_sticky (fnOf t))

theorem State.dropFunction_sticky (s : State) (f : Fn) : (s.dropFunction f).sticky = s.sticky := rfl

/-- An update over the ring is abandoned (R196), and the ledgers are no part of it. -/
theorem State.beginReset_sticky (s : State) (f : Fn) : (s.beginReset f).sticky = s.sticky := by
  unfold State.beginReset
  split
  next t _ => exact (State.dropFunction_sticky _ f).trans (s.beginTenant_sticky t)
  next => exact State.dropFunction_sticky _ f

theorem State.beginResets_sticky (s : State) : s.beginResets.sticky = s.sticky := by
  unfold State.beginResets
  have hforget := foldl_keeps State.sticky
    (g := fun (s : State) f => s.modFn f (fun x => { x with eventHeld := [], eventDropped := 0, rejects := [] }))
    (fun _ _ => rfl) s.resetsDue
  exact (hforget _).trans (foldl_keeps State.sticky State.beginReset_sticky _ s)

/-! ### The end of a reset (R192, R194-R196) -/

/-- From `s` to `t` resets may end: the functions' own state changes, and what scrubbing and halts concern; RESET_BUSY only
clears, and a reset that has begun goes on or has ended. -/
structure EndsResets (s t : State) : Prop where
  rest : ∃ fns pools dram fab safety, t =
    { s with host := { s.host with fns := fns }, pools := pools, dram := dram, fab := fab, safety := safety }
  clears : ∀ f, (s.fnSt f).resetBusy = false → (t.fnSt f).resetBusy = false
  goesOn : ∀ f, (t.fnSt f).resetBusy = false ∨ (t.fnSt f).resetCommit = (s.fnSt f).resetCommit
  frees : ∀ b ∈ t.pools.bufs, b ∈ s.pools.bufs

theorem EndsResets.trans {s t u : State} (h : EndsResets s t) (k : EndsResets t u) : EndsResets s u where
  rest := by
    obtain ⟨_, _, _, _, _, rfl⟩ := h.rest
    obtain ⟨_, _, _, _, _, rfl⟩ := k.rest
    exact ⟨_, _, _, _, _, rfl⟩
  clears f hf := k.clears f (h.clears f hf)
  goesOn f := (h.goesOn f).elim (fun hf => .inl (k.clears f hf)) (fun hf => (k.goesOn f).imp_right (·.trans hf))
  frees b hb := h.frees b (k.frees b hb)

/-- A change that leaves every function as it was. -/
theorem EndsResets.of_fns {s t : State} (hrest : ∃ pools dram fab safety, t =
    { s with pools := pools, dram := dram, fab := fab, safety := safety }) (hbufs : ∀ b ∈ t.pools.bufs, b ∈ s.pools.bufs) :
    EndsResets s t := by
  obtain ⟨_, _, _, _, rfl⟩ := hrest
  exact ⟨⟨_, _, _, _, _, rfl⟩, fun _ h => h, fun _ => .inr rfl, hbufs⟩

theorem EndsResets.refl (s : State) : EndsResets s s := .of_fns ⟨_, _, _, _, rfl⟩ fun _ h => h

theorem EndsResets.foldl {α : Type} {g : State → α → State} (hg : ∀ s a, EndsResets s (g s a)) (l : List α) (s : State) :
    EndsResets s (l.foldl g s) :=
  List.foldlRecOn (motive := EndsResets s) l g (.refl s) fun t ht a _ => ht.trans (hg t a)

/-- A change of one function's state that keeps its reset as it is or ends it. -/
theorem State.modFn_endsResets {s : State} {f : Fn} {g : FnState → FnState}
    (hg : (g (s.fnSt f)).resetBusy = false ∨
      (g (s.fnSt f)).resetBusy = (s.fnSt f).resetBusy ∧ (g (s.fnSt f)).resetCommit = (s.fnSt f).resetCommit) :
    EndsResets s (s.modFn f g) where
  rest := ⟨_, _, _, _, _, rfl⟩
  clears k hk := by
    by_cases h : k = f
    · subst h
      rw [State.fnSt_modFn]
      exact hg.elim id fun hsame => hsame.1.trans hk
    · rw [State.fnSt_modFn_ne s g h, hk]
  goesOn k := by
    by_cases h : k = f
    · subst h
      rw [State.fnSt_modFn]
      exact hg.imp_right And.right
    · rw [State.fnSt_modFn_ne s g h]
      exact .inr rfl
  frees _ hb := hb

theorem State.raiseAll_endsResets (s : State) (fs : List Fn) (code : Nat) (d : List Byte) :
    EndsResets s (s.raiseAll fs code d) := by
  unfold State.raiseAll State.raise State.raiseFull
  exact .foldl (fun s f => State.modFn_endsResets (.inr ⟨rfl, rfl⟩)) fs s

/-- Zeroing touches DRAM and the write queues alone. -/
theorem State.zeroBuffer_eq (s : State) (b : Buffer) : ∃ d, s.zeroBuffer b = { s with dram := d } := by
  unfold State.zeroBuffer State.zeroRow
  refine List.foldlRecOn (motive := fun t => ∃ d, t = { s with dram := d }) _ _ ?_ fun t ht c _ => ?_
  · exact ⟨_, rfl⟩
  · obtain ⟨d, rfl⟩ := ht
    exact ⟨_, rfl⟩

theorem State.zeroBuffers_eq (bs : List Buffer) (s : State) : ∃ d, bs.foldl State.zeroBuffer s = { s with dram := d } :=
  List.foldlRecOn (motive := fun t => ∃ d, t = { s with dram := d }) bs _ ⟨_, rfl⟩ fun t ⟨d, ht⟩ b _ => by
    obtain ⟨d', h⟩ := t.zeroBuffer_eq b
    exact ⟨d', by rw [h, ht]⟩

/-- R192: the buffers still to be scrubbed leave the pools. -/
theorem State.endScrub_eq (s : State) (f : Fn) : ∃ d, s.endScrub f = { s with
    pools := { s.pools with
      bufs := s.pools.bufs.filter (fun b => !((s.fnSt f).scrubs.contains (bufKey b) && b.owner == .scrub)) },
    dram := d } := by
  obtain ⟨d, h⟩ := State.zeroBuffers_eq
    (s.pools.bufs.filter (fun b => (s.fnSt f).scrubs.contains (bufKey b) && b.owner == .scrub)) s
  unfold State.endScrub
  dsimp only
  rw [h]
  exact ⟨_, rfl⟩

theorem State.endScrub_endsResets (s : State) (f : Fn) : EndsResets s (s.endScrub f) := by
  obtain ⟨d, h⟩ := s.endScrub_eq f
  rw [h]
  exact .of_fns ⟨_, _, _, _, rfl⟩ fun b hb => (List.mem_filter.mp hb).1

theorem State.endScrub_scrubbed {s : State} {f : Fn} {b : Buffer} (hb : b ∈ (s.endScrub f).pools.bufs)
    (ho : b.owner = .scrub) : bufKey b ∉ (s.fnSt f).scrubs := by
  obtain ⟨d, h⟩ := s.endScrub_eq f
  rw [h] at hb
  simpa [ho] using (List.mem_filter.mp hb).2

theorem State.resume_endsResets (s : State) (h : Halt) : EndsResets s (s.resume h) := by
  unfold State.resume
  exact EndsResets.trans (.of_fns ⟨_, _, _, _, rfl⟩ fun b hb => (List.mem_filter.mp hb).1)
    (State.raiseAll_endsResets _ _ _ _)

theorem State.countReset_endsResets (s : State) (t : Tenant) (began : Nat) : EndsResets s (s.countReset t began) := by
  unfold State.countReset
  refine EndsResets.trans (t := s.withSafety _) ?_ (.foldl State.resume_endsResets _ _)
  exact .of_fns ⟨_, _, _, _, rfl⟩ fun _ hb => hb

theorem State.clearBusy_endsResets (s : State) (f : Fn) : EndsResets s (s.clearBusy f) :=
  State.modFn_endsResets (.inl rfl)

/-- The function as the end of its reset leaves it. -/
theorem State.fnSt_clearBusy (s : State) (f : Fn) : (s.clearBusy f).fnSt f =
    { s.fnSt f with resetBusy := false, resetCommit := none, scrubs := [], scrubBytes := 0 } := State.fnSt_modFn s f _

theorem State.fnSt_clearBusy_tenant (s : State) (t : Tenant) : (s.clearBusy pfFn).fnSt (fnOf t) = s.fnSt (fnOf t) :=
  State.fnSt_modFn_ne s _ (fnOf_ne_pfFn t)

/-! ### A tenant's reset ends (R194) -/

theorem State.endTenant_some {s : State} {t : Tenant} {c : Nat} (h : (s.fnSt (fnOf t)).resetCommit = some c) :
    s.endTenant t = ((s.endScrub (fnOf t)).countReset t c).clearBusy (fnOf t) := by
  simp only [State.endTenant, h]

theorem State.endTenant_none {s : State} {t : Tenant} (h : (s.fnSt (fnOf t)).resetCommit = none) : s.endTenant t = s := by
  simp only [State.endTenant, h]

theorem State.endTenant_endsResets (s : State) (t : Tenant) : EndsResets s (s.endTenant t) := by
  cases h : (s.fnSt (fnOf t)).resetCommit with
  | none => rw [State.endTenant_none h]; exact .refl s
  | some c =>
    rw [State.endTenant_some h]
    exact ((s.endScrub_endsResets _).trans (State.countReset_endsResets _ t c)).trans (State.clearBusy_endsResets _ _)

theorem State.fnSt_endTenant {s : State} {t : Tenant} {c : Nat} (h : (s.fnSt (fnOf t)).resetCommit = some c) :
    ((s.endTenant t).fnSt (fnOf t)).resetBusy = false ∧ ((s.endTenant t).fnSt (fnOf t)).resetCommit = none ∧
      ((s.endTenant t).fnSt (fnOf t)).scrubs = [] := by
  rw [State.endTenant_some h, State.fnSt_clearBusy]
  exact ⟨rfl, rfl, rfl⟩

theorem State.endTenant_scrubbed {s : State} {t : Tenant} {c : Nat} (h : (s.fnSt (fnOf t)).resetCommit = some c) {b : Buffer}
    (hb : b ∈ (s.endTenant t).pools.bufs) (ho : b.owner = .scrub) : bufKey b ∉ (s.fnSt (fnOf t)).scrubs := by
  rw [State.endTenant_some h] at hb
  exact State.endScrub_scrubbed ((State.countReset_endsResets _ t c).frees b hb) ho

/-- R195: the end of the PF's reset ends each tenant's that has begun. -/
theorem State.endTenants_clear {ts : List Tenant} {t : Tenant} (ht : t ∈ ts) {s : State}
    (h : (s.fnSt (fnOf t)).resetCommit ≠ none) : ((ts.foldl State.endTenant s).fnSt (fnOf t)).resetBusy = false := by
  induction ts generalizing s with
  | nil => nomatch ht
  | cons u ts ih =>
    have hrest := EndsResets.foldl State.endTenant_endsResets ts (s.endTenant u)
    rcases List.mem_cons.mp ht with rfl | hmem
    · obtain ⟨c, hc⟩ := Option.ne_none_iff_exists'.mp h
      exact hrest.clears _ (State.fnSt_endTenant hc).1
    · exact ((s.endTenant_endsResets u).goesOn (fnOf t)).elim (hrest.clears _) fun hgoes => ih hmem (by rw [hgoes]; exact h)

/-! ### The PF's reset ends (R196) -/

theorem State.tenantSt_onePartition (s : State) (t : Tenant) :
    s.onePartition.tenantSt t = { s.tenantSt t with partition := 0 } := Vector.getElem_map _ t.isLt

/-- What stays armed is no TIME_SET's. -/
theorem State.dropTimeSet_armed {s : State} {a : Armed} (h : s.dropTimeSet.clk.armed = some a) : a.head = none := by
  obtain ⟨-, hnone⟩ := Option.filter_eq_some_iff.mp h
  exact Option.isNone_iff_eq_none.mp hnone

/-- What is loaded is applied without a completion. -/
theorem State.dropTimeSet_loaded {s : State} {l : Loaded} (h : s.dropTimeSet.clk.loaded = some l) : l.head = none := by
  obtain ⟨_, -, rfl⟩ := Option.map_eq_some_iff.mp h
  rfl

/-- First every tenant's reset that has begun ends, with the halts before the PF's own; `v` is what that leaves. -/
theorem State.endPf_eq (s : State) (began : Nat) : ∃ v, EndsResets s v ∧
    (∀ t, (s.fnSt (fnOf t)).resetCommit ≠ none → (v.fnSt (fnOf t)).resetBusy = false) ∧
    s.endPf began = (v.onePartition.dropTimeSet).clearBusy pfFn := by
  have hhalts := fun u : State =>
    EndsResets.foldl State.resume_endsResets (u.safety.halts.filter (fun h => decide (h.commit < began))) u
  exact ⟨_, (EndsResets.foldl State.endTenant_endsResets allTenants s).trans (hhalts _),
    fun t ht => (hhalts _).clears _ (State.endTenants_clear (List.mem_finRange t) ht), rfl⟩

/-! ### RESET_END -/

theorem exec_resetEnd_notBegun {i : FnIn} {s : State} (h : (s.fnSt i.fn).resetCommit = none) :
    exec (.resetEnd i) s = .next s := by
  change execResetEnd i s = _
  simp only [execResetEnd, h]

theorem exec_resetEnd_dead {i : FnIn} {s : State} (h : s.dead = true) : exec (.resetEnd i) s = .next s := by
  change execResetEnd i s = _
  unfold execResetEnd
  split
  next => rw [if_pos h]
  next => rfl

section
variable {s : State} (hd : s.dead = false) {c : Nat}
include hd

theorem exec_resetEnd_tenant {t : Tenant} (h : (s.fnSt (fnOf t)).resetCommit = some c) : exec (.resetEnd ⟨fnOf t⟩) s =
    .next (if (s.fnSt pfFn).resetBusy then s else (s.coming.endTenant t).backTo s.clk) := by
  change execResetEnd ⟨fnOf t⟩ s = _
  simp only [execResetEnd, h, hd, Bool.false_eq_true, if_false, tenantOf_fnOf]
  unfold State.atNext
  dsimp only
  rw [show s.coming.fnSt pfFn = s.fnSt pfFn from rfl]
  split <;> rfl

theorem exec_resetEnd_pf (h : (s.fnSt pfFn).resetCommit = some c) :
    exec (.resetEnd ⟨pfFn⟩) s = .next ((s.coming.endPf c).backTo s.clk) := by
  change execResetEnd ⟨pfFn⟩ s = _
  simp only [execResetEnd, h, hd, Bool.false_eq_true, if_false, tenantOf_pfFn]
  rfl

end

/-- Back in the tick of `s`, a reset that ends has left the sticky part. -/
theorem EndsResets.sticky_backTo {s v : State} (h : EndsResets s.coming v) : (v.backTo s.clk).sticky = s.sticky := by
  obtain ⟨_, _, _, _, _, rfl⟩ := h.rest
  rfl

theorem State.endPf_keepsSticky (s : State) (began : Nat) : KeepsSticky s ((s.coming.endPf began).backTo s.clk) := by
  obtain ⟨v, hends, -, heq⟩ := s.coming.endPf_eq began
  rw [heq]
  obtain ⟨_, _, _, _, _, rfl⟩ := hends.rest
  exact ⟨rfl, rfl, rfl, rfl, rfl⟩

/-- R197 for the end of a reset. -/
theorem exec_resetEnd_keepsSticky (i : FnIn) (s : State) : ∃ t, exec (.resetEnd i) s = .next t ∧ KeepsSticky s t := by
  cases hc : (s.fnSt i.fn).resetCommit with
  | none => exact ⟨s, exec_resetEnd_notBegun hc, .of_sticky rfl⟩
  | some c =>
    cases hd : s.dead with
    | true => exact ⟨s, exec_resetEnd_dead hd, .of_sticky rfl⟩
    | false =>
      obtain ⟨f⟩ := i
      rcases pfFn_or_fnOf f with rfl | ⟨t, rfl⟩
      · exact ⟨_, exec_resetEnd_pf hd hc, s.endPf_keepsSticky c⟩
      · refine ⟨_, exec_resetEnd_tenant hd hc, .of_sticky ?_⟩
        split
        · rfl
        · exact (s.coming.endTenant_endsResets t).sticky_backTo

/-! ### The triggers and what is sticky (R197) -/

theorem State.triggerPf_sticky (s : State) : s.triggerPf.sticky = s.sticky := by
  cases h : (s.fnSt pfFn).resetBusy with
  | true => rw [State.triggerPf_busy h]
  | false =>
    obtain ⟨fns, hpf, -⟩ := State.triggerPf_idle h
    rw [hpf]
    rfl

/-- The rows that trigger a reset (R188, R189). -/
def triggersReset (i : Instr) : Prop :=
  (∃ f, i = .flr f) ∨ i = .vfEnableClear ∨ i = .hotReset ∨ i = .pcieLinkDown ∨ i = .d3hotEntry

theorem exec_of_not_pcieUsable {s : State} (h : s.pcieUsable = false) {i : Instr} (hi : triggersReset i) :
    exec i s = .next s := by
  rcases hi with ⟨f, rfl⟩ | rfl | rfl | rfl | rfl
  · change execFlr f s = _
    simp [execFlr, h]
  · change execVfEnableClear s = _
    simp [execVfEnableClear, h]
  · change execHotReset s = _
    simp [execHotReset, h]
  · change execPcieLinkDown s = _
    simp [execPcieLinkDown, h]
  · change execD3hotEntry s = _
    simp [execD3hotEntry, h]

/-- R197 for a trigger. -/
theorem exec_trigger_sticky {i : Instr} {s : State} (hi : triggersReset i) :
    ∃ t, exec i s = .next t ∧ t.sticky = s.sticky := by
  cases h : s.pcieUsable with
  | false => exact ⟨s, exec_of_not_pcieUsable h hi, rfl⟩
  | true =>
    have pf : triggersPf i → ∃ t, exec i s = .next t ∧ t.sticky = s.sticky := fun hpf =>
      ⟨_, exec_triggersPf h hpf, s.triggerPf_sticky⟩
    rcases hi with ⟨⟨f⟩, rfl⟩ | rfl | hpf
    · rcases pfFn_or_fnOf f with rfl | ⟨v, rfl⟩
      · exact pf (.inl rfl)
      · exact ⟨_, exec_flr_vf h v, rfl⟩
    · refine ⟨_, exec_vfEnableClear h, ?_⟩
      obtain ⟨fns, htenants, -⟩ := s.triggerTenants_eq
      rw [htenants]
      rfl
    · exact pf (.inr hpf)

/-- Settles O38. The end of a reset is the steps that `EndsResets` allows and then `clearBusy`; what no reset changes is `sticky`,
which every step keeps, and the PF's end changes in it only what TIME_SET armed. -/
theorem resetsEndAndKeepWhatIsSticky : Obligations.ResetsEndAndKeepWhatIsSticky := by
  unfold Obligations.ResetsEndAndKeepWhatIsSticky
  refine ⟨fun t c s hd hc => ⟨fun hbusy => ?waits, fun hidle => ?tenant⟩, fun c s hd hc => ?pf,
    fun i s h => exec_resetEnd_notBegun h, fun s => ⟨fun i hi => ?steps, ?begins⟩⟩
  case waits => rw [exec_resetEnd_tenant hd hc, if_pos hbusy]
  case tenant =>
    have hends := s.coming.endTenant_endsResets t
    have hscrubbed : ∀ b ∈ (s.coming.endTenant t).pools.bufs, b.owner = .scrub → bufKey b ∉ (s.fnSt (fnOf t)).scrubs :=
      fun b hb ho => State.endTenant_scrubbed (s := s.coming) hc hb ho
    obtain ⟨hbusy, hcommit, hscrubs⟩ := State.fnSt_endTenant (s := s.coming) hc
    rw [exec_resetEnd_tenant hd hc, if_neg (by simp [hidle])]
    generalize s.coming.endTenant t = v at hends hscrubbed hbusy hcommit hscrubs
    obtain ⟨_, _, _, _, _, rfl⟩ := hends.rest
    exact ⟨_, rfl, hbusy, hcommit, hscrubs, hscrubbed, rfl, rfl, rfl, rfl, rfl, rfl, rfl⟩
  case pf =>
    obtain ⟨v, hends, htenants, heq⟩ := s.coming.endPf_eq c
    rw [exec_resetEnd_pf hd hc, heq]
    have hpf := (v.onePartition.dropTimeSet).fnSt_clearBusy pfFn
    have hvf := fun t => State.fnSt_clearBusy_tenant v.onePartition.dropTimeSet t
    obtain ⟨_, _, _, _, _, rfl⟩ := hends.rest
    exact ⟨_, rfl, congrArg FnState.resetBusy hpf, congrArg FnState.resetCommit hpf, rfl,
      fun t => congrArg TenantSt.partition (State.tenantSt_onePartition _ t),
      fun t ht => (congrArg FnState.resetBusy (hvf t)).trans (htenants t ht),
      fun a ha => State.dropTimeSet_armed ha, fun l hl => State.dropTimeSet_loaded hl, rfl, rfl, rfl, rfl, rfl⟩
  case steps =>
    have hrow : triggersReset i ∨ ∃ f, i = .resetEnd f := by simpa only [triggersReset, or_assoc] using hi
    rcases hrow with htrigger | ⟨f, rfl⟩
    · obtain ⟨t, ht, hsticky⟩ := exec_trigger_sticky (s := s) htrigger
      exact ⟨t, ht, KeepsSticky.of_sticky hsticky⟩
    · exact exec_resetEnd_keepsSticky f s
  case begins =>
    exact ⟨KeepsSticky.of_sticky s.beginResets_sticky, congrArg Prod.fst s.beginResets_sticky⟩

end Sys2Proof.Machine
end

section
/-! The reads of the host end: O22. -/

namespace Sys2Proof.Machine

/-! ### A read that failed (R186, Table 5.12) -/

/-- The error's bit in the Uncorrectable Error registers. -/
def ReadFailure.aerBit : ReadFailure → Nat
  | .poisoned => aerPoisoned
  | .timeout => aerTimeout

/-- A function one of whose reads has failed: FETCH_ERROR is set and the error is logged. -/
def FnState.readFailed (x : FnState) (bit : Nat) : FnState :=
  { x with
    fetchError := true
    aerStatus := x.aerStatus ||| (1 <<< bit : U32)
    aerFirst := if x.aerMask.getLsbD bit || x.aerFirst.isSome then x.aerFirst else some bit }

/-- The rest of a read's failure are the error messages sent. -/
theorem State.readFailed_eq (s : State) (f : Fn) (why : ReadFailure) : ∃ es, s.readFailed f why =
    { s.modFn f (fun x => x.readFailed why.aerBit) with
      host := { (s.modFn f (fun x => x.readFailed why.aerBit)).host with errors := es } } := by
  have hbit : s.readFailed f why = (s.modFn f (fun x => { x with fetchError := true })).logError f why.aerBit := by
    cases why <;> rfl
  rw [hbit]
  unfold State.logError
  dsimp only
  rw [State.modFn_modFn]
  split <;> exact ⟨_, rfl⟩

theorem State.fnSt_readFailed (s : State) (f : Fn) (why : ReadFailure) :
    (s.readFailed f why).fnSt f = (s.fnSt f).readFailed why.aerBit := by
  obtain ⟨es, h⟩ := s.readFailed_eq f why
  rw [h]
  exact State.fnSt_modFn s f (fun x => x.readFailed why.aerBit)

/-- A failed read sets FETCH_ERROR and leaves what is not the function's own or its error messages. -/
theorem State.readFailed_fetchError_frame (s : State) (f : Fn) (why : ReadFailure) :
    (s.readFailed f why).work = s.work ∧ ((s.readFailed f why).fnSt f).fetchError = true ∧ (s.readFailed f why).clk = s.clk ∧
      (s.readFailed f why).dram = s.dram ∧ (s.readFailed f why).pools = s.pools ∧ (s.readFailed f why).safety = s.safety ∧
      (s.readFailed f why).host.queues = s.host.queues := by
  have hself := s.fnSt_readFailed f why
  obtain ⟨es, h⟩ := s.readFailed_eq f why
  rw [hself, h]
  exact ⟨rfl, rfl, rfl, rfl, rfl, rfl, rfl⟩

/-! ### A ring that stops (R231) -/

/-- An update of the entries that `p` picks leaves the same entry first among them. -/
theorem find?_updWhere {α : Type} {p : α → Bool} {g : α → α} (hg : ∀ x, p x = true → p (g x) = true) (l : List α) :
    (updWhere p g l).find? p = (l.find? p).map g := by
  induction l with
  | nil => rfl
  | cons x l ih =>
    rw [updWhere] at ih ⊢
    cases h : p x with
    | false => simp [h, ih]
    | true => simp [h, hg x h]

/-- Reading a ring after an update of it that leaves it in its place. -/
theorem State.queue?_modQueue {s : State} {f : Fn} {slot : Nat} {q : Queue} (h : s.queue? f slot = some q) {g : Queue → Queue}
    (hg : ∀ x, (g x).fn = x.fn ∧ (g x).slot = x.slot) : (s.modQueue f slot g).queue? f slot = some (g q) := by
  have hfind := find?_updWhere (p := fun q : Queue => q.fn == f && q.slot == slot) (g := g)
    (fun x hx => by rw [(hg x).1, (hg x).2]; exact hx) s.host.queues
  exact hfind.trans (congrArg (Option.map g) h)

/-- The outcome of a descriptor read that fails: its ring is stopped, FETCH_ERROR set, and its event raised as of the coming
commit. -/
def StopsRing (s t : State) (f : Fn) (slot : Nat) : Prop :=
  (∃ q', t.queue? f slot = some q' ∧ q'.stopped = true) ∧ (t.fnSt f).fetchError = true ∧
    Raised s t f 0x0006 (s.clk.tick + 1) ∧ t.clk = s.clk ∧ t.work = s.work

/-- Stopping a ring: the read has failed, and FETCH_ERROR's event is raised for the coming commit. -/
theorem State.stopRing_eq (s : State) (f : Fn) (slot : Nat) (why : ReadFailure) : ∃ d, s.stopRing f slot why =
    ((s.modQueue f slot (fun q => { q with stopped := true })).readFailed f why).atNext
      (fun s => s.raiseSlot f 0x0006 slot d) := ⟨_, rfl⟩

/-- An event raised for the coming commit. -/
theorem State.fnSt_atNext_raiseSlot (s : State) (f : Fn) (code slot : Nat) (d : List Byte) : ∃ e : Event, e.code = code ∧
    e.tick = s.clk.tick + 1 ∧ (s.atNext (fun s => s.raiseSlot f code slot d)).fnSt f = (s.fnSt f).addEvent e :=
  s.coming.fnSt_raiseFull f code (severityOf code) slot 0xFFFF 0xFF d

theorem State.stopRing_stops {s : State} {f : Fn} {slot : Nat} {q : Queue} (h : s.queue? f slot = some q) (why : ReadFailure) :
    StopsRing s (s.stopRing f slot why) f slot := by
  have hq := State.queue?_modQueue h (g := fun q => { q with stopped := true }) fun _ => ⟨rfl, rfl⟩
  obtain ⟨d, hstop⟩ := s.stopRing_eq f slot why
  rw [hstop]
  generalize hu : s.modQueue f slot (fun q => { q with stopped := true }) = u at hq
  obtain ⟨e, hcode, htick, he⟩ := (u.readFailed f why).fnSt_atNext_raiseSlot f 0x0006 slot d
  have hself : (u.readFailed f why).fnSt f = (s.fnSt f).readFailed why.aerBit := by rw [State.fnSt_readFailed, ← hu]; rfl
  obtain ⟨es, hfailed⟩ := u.readFailed_eq f why
  rw [hself] at he
  refine ⟨⟨{ q with stopped := true }, ?ring, rfl⟩, congrArg FnState.fetchError he,
    ⟨_, congrArg FnState.eventHeld he, _, List.mem_singleton_self _, hcode, htick.trans ?tick⟩, ?clk, ?work⟩
  case ring => rw [hfailed]; exact hq
  all_goals rw [hfailed, ← hu]; rfl

/-! ### Chunks (R269, R270) -/

/-- The stream's pictures and frame with one chunk changed. -/
def State.changeChunkOf (s : State) (x : Stream) (seq k : Nat) (g : Chunk → Chunk) : State :=
  s.modStream x.handle (fun y => (y.onPending seq k g).onDecoding seq k g)

section
variable {f : Fn} {slot : BitVec 11} {s : State} {x : Stream}
  (hx : s.work.streams.find? (fun y => y.fn == f && y.ingestSlot == slot.toNat) = some x)
  (hready : s.isReady = true) (hsealed : (s.fnSt f).sealed = true)
include hx hready

theorem exec_fetchLate (seq : U64) (k : Nat) : exec (.fetchLate { fn := f, slot := slot, kind := .chunk k, seq := seq }) s =
    .next (s.modStream x.handle (fun y => y.onDecoding seq.toNat k (Chunk.lose 6))) := by
  change execFetchLate { fn := f, slot := slot, kind := .chunk k, seq := seq } s = _
  simp only [execFetchLate, hx, hready, if_true, kindFetchLate]

include hsealed

theorem State.chunkRead_eq (seq k : Nat) (g : Chunk → Chunk) :
    s.chunkRead f slot.toNat seq k g = s.changeChunkOf x seq k g := by
  simp only [State.chunkRead, hready, hsealed, hx, Bool.and_true, if_true]
  rfl

theorem State.chunkFailed_eq (seq : U64) (k : Nat) (why : ReadFailure) :
    s.chunkFailed { fn := f, slot := slot, kind := .chunk k, seq := seq } k why =
      (s.changeChunkOf x seq.toNat k (Chunk.lose 5)).readFailed f why := by
  simp only [State.chunkFailed, hready, hsealed, Bool.and_true, if_true, State.chunkRead_eq hx hready hsealed]
  rfl

theorem State.chunkData_unlimited {seq k : Nat} {c : Chunk} (hc : x.awaitedChunk? seq k = some c)
    (hlimit : s.limitsFetch x c.desc.length = false) (bs : List Byte) :
    s.chunkData f slot.toNat seq k bs = s.changeChunkOf x seq k (Chunk.receive bs) := by
  simp only [State.chunkData, hx, hc, hlimit, Bool.false_and, Bool.false_eq_true, if_false,
    State.chunkRead_eq hx hready hsealed]

end

/-! ### The rows -/

theorem exec_completionTimeout_waits {i : TimeoutIn} {s : State}
    (h : s.host.timeoutDisable = true ∨ i.ageNs < timeoutNs s.host.timeoutValue) : exec (.completionTimeout i) s = .next s := by
  change execCompletionTimeout i s = _
  rw [execCompletionTimeout, if_pos (by simpa using h)]

theorem exec_completionTimeout_ends {i : TimeoutIn} {s : State} (hdis : s.host.timeoutDisable = false)
    (hage : timeoutNs s.host.timeoutValue ≤ i.ageNs) : exec (.completionTimeout i) s = .next (s.readTimesOut i.ref) := by
  change execCompletionTimeout i s = _
  rw [execCompletionTimeout, if_neg (by simp [hdis, hage])]

section
variable {f : Fn} {slot : BitVec 11} {s : State} {q : Queue} (hq : s.queue? f slot.toNat = some q) (hty : q.qtype = .command)
  (hfetch : s.fetches f q = true)
include hq hty hfetch

theorem State.descriptorRead_command (bs : List Byte) (poisoned : Bool) : s.descriptorRead f slot.toNat bs poisoned =
    if poisoned then s.stopRing f slot.toNat .poisoned else s.modQueue f slot.toNat (fun q => q.fetchCommand f bs) := by
  simp [State.descriptorRead, hq, hty, hfetch]

theorem State.readTimesOut_descriptor (seq : U64) :
    s.readTimesOut { fn := f, slot := slot, kind := .descriptor, seq := seq } = s.stopRing f slot.toNat .timeout := by
  simp [State.readTimesOut, hq, hty, hfetch]

end

/-- Settles O22. A descriptor read ends in its ring, which fetches on or stops; a chunk read ends in one chunk of the ring's
stream, whose failure is that change followed by `readFailed`. -/
theorem hostReadsEnd : Obligations.HostReadsEnd := by
  unfold Obligations.HostReadsEnd
  refine ⟨fun f slot seq bs s q hq hty hfetch => ?descriptor, fun i s h => exec_completionTimeout_waits h,
    fun f slot seq k bs s x hx hready hsealed => ?chunk⟩
  case descriptor =>
    intro ref stops
    have read := State.descriptorRead_command hq hty hfetch bs
    have out := State.readTimesOut_descriptor hq hty hfetch seq
    refine ⟨?fetched, ⟨_, ?poisoned, State.stopRing_stops hq .poisoned⟩,
      fun hdis n hn => ⟨_, ?timedOut, State.stopRing_stops hq .timeout⟩⟩
    case fetched => exact congrArg Host.Outcome.next (read false)
    case poisoned => exact congrArg Host.Outcome.next (read true)
    case timedOut => exact (exec_completionTimeout_ends hdis hn).trans (congrArg Host.Outcome.next out)
  case chunk =>
    intro ref chunk loses
    have lost := fun why => State.chunkFailed_eq hx hready hsealed seq k why
    have failed := fun why => State.readFailed_fetchError_frame (chunk (Chunk.lose 5)) f why
    refine ⟨fun c hc hlimit => ?data, ⟨_, ?poisoned, failed .poisoned⟩, fun hdis n hn => ⟨_, ?timedOut, failed .timeout⟩,
      exec_fetchLate hx hready seq k⟩
    case data =>
      exact congrArg Host.Outcome.next (State.chunkData_unlimited hx hready hsealed hc hlimit bs)
    case poisoned => exact congrArg Host.Outcome.next (lost .poisoned)
    case timedOut => exact (exec_completionTimeout_ends hdis hn).trans (congrArg Host.Outcome.next (lost .timeout))

end Sys2Proof.Machine
end

section
/-! NOP and AUDIT_READ, QUEUE_CREATE, and the clasp commands: O13, O17, O19. -/

namespace Sys2Proof.Machine

/-! ### An address that a command names (R228) -/

section
variable {s : State} {f : Fn} {slot a n offset : Nat} {writing : Bool} {rest : CmdEffect}

theorem State.cmdAddress_reached (hr : s.reaches f a n writing = true) :
    s.cmdAddress f slot a n writing offset rest = rest s := if_pos hr

theorem State.cmdAddress_unreached (hr : s.reaches f a n writing = false) : s.cmdAddress f slot a n writing offset rest =
    (s.addressFault f slot a writing, some (failAt .addressFault offset)) := if_neg (by simp [hr])

/-- An admissible command whose effect is its answer alone leaves the rest as it was. -/
theorem ringRow_unchanged {h : CmdHead} {c : RingCmd} {eff : CmdEffect} {a : Answer} (ha : Admissible s h c)
    (he : eff s.coming = (s.coming, some a)) :
    ∃ t, s.ringRow h c eff = .next t ∧ Completes s t h (opcodeOf c) a.status a.offset a.result :=
  ringRow_answers (v := s.coming) ha he rfl

/-- An admissible command that names an address no window takes raises R184's fault and completes. -/
theorem ringRow_addressFault {h : CmdHead} {c : RingCmd} {eff : CmdEffect} (ha : Admissible s h c)
    (he : eff s.coming = (s.coming.addressFault f slot a writing, some (failAt .addressFault offset))) :
    ∃ t, s.ringRow h c eff = .next t ∧
      Completes (s.atNext (fun s => s.addressFault f slot a writing)) t h (opcodeOf c) .addressFault offset [] :=
  ringRow_answers ha he rfl

end

/-! ### NOP and AUDIT_READ -/

section
variable {l s : State} {h : CmdHead} {p : AuditReadP}

theorem applyAuditRead_short (hb : p.bytes.toNat < (l.auditBytes p.audit.toNat).length) :
    applyAuditRead l h p s = (s, some (failAt .invalidField 0x0C)) := if_pos hb

theorem applyAuditRead_fits (hb : (l.auditBytes p.audit.toNat).length ≤ p.bytes.toNat) :
    applyAuditRead l h p s = s.cmdAddress h.fn h.slot.toNat p.dest.toNat (l.auditBytes p.audit.toNat).length true 0x10 (fun s =>
      (s.withHost { s.host with auditOut := s.host.auditOut ++
          ((s.translate h.fn p.dest.toNat (l.auditBytes p.audit.toNat).length true).map
            (fun a => Posted.auditOut h.fn a (l.auditBytes p.audit.toNat))).toList },
        some (okWith (le 4 (l.auditBytes p.audit.toNat).length)))) := if_neg (by omega)

/-- The audit's bytes are one post, at the bus address that the windows give. -/
theorem applyAuditRead_writes (hb : (l.auditBytes p.audit.toNat).length ≤ p.bytes.toNat) {a : Nat}
    (hto : s.translate h.fn p.dest.toNat (l.auditBytes p.audit.toNat).length true = some a) :
    applyAuditRead l h p s =
      ({ s with host := { s.host with auditOut := s.host.auditOut ++ [.auditOut h.fn a (l.auditBytes p.audit.toNat)] } },
        some (okWith (le 4 (l.auditBytes p.audit.toNat).length))) := by
  rw [applyAuditRead_fits hb, State.cmdAddress_reached (by simp [State.reaches, hto]), hto]
  rfl

theorem applyAuditRead_unreached (hb : (l.auditBytes p.audit.toNat).length ≤ p.bytes.toNat)
    (hto : s.translate h.fn p.dest.toNat (l.auditBytes p.audit.toNat).length true = none) :
    applyAuditRead l h p s =
      (s.addressFault h.fn h.slot.toNat p.dest.toNat true, some (failAt .addressFault 0x10)) := by
  rw [applyAuditRead_fits hb, State.cmdAddress_unreached (by simp [State.reaches, hto])]

end

/-- Settles O13. The audit is the one of the coming commit's state, which AUDIT_READ latches. -/
theorem nopAndAuditRead : Obligations.NopAndAuditRead := by
  unfold Obligations.NopAndAuditRead
  refine ⟨fun h s ha => ringRow_unchanged (eff := applyNop) ha rfl, fun h p s ha =>
    ⟨fun hb => ?short, fun a hb hto => ?writes, fun hb hto => ?unreached⟩⟩
  case short => exact ringRow_unchanged ha (applyAuditRead_short hb)
  case writes => exact ringRow_answers ha (applyAuditRead_writes (s := s.coming) hb hto) rfl
  case unreached => exact ringRow_addressFault ha (applyAuditRead_unreached hb hto)

/-! ### QUEUE_CREATE, a case for each precondition of Table 6.10 and one for its effect -/

/-- The new queue joins the others, and its ID is the RESULT. -/
def addQueue (h : CmdHead) (p : QueueCreateP) (id : Nat) : CmdEffect := fun s =>
  ({ s with host := { s.host with queues := s.host.queues ++ [newQueue h.fn p id] } }, some (okWith (le 2 id)))

section
variable {h : CmdHead} {p : QueueCreateP} {s : State}

theorem applyQueueCreate_slotInUse (hslot : (s.queue? h.fn p.slot.toNat).isSome = true) :
    applyQueueCreate h p s = refuse s .queueBusy := if_pos hslot

variable (hslot : s.queue? h.fn p.slot.toNat = none)
include hslot

theorem applyQueueCreate_quotaFull (hquota : s.quotaOf h.fn ≤ s.queueCount h.fn) :
    applyQueueCreate h p s = refuse s .quotaExceeded := by
  simp [applyQueueCreate, hslot, hquota]

variable (hquota : s.queueCount h.fn < s.quotaOf h.fn)
include hquota

theorem applyQueueCreate_noId (hid : s.freeId = none) : applyQueueCreate h p s = refuse s .noResources := by
  simp [applyQueueCreate, hslot, Nat.not_le.mpr hquota, hid]

variable {id : Nat} (hid : s.freeId = some id)
include hid

theorem applyQueueCreate_unpaired (htype : p.queueType = 2) (hpair : s.isCompletionRing h.fn p.pairedSlot.toNat = false) :
    applyQueueCreate h p s = refuse s .notFound := by
  simp [applyQueueCreate, hslot, Nat.not_le.mpr hquota, hid, htype, hpair]

variable (hpair : p.queueType = 2 → s.isCompletionRing h.fn p.pairedSlot.toNat = true)
include hpair

/-- What is left once the slot, the quota, the ID and the pairing stand: the ring's address, then the index write-back's. -/
theorem applyQueueCreate_addresses : applyQueueCreate h p s =
    s.cmdAddress h.fn p.slot.toNat p.base.toNat (64 * 2 ^ p.log2Entries.toNat) (p.queueType != 1 && p.queueType != 2) 0x10
      (fun s => if p.indexAddr = 0 then addQueue h p id s
        else s.cmdAddress h.fn p.slot.toNat p.indexAddr.toNat 8 true 0x18 (addQueue h p id)) := by
  have hfound : (p.queueType == 2 && !s.isCompletionRing h.fn p.pairedSlot.toNat) = false := by simpa using hpair
  simp only [applyQueueCreate, hslot, hid, hfound, Nat.not_le.mpr hquota, beq_iff_eq, if_false, Option.isSome_none,
    Bool.false_eq_true]
  rfl

theorem applyQueueCreate_ringUnreached (hring : s.reaches h.fn p.base.toNat (64 * 2 ^ p.log2Entries.toNat)
    (p.queueType != 1 && p.queueType != 2) = false) : applyQueueCreate h p s =
      (s.addressFault h.fn p.slot.toNat p.base.toNat (p.queueType != 1 && p.queueType != 2), some (failAt .addressFault 0x10)) := by
  rw [applyQueueCreate_addresses hslot hquota hid hpair, State.cmdAddress_unreached hring]

variable (hring : s.reaches h.fn p.base.toNat (64 * 2 ^ p.log2Entries.toNat) (p.queueType != 1 && p.queueType != 2) = true)
include hring

theorem applyQueueCreate_indexUnreached (hne : p.indexAddr ≠ 0) (hindex : s.reaches h.fn p.indexAddr.toNat 8 true = false) :
    applyQueueCreate h p s =
      (s.addressFault h.fn p.slot.toNat p.indexAddr.toNat true, some (failAt .addressFault 0x18)) := by
  rw [applyQueueCreate_addresses hslot hquota hid hpair, State.cmdAddress_reached hring, if_neg hne,
    State.cmdAddress_unreached hindex]

theorem applyQueueCreate_creates (hindex : p.indexAddr = 0 ∨ s.reaches h.fn p.indexAddr.toNat 8 true = true) :
    applyQueueCreate h p s = addQueue h p id s := by
  rw [applyQueueCreate_addresses hslot hquota hid hpair, State.cmdAddress_reached hring]
  split
  · rfl
  · next hne => rw [State.cmdAddress_reached (hindex.resolve_left hne)]

end

/-- Settles O17. Only the choice of the ID reads the clock (R201), and it is the coming commit's; every other precondition holds of
the coming commit's state as it holds of `s`. -/
theorem queueCreateMakesAnEmptyQueue : Obligations.QueueCreateMakesAnEmptyQueue := by
  unfold Obligations.QueueCreateMakesAnEmptyQueue
  intro h p s ha
  refine ⟨fun hslot => ringRow_refuses ha (applyQueueCreate_slotInUse (s := s.coming) hslot), fun hslot =>
    ⟨fun hquota => ringRow_refuses ha (applyQueueCreate_quotaFull (s := s.coming) hslot hquota), fun hquota =>
      ⟨fun hid => ringRow_refuses ha (applyQueueCreate_noId (s := s.coming) hslot hquota hid), fun id hid =>
        ⟨fun htype hpair => ringRow_refuses ha (applyQueueCreate_unpaired (s := s.coming) hslot hquota hid htype hpair), fun hpair =>
          ⟨fun hring => ?ring, fun hring hne hindex => ?index, fun hring hindex => ?creates⟩⟩⟩⟩⟩
  case ring =>
    exact ringRow_addressFault ha
      (applyQueueCreate_ringUnreached (s := s.coming) hslot hquota hid hpair (Bool.eq_false_iff.mpr hring))
  case index =>
    exact ringRow_addressFault ha (applyQueueCreate_indexUnreached (s := s.coming) hslot hquota hid hpair hring hne hindex)
  case creates =>
    obtain ⟨u, hexec, hdone⟩ :=
      ringRow_answers ha (applyQueueCreate_creates (s := s.coming) hslot hquota hid hpair hring hindex) rfl
    exact ⟨newQueue h.fn p id, u, hexec, hdone, rfl, rfl, rfl, rfl, rfl, rfl, rfl, rfl, rfl, rfl, rfl, rfl⟩

/-! ### CLASP_CREATE -/

/-- The new clasp joins the others, and its ID is the RESULT. -/
def addClasp (h : CmdHead) (p : ClaspCreateP) (id : Nat) : CmdEffect := fun s =>
  ({ s with host := { s.host with clasps := s.host.clasps ++
    [{ id := id, fn := h.fn, value := p.initial.toNat, latched := p.initial.toNat, mirror := p.mirrorAddr.toNat,
       threshold := if p.threshold = 0 then none else some p.threshold.toNat, vector := vectorField p.msixVector,
       retire := false, changed := false }] } }, some (okWith (le 2 id)))

theorem applyClaspCreate_none {h : CmdHead} {p : ClaspCreateP} {s : State} (hn : s.claspFits = false ∨ s.freeClasp = none) :
    applyClaspCreate h p s = refuse s .noResources := by
  have hid : (if s.claspFits then s.freeClasp else none) = none := by
    rcases hn with hfits | hfree
    · simp [hfits]
    · simp [hfree]
  simp only [applyClaspCreate, hid]

theorem applyClaspCreate_creates {h : CmdHead} {p : ClaspCreateP} {s : State} {id : Nat} (hfits : s.claspFits = true)
    (hfree : s.freeClasp = some id) (hmirror : p.mirrorAddr = 0 ∨ s.reaches h.fn p.mirrorAddr.toNat 8 true = true) :
    applyClaspCreate h p s = addClasp h p id s := by
  simp only [applyClaspCreate, hfits, hfree, if_true, beq_iff_eq]
  split
  · rfl
  · next hne => exact State.cmdAddress_reached (hmirror.resolve_left hne)

/-! ### CLASP_SIGNAL (R235) -/

/-- A clasp raised to a value holds the greater of the two. -/
theorem Clasp.raiseTo_eq (c : Clasp) (v : Nat) : ∃ ch, c.raiseTo v = { c with value := max c.value v, changed := ch } := by
  unfold Clasp.raiseTo
  split
  · next hlt => exact ⟨true, by rw [Nat.max_eq_right (Nat.le_of_lt hlt)]⟩
  · next hge => exact ⟨c.changed, by rw [Nat.max_eq_left (Nat.le_of_not_lt hge)]⟩

theorem Clasp.signal_overflow {c : Clasp} {p : ClaspSignalP} (hop : p.op = 0) (hv : 2 ^ 64 ≤ c.value + p.value.toNat) :
    c.signal p = none := by
  rw [Clasp.signal, if_pos (by simp [hop]), if_pos hv]

theorem Clasp.signal_add {c : Clasp} {p : ClaspSignalP} (hop : p.op = 0) (hv : c.value + p.value.toNat < 2 ^ 64) :
    ∃ ch, c.signal p = some { c with value := c.value + p.value.toNat, changed := ch } := by
  obtain ⟨ch, hraise⟩ := c.raiseTo_eq (c.value + p.value.toNat)
  rw [Nat.max_eq_right (Nat.le_add_right _ _)] at hraise
  exact ⟨ch, by rw [Clasp.signal, if_pos (by simp [hop]), if_neg (Nat.not_le.mpr hv), hraise]⟩

theorem Clasp.signal_max {c : Clasp} {p : ClaspSignalP} (hop : p.op = 1) :
    ∃ ch, c.signal p = some { c with value := max c.value p.value.toNat, changed := ch } := by
  obtain ⟨ch, hraise⟩ := c.raiseTo_eq p.value.toNat
  exact ⟨ch, by rw [Clasp.signal, if_neg (by simp [hop]), if_pos (by simp [hop]), hraise]⟩

theorem Clasp.signal_arm {c : Clasp} {p : ClaspSignalP} (hop : p.op = 2) :
    c.signal p = some { c with threshold := some p.value.toNat,
                               vector := if p.msixVector = 0xFFFF then c.vector else some p.msixVector.toNat,
                               mirror := if p.mirrorAddr = 0 then c.mirror else p.mirrorAddr.toNat } := by
  rw [Clasp.signal, if_neg (by simp [hop]), if_neg (by simp [hop])]
  simp only [beq_iff_eq]

section
variable {h : CmdHead} {p : ClaspSignalP} {s : State} {c : Clasp}

theorem applyClaspSignal_notFound (hc : s.ownClasp? h.fn p.clasp.toNat = none) :
    applyClaspSignal h p s = refuse s .notFound := by
  simp only [applyClaspSignal, hc]

variable (hc : s.ownClasp? h.fn p.clasp.toNat = some c)
include hc

theorem applyClaspSignal_notPermitted (hretire : c.retire = true) (hop : p.op ≠ 2) :
    applyClaspSignal h p s = refuse s .notPermitted := by
  simp only [applyClaspSignal, hc, hretire, Bool.true_and, bne_iff_ne.mpr hop, if_true]

theorem applyClaspSignal_overflow (hmay : c.retire = false ∨ p.op = 2) (hv : c.signal p = none) :
    applyClaspSignal h p s = refuse s .claspOverflow := by
  rcases hmay with hr | hr <;> simp [applyClaspSignal, hc, hr, hv]

/-- A signal changes the clasps of the named ID alone; its RESULT is the value that the clasp then has. -/
theorem applyClaspSignal_signals {c' : Clasp} (hmay : c.retire = false ∨ p.op = 2) (hv : c.signal p = some c')
    (hmirror : p.op = 2 → p.mirrorAddr = 0 ∨ s.reaches h.fn p.mirrorAddr.toNat 8 true = true) :
    applyClaspSignal h p s = (s.modClasp c.id (fun _ => c'), some { okWith (le 8 c'.value) with clasp := some c.id }) := by
  have hpermitted : (c.retire && p.op != 2) = false := by rcases hmay with hr | hr <;> simp [hr]
  simp only [applyClaspSignal, hc, hpermitted, hv, Bool.false_eq_true, if_false]
  split
  · next hnamed =>
    simp only [Bool.and_eq_true, beq_iff_eq, bne_iff_ne] at hnamed
    exact State.cmdAddress_reached ((hmirror hnamed.1).resolve_left hnamed.2)
  · rfl

end

/-- An admissible CLASP_SIGNAL that signals its clasp completes with the value it gives. -/
theorem exec_claspSignal_signals {h : CmdHead} {p : ClaspSignalP} {s : State} {c c' : Clasp} (ha : Admissible s h (.claspSignal p))
    (hc : s.ownClasp? h.fn p.clasp.toNat = some c) (hmay : c.retire = false ∨ p.op = 2) (hv : c.signal p = some c')
    (hmirror : p.op = 2 → p.mirrorAddr = 0 ∨ s.reaches h.fn p.mirrorAddr.toNat 8 true = true) :
    ∃ u, exec (.claspSignal h p) s = .next u ∧
      Completes (s.modClasp c.id (fun _ => c')) u h 0x51 .success 0xFFFF (le 8 c'.value) :=
  ringRow_answers ha (applyClaspSignal_signals (s := s.coming) hc hmay hv hmirror) rfl

/-! ### CLASP_DESTROY -/

section
variable {h : CmdHead} {p : ClaspP} {s : State} {c : Clasp}

theorem applyClaspDestroy_notFound (hc : s.ownClasp? h.fn p.clasp.toNat = none) :
    applyClaspDestroy h p s = refuse s .notFound := by
  simp only [applyClaspDestroy, hc]

variable (hc : s.ownClasp? h.fn p.clasp.toNat = some c)
include hc

theorem applyClaspDestroy_notPermitted (hretire : c.retire = true) : applyClaspDestroy h p s = refuse s .notPermitted := by
  simp [applyClaspDestroy, hc, hretire]

theorem applyClaspDestroy_awaited (hretire : c.retire = false) (hw : s.claspAwaited h.fn c.id = true) :
    applyClaspDestroy h p s = refuse s .invalidState := by
  simp [applyClaspDestroy, hc, hretire, hw]

theorem applyClaspDestroy_destroys (hretire : c.retire = false) (hw : s.claspAwaited h.fn c.id = false)
    (hown : headSignal h = true → h.doneClasp.toNat % 8192 ≠ c.id) : applyClaspDestroy h p s =
      ({ s with host := { s.host with clasps := s.host.clasps.filter (fun x => x.id != c.id) } }, some ok) := by
  have hunnamed : (headSignal h && h.doneClasp.toNat % 8192 == c.id) = false := by
    cases hs : headSignal h with
    | false => rfl
    | true => simpa using hown hs
  simp only [applyClaspDestroy, hc, hretire, hw, hunnamed, Bool.or_self, Bool.false_eq_true, if_false]
  rfl

end

/-- Settles O19. A signal is `Clasp.signal`, one case per OP; no clasp command reads the clock. -/
theorem claspCommands : Obligations.ClaspCommands := by
  unfold Obligations.ClaspCommands
  refine ⟨fun h p s ha => ?create, fun h p s ha => ?signal, fun h p s ha => ?destroy⟩
  case create =>
    exact ⟨fun hn => ringRow_refuses ha (applyClaspCreate_none (s := s.coming) hn), fun id hfits hfree hmirror =>
      ringRow_answers ha (applyClaspCreate_creates (s := s.coming) hfits hfree hmirror) rfl⟩
  case signal =>
    refine ⟨fun hc => ringRow_refuses ha (applyClaspSignal_notFound (s := s.coming) hc), fun c hc =>
      ⟨fun hretire hop => ?retire, fun hretire hop hv => ?overflow, fun hretire hop hv => ?add, fun hretire hop => ?max,
        fun hop hmirror => ?arm⟩⟩
    case retire => exact ringRow_refuses ha (applyClaspSignal_notPermitted (s := s.coming) hc hretire hop)
    case overflow =>
      exact ringRow_refuses ha (applyClaspSignal_overflow (s := s.coming) hc (.inl hretire) (Clasp.signal_overflow hop hv))
    case add =>
      obtain ⟨ch, hsignal⟩ := Clasp.signal_add hop hv
      exact ⟨ch, exec_claspSignal_signals ha hc (.inl hretire) hsignal (by simp [hop])⟩
    case max =>
      obtain ⟨ch, hsignal⟩ := Clasp.signal_max (c := c) hop
      exact ⟨ch, exec_claspSignal_signals ha hc (.inl hretire) hsignal (by simp [hop])⟩
    case arm => exact exec_claspSignal_signals ha hc (.inr hop) (Clasp.signal_arm hop) fun _ => hmirror
  case destroy =>
    exact ⟨fun hc => ringRow_refuses ha (applyClaspDestroy_notFound (s := s.coming) hc), fun c hc =>
      ⟨fun hretire => ringRow_refuses ha (applyClaspDestroy_notPermitted (s := s.coming) hc hretire),
        fun hretire hw => ringRow_refuses ha (applyClaspDestroy_awaited (s := s.coming) hc hretire hw),
        fun hretire hw hown => ringRow_answers ha (applyClaspDestroy_destroys (s := s.coming) hc hretire hw hown) rfl⟩⟩

end Sys2Proof.Machine
end

section
/-! QUEUE_DESTROY: O18. -/

namespace Sys2Proof.Machine

/-! ### The completion slots of the commands that leave with a ring (R201) -/

/-- A ring with the slots that these commands had reserved on it free again. -/
def Queue.freed (as : List Accepted) (x : Queue) : Queue :=
  { x with reserved := x.reserved - as.countP (fun a => a.at_.done == x.id) }

/-- A ring on which none of the commands had reserved a slot stays as it is. -/
theorem Queue.freed_unreserved {as : List Accepted} {x : Queue} (h : ∀ a ∈ as, a.at_.done ≠ x.id) : x.freed as = x := by
  have hzero : as.countP (fun a => a.at_.done == x.id) = 0 := List.countP_eq_zero.mpr fun a ha => by simpa using h a ha
  rw [Queue.freed, hzero, Nat.sub_zero]

theorem State.freeSlot_eq (s : State) (a : Accepted) :
    s.modQueueId a.at_.done (fun x => { x with reserved := x.reserved - 1 }) =
      { s with host := { s.host with queues := s.host.queues.map (Queue.freed [a]) } } := by
  have hqueues : updWhere (fun x => x.id == a.at_.done) (fun x => { x with reserved := x.reserved - 1 }) s.host.queues =
      s.host.queues.map (Queue.freed [a]) := by
    refine List.map_congr_left fun x _ => ?_
    by_cases hx : x.id = a.at_.done
    · simp [Queue.freed, hx]
    · simp [Queue.freed, hx, Ne.symm hx]
  rw [State.modQueueId, hqueues]

theorem Queue.freed_freed (a : Accepted) (as : List Accepted) (x : Queue) : (x.freed [a]).freed as = x.freed (a :: as) := by
  simp only [Queue.freed, List.countP_cons, List.countP_nil, Nat.sub_sub, Nat.zero_add, Nat.add_comm]

/-- The slots are freed one command after another. -/
theorem State.freeSlots_eq (as : List Accepted) (s : State) :
    as.foldl (fun s a => s.modQueueId a.at_.done (fun x => { x with reserved := x.reserved - 1 })) s =
      { s with host := { s.host with queues := s.host.queues.map (Queue.freed as) } } := by
  induction as generalizing s with
  | nil =>
    have hid : s.host.queues.map (Queue.freed []) = s.host.queues :=
      (List.map_congr_left fun x _ => Queue.freed_unreserved (by simp)).trans (List.map_id _)
    rw [hid]
    rfl
  | cons a as ih =>
    rw [List.foldl_cons, ih, State.freeSlot_eq]
    simp only [List.map_map, Function.comp_def, Queue.freed_freed]

/-! ### The queue that goes -/

/-- The commands accepted from a ring that have not taken effect. -/
def State.acceptedFrom (s : State) (q : Queue) : List Accepted := s.host.accepted.filter (fun a => a.at_.queue == q.id)

/-- R201: what a queue leaves behind. -/
theorem State.dropQueue_eq (s : State) (q : Queue) : s.dropQueue q = { s with host := { s.host with
    queues := (s.host.queues.map (Queue.freed (s.acceptedFrom q))).filter (fun x => !(x.fn == q.fn && x.slot == q.slot)),
    accepted := s.host.accepted.filter (fun a => a.at_.queue != q.id),
    freedIds := (q.id, s.clk.tick) :: s.host.freedIds.filter (fun x => s.clk.tick ≤ x.2 + 600) } } := by
  simp only [State.dropQueue, State.freeSlots_eq]
  rfl

/-- No queue is left in the slot of a queue that was dropped. -/
theorem State.queue?_dropQueue (s : State) (q : Queue) : (s.dropQueue q).queue? q.fn q.slot = none := by
  rw [State.queue?, State.dropQueue_eq, List.find?_eq_none]
  intro x hx
  exact ne_true_of_eq_false (Eq.mp (Bool.not_eq_true' _) (List.mem_filter.mp hx).2)

/-- The ID of a dropped queue is taken for 600 ticks more (R201). -/
theorem State.idTaken_dropQueue (s : State) (q : Queue) (c : Clock) (hc : c.tick ≤ s.clk.tick + 600) :
    ({ s.dropQueue q with clk := c } : State).idTaken q.id = true := by
  rw [State.dropQueue_eq]
  simp [State.idTaken, hc]

/-- Every other queue stands, and only the slots that the dropped commands had reserved on it are free again. -/
theorem State.mem_dropQueue {s : State} {q x : Queue} (hx : x ∈ s.host.queues) (hne : ¬(x.fn = q.fn ∧ x.slot = q.slot)) :
    x.freed (s.acceptedFrom q) ∈ (s.dropQueue q).host.queues := by
  rw [State.dropQueue_eq]
  exact List.mem_filter.mpr ⟨List.mem_map_of_mem hx, by simpa [Queue.freed] using Decidable.not_and_iff_not_or_not.mp hne⟩

/-! ### QUEUE_DESTROY, a case for each precondition of Table 6.10 and one for its effect -/

theorem State.queue?_some {s : State} {f : Fn} {slot : Nat} {q : Queue} (h : s.queue? f slot = some q) : q.fn = f ∧ q.slot = slot := by
  simpa using List.find?_some h

section
variable {h : CmdHead} {p : SlotP} {s : State} {q : Queue}

theorem applyQueueDestroy_notFound (hq : s.queue? h.fn p.slot.toNat = none) : applyQueueDestroy h p s = refuse s .notFound := by
  simp only [applyQueueDestroy, hq]

variable (hq : s.queue? h.fn p.slot.toNat = some q)
include hq

theorem applyQueueDestroy_busy (hb : s.queueBound h.fn p.slot.toNat = true ∨ p.slot = h.slot) :
    applyQueueDestroy h p s = refuse s .queueBusy := by
  have hbusy : (s.queueBound h.fn p.slot.toNat || p.slot == h.slot) = true := by simpa using hb
  simp only [applyQueueDestroy, hq, hbusy, if_true]

theorem applyQueueDestroy_destroys (hb : s.queueBound h.fn p.slot.toNat = false) (hown : p.slot ≠ h.slot) :
    applyQueueDestroy h p s = (s.dropQueue q, some ok) := by
  simp [applyQueueDestroy, hq, hb, hown]

end

/-- Settles O18. The queue is dropped in the coming commit's state, whose tick dates the ID that is freed. -/
theorem queueDestroyRemovesTheQueue : Obligations.QueueDestroyRemovesTheQueue := by
  unfold Obligations.QueueDestroyRemovesTheQueue
  intro h p s ha
  refine ⟨fun hq => ringRow_refuses ha (applyQueueDestroy_notFound (s := s.coming) hq), fun q hq =>
    ⟨fun hb => ringRow_refuses ha (applyQueueDestroy_busy (s := s.coming) hq hb), fun hb hown => ?_⟩⟩
  obtain ⟨hfn, hslot⟩ := State.queue?_some hq
  have hdrop := State.dropQueue_eq s.coming q
  obtain ⟨u, hexec, hdone⟩ := ringRow_answers ha (applyQueueDestroy_destroys (s := s.coming) hq hb hown) (by rw [hdrop]; rfl)
  refine ⟨(s.coming.dropQueue q).backTo s.clk, u, hexec, hdone, ?frame, ?gone, fun n hn => ?taken, ?accepted,
    fun x hx hne => ⟨x.freed (s.acceptedFrom q), State.mem_dropQueue (s := s.coming) hx hne, rfl, fun hfree => ?kept⟩⟩
  case frame => rw [hdrop]; rfl
  case gone => exact hfn ▸ hslot ▸ State.queue?_dropQueue s.coming q
  case taken => exact State.idTaken_dropQueue s.coming q _ (show n ≤ s.clk.tick + 1 + 600 by omega)
  case accepted => rw [hdrop]; rfl
  case kept =>
    refine Queue.freed_unreserved fun a hmem => ?_
    obtain ⟨hacc, hring⟩ := List.mem_filter.mp hmem
    exact hfree a hacc (by simpa using hring)

end Sys2Proof.Machine
end

section
/-! DOORBELL: O20. -/

namespace Sys2Proof.Machine

/-! ### Where a doorbell moves its index (R204, Table 6.3) -/

/-- An INDEX is as far ahead of a count as the entries that lead to it. -/
theorem Queue.ahead_eq {q : Queue} {count index n : Nat} (hn : n < q.entries) (hindex : (count + n) % q.entries = index) :
    q.ahead count index = n := by
  have hlt : count % q.entries < q.entries := Nat.mod_lt _ (by omega)
  have hsum : count = q.entries * (count / q.entries) + count % q.entries := (Nat.div_add_mod _ _).symm
  have hwrap : index = (count % q.entries + n) % q.entries := by rw [← hindex, Nat.mod_add_mod]
  rw [Queue.ahead, hwrap]
  rcases Nat.lt_or_ge (count % q.entries + n) q.entries with hfits | hwraps
  · rw [Nat.mod_eq_of_lt hfits, show count % q.entries + n + q.entries - count % q.entries = n + q.entries by omega,
      Nat.add_mod_right, Nat.mod_eq_of_lt hn]
  · rw [Nat.mod_eq_sub_mod hwraps, Nat.mod_eq_of_lt (by omega : count % q.entries + n - q.entries < q.entries),
      show count % q.entries + n - q.entries + q.entries - count % q.entries = n by omega, Nat.mod_eq_of_lt hn]

section
variable {q : Queue} {index n : Nat}

theorem Queue.dbTarget_produced (hp : q.hostProduced = true) (hn : n < q.entries) (hindex : (q.prod + n) % q.entries = index) :
    q.dbTarget index = q.prod + n := by
  rw [Queue.dbTarget, if_pos hp, Queue.ahead_eq hn hindex]

theorem Queue.dbTarget_consumed (hp : q.hostProduced = false) (hn : n < q.entries) (hindex : (q.cons + n) % q.entries = index) :
    q.dbTarget index = q.cons + n := by
  rw [Queue.dbTarget, if_neg (by simp [hp]), Queue.ahead_eq hn hindex]

theorem Queue.dbFits_produced (hp : q.hostProduced = true) :
    q.dbFits index = true ↔ q.dbTarget index - q.cons ≤ q.entries - 1 := by
  simp [Queue.dbFits, hp]

theorem Queue.dbFits_consumed (hp : q.hostProduced = false) : q.dbFits index = true ↔ q.dbTarget index ≤ q.prod := by
  simp [Queue.dbFits, hp]

end

/-! ### What an accepted doorbell does to its ring (R214-R216) -/

section
variable {q : Queue} (v : U64) (tick : Nat) (time : Int)

theorem Queue.ring_produced (hp : q.hostProduced = true) : ∃ ws bs,
    q.ring v tick time = { q with wakes := ws, prod := q.dbTarget (dbIndex v), bells := bs } := by
  unfold Queue.ring
  dsimp only
  by_cases hw : (dbWake v && q.vector.isSome) = true
  · rw [if_pos hw]; exact ⟨_, _, if_pos hp⟩
  · rw [if_neg hw]; exact ⟨_, _, if_pos hp⟩

theorem Queue.ring_consumed (hp : q.hostProduced = false) : ∃ ws,
    q.ring v tick time = { q with wakes := ws, cons := q.dbTarget (dbIndex v) } := by
  unfold Queue.ring
  dsimp only
  by_cases hw : (dbWake v && q.vector.isSome) = true
  · rw [if_pos hw]; exact ⟨_, if_neg (ne_true_of_eq_false hp)⟩
  · rw [if_neg hw]; exact ⟨_, if_neg (ne_true_of_eq_false hp)⟩

end

/-! ### The checks of Table 6.4, in their order -/

section
variable {q : Queue} {slot quota : Nat} {v : U64} {sized : Bool}

theorem doorbellCheck_quota (hslot : quota ≤ slot) : doorbellCheck (some q) slot quota v sized = 1 := if_pos hslot

variable (hslot : slot < quota)
include hslot

theorem doorbellCheck_id (hid : dbCheck v ≠ q.id) : doorbellCheck (some q) slot quota v sized = 2 := by
  simp [doorbellCheck, Nat.not_le.mpr hslot, hid]

variable (hid : dbCheck v = q.id)
include hid

theorem doorbellCheck_reserved (hres : dbReserved v = true) : doorbellCheck (some q) slot quota v sized = 3 := by
  simp [doorbellCheck, Nat.not_le.mpr hslot, hid, hres]

variable (hres : dbReserved v = false)
include hres

theorem doorbellCheck_index (hindex : q.entries ≤ dbIndex v) : doorbellCheck (some q) slot quota v sized = 4 := by
  simp [doorbellCheck, Nat.not_le.mpr hslot, hid, hres, hindex]

variable (hindex : dbIndex v < q.entries)
include hindex

theorem doorbellCheck_stopped (hstop : q.stopped = true) : doorbellCheck (some q) slot quota v sized = 5 := by
  simp [doorbellCheck, Nat.not_le.mpr hslot, hid, hres, Nat.not_le.mpr hindex, hstop]

variable (hstop : q.stopped = false)
include hstop

theorem doorbellCheck_unfit (hfits : q.dbFits (dbIndex v) = false) : doorbellCheck (some q) slot quota v sized = 6 := by
  simp [doorbellCheck, Nat.not_le.mpr hslot, hid, hres, Nat.not_le.mpr hindex, hstop, hfits]

variable (hfits : q.dbFits (dbIndex v) = true)
include hfits

theorem doorbellCheck_unsized (hsized : sized = false) : doorbellCheck (some q) slot quota v sized = 7 := by
  simp [doorbellCheck, hsized, Nat.not_le.mpr hslot, hid, hres, Nat.not_le.mpr hindex, hstop, hfits]

theorem doorbellCheck_passes (hsized : sized = true) : doorbellCheck (some q) slot quota v sized = 0 := by
  simp [doorbellCheck, hsized, Nat.not_le.mpr hslot, hid, hres, Nat.not_le.mpr hindex, hstop, hfits]

end

/-! ### DOORBELL -/

section
variable {i : DoorbellIn} {s : State} (hp : i.poisoned = false) (hopen : s.barOpen i.fn = true)
include hp hopen

theorem exec_doorbell_early (he : (s.fnSt i.fn).sealed = false ∨ s.isReady = false) :
    exec (.doorbell i) s = .next (s.modFn i.fn (fun x => { x with dbDiscarded := true })) := by
  change execDoorbell i s = _
  have hearly : (!(s.fnSt i.fn).sealed || !s.isReady) = true := by simpa using he
  simp only [execDoorbell, hp, hopen, hearly, Bool.not_true, Bool.or_self, Bool.false_eq_true, if_false, if_true]

variable (hs : (s.fnSt i.fn).sealed = true) (hr : s.isReady = true)
include hs hr

/-- A doorbell whose first failing check has this code is counted under it. -/
theorem exec_doorbell_rejects {code : Nat} (hcode : doorbellCheck (s.queue? i.fn i.slot.toNat) i.slot.toNat (s.quotaOf i.fn)
    ((doorbellValue i).getD i.value) (doorbellValue i).isSome = code) (hne : code ≠ 0) :
    exec (.doorbell i) s = .next (s.modFn i.fn (fun x => x.reject i.slot.toNat code)) := by
  change execDoorbell i s = _
  simp only [execDoorbell, hp, hopen, hs, hr, hcode, hne, Bool.not_true, Bool.or_self, Bool.false_eq_true, if_false]

/-- A doorbell that passes every check rings its queue. -/
theorem exec_doorbell_rings (hcode : doorbellCheck (s.queue? i.fn i.slot.toNat) i.slot.toNat (s.quotaOf i.fn)
    ((doorbellValue i).getD i.value) (doorbellValue i).isSome = 0) :
    exec (.doorbell i) s = .next (s.modQueue i.fn i.slot.toNat (fun q =>
      q.ring ((doorbellValue i).getD i.value) s.clk.tick (s.clk.devTimeAt (s.clk.timed i.afterEdgeNs)))) := by
  change execDoorbell i s = _
  simp only [execDoorbell, hp, hopen, hs, hr, hcode, Bool.not_true, Bool.or_self, Bool.false_eq_true, if_false, if_true]

end

/-- Settles O20. The checks are met in the order of Table 6.4; an accepted doorbell rings its queue, which moves the index that host
software owns to the count `n` ahead. -/
theorem doorbellMovesOneIndex : Obligations.DoorbellMovesOneIndex := by
  unfold Obligations.DoorbellMovesOneIndex
  intro i s hp hopen
  refine ⟨exec_doorbell_early hp hopen, fun hs hr => ?_⟩
  have rejects {code : Nat} := exec_doorbell_rejects hp hopen hs hr (code := code)
  refine ⟨fun hq => rejects (by rw [hq]; rfl) (by decide), fun q hq => ?_⟩
  have rings := exec_doorbell_rings hp hopen hs hr
  rw [hq] at rejects rings
  refine ⟨fun hslot => rejects (doorbellCheck_quota hslot) (by decide),
    fun hslot hid => rejects (doorbellCheck_id hslot hid) (by decide),
    fun hslot hid hres => rejects (doorbellCheck_reserved hslot hid hres) (by decide), fun hslot hid hres =>
    ⟨fun hindex => rejects (doorbellCheck_index hslot hid hres hindex) (by decide),
      fun hindex hstop => rejects (doorbellCheck_stopped hslot hid hres hindex hstop) (by decide),
      fun hindex hstop hfits => rejects (doorbellCheck_unfit hslot hid hres hindex hstop hfits) (by decide),
      fun hindex hstop hfits hv => rejects
        (doorbellCheck_unsized hslot hid hres hindex hstop hfits (Option.isSome_eq_false_iff.mpr (by rw [hv]; rfl))) (by decide),
      fun hindex hstop hv hprod n hn hto hroom => ?produced, fun hindex hstop hv hcons n hn hto hroom => ?consumed⟩⟩
  case produced =>
    have htarget := Queue.dbTarget_produced hprod hn hto
    have hfits := (Queue.dbFits_produced hprod).mpr (htarget.symm ▸ hroom)
    refine ⟨_, rings (doorbellCheck_passes hslot hid hres hindex hstop hfits (Option.isSome_iff_exists.mpr ⟨_, hv⟩)), ?_⟩
    obtain ⟨ws, bs, hring⟩ := Queue.ring_produced ((doorbellValue i).getD i.value) s.clk.tick
      (s.clk.devTimeAt (s.clk.timed i.afterEdgeNs)) hprod
    rw [hring]
    exact ⟨htarget, rfl, rfl, hstop, rfl⟩
  case consumed =>
    have htarget := Queue.dbTarget_consumed hcons hn hto
    have hfits := (Queue.dbFits_consumed hcons).mpr (htarget.symm ▸ hroom)
    refine ⟨_, rings (doorbellCheck_passes hslot hid hres hindex hstop hfits (Option.isSome_iff_exists.mpr ⟨_, hv⟩)), ?_⟩
    obtain ⟨ws, hring⟩ := Queue.ring_consumed ((doorbellValue i).getD i.value) s.clk.tick
      (s.clk.devTimeAt (s.clk.timed i.afterEdgeNs)) hcons
    rw [hring]
    exact ⟨htarget, rfl, rfl, hstop⟩

end Sys2Proof.Machine
end

section
/-! COMMAND_ACCEPT: O21. -/

namespace Sys2Proof.Machine

/-! ### Reading a queue after an update of others -/

/-- An update that a search does not see changes only what the search finds. -/
theorem find?_updWhere_unseen {α : Type} {p r : α → Bool} {g : α → α} (hg : ∀ x, r (g x) = r x) (l : List α) :
    (updWhere p g l).find? r = (l.find? r).map (fun x => if p x then g x else x) := by
  have hsame : r ∘ (fun x => if p x then g x else x) = r := funext fun x => by
    dsimp only [Function.comp]
    split
    · exact hg x
    · rfl
  rw [updWhere, List.find?_map, hsame]

section
variable {s : State} {f : Fn} {slot id : Nat} {q : Queue} {g : Queue → Queue}

theorem State.queue?_modQueueId (hq : s.queue? f slot = some q) (hg : ∀ x, (g x).fn = x.fn ∧ (g x).slot = x.slot) {k : Nat} :
    (s.modQueueId k g).queue? f slot = some (if q.id == k then g q else q) :=
  (find?_updWhere_unseen (fun x => by rw [(hg x).1, (hg x).2]) _).trans (congrArg (Option.map _) hq)

theorem State.queueId?_modQueue (hq : s.queueId? id = some q) (hg : ∀ x, (g x).id = x.id) :
    (s.modQueue f slot g).queueId? id = some (if q.fn == f && q.slot == slot then g q else q) :=
  (find?_updWhere_unseen (fun x => by rw [hg x]) _).trans (congrArg (Option.map _) hq)

theorem State.queueId?_modQueueId (hq : s.queueId? id = some q) (hg : ∀ x, (g x).id = x.id) :
    (s.modQueueId id g).queueId? id = some (g q) :=
  (find?_updWhere (fun x hx => by rw [hg x]; exact hx) _).trans (congrArg (Option.map g) hq)

end

/-! ### One command accepted (R221, R222) -/

/-- What accepting command `c`, the last that ring `q` has fetched, does, with a slot of ring `done` reserved for its completion. -/
def State.acceptLast (s : State) (q done : Queue) (f : Fn) (slot due : Nat) (c : FetchedCmd) (b : CmdBody) : State :=
  let s := s.modQueue f slot (fun q => { q with fetched := [] })
  let s := s.modQueueId done.id (fun q => { q with reserved := q.reserved + 1 })
  let s := s.modFn f (fun x => { x with acceptedNow := x.acceptedNow + 1 })
  { s with host := { s.host with accepted := s.host.accepted ++
    [{ at_ := { queue := q.id, pos := c.pos, done := done.id }, due := due, head := c.head, opcode := c.opcode, body := b }] } }

section
variable {s : State} {q done : Queue} {f : Fn} {slot : Nat}

/-- The ring gives up its fetched command and keeps its indices. -/
theorem State.queue?_acceptLast (hq : s.queue? f slot = some q) (hne : done.id ≠ q.id) (due : Nat) (c : FetchedCmd) (b : CmdBody) :
    (s.acceptLast q done f slot due c b).queue? f slot = some { q with fetched := [] } := by
  have hring := State.queue?_modQueue hq (g := fun q => { q with fetched := [] }) fun _ => ⟨rfl, rfl⟩
  have hdone := State.queue?_modQueueId hring (k := done.id) (g := fun q => { q with reserved := q.reserved + 1 })
    fun _ => ⟨rfl, rfl⟩
  rw [if_neg (by simpa using hne.symm)] at hdone
  exact hdone

/-- The completion ring has one slot more reserved. -/
theorem State.queueId?_acceptLast (hd : s.queueId? done.id = some done) (q : Queue) (f : Fn) (slot due : Nat) (c : FetchedCmd)
    (b : CmdBody) : ∃ x, (s.acceptLast q done f slot due c b).queueId? done.id = some x ∧ x.reserved = done.reserved + 1 := by
  have hring := State.queueId?_modQueue (f := f) (slot := slot) hd (g := fun q => { q with fetched := [] }) fun _ => rfl
  refine ⟨_, State.queueId?_modQueueId hring (g := fun q => { q with reserved := q.reserved + 1 }) fun _ => rfl, ?_⟩
  split <;> rfl

theorem State.fnSt_acceptLast (s : State) (q done : Queue) (f : Fn) (slot due : Nat) (c : FetchedCmd) (b : CmdBody) :
    (s.acceptLast q done f slot due c b).fnSt f = { s.fnSt f with acceptedNow := (s.fnSt f).acceptedNow + 1 } :=
  vget_set_self _ _ _

end

/-! ### What holds a command back (R187, R222, R224) -/

/-- The function's 64 commands of the tick, a source that may not be read yet, or a FENCE that waits. -/
def State.holdsBack (s : State) (f : Fn) (q : Queue) (c : FetchedCmd) : Bool :=
  64 ≤ (s.fnSt f).acceptedNow || !s.sourceReadable f c.body || (headFence c.head && !s.fenceOpen q c.pos)

section
variable {s : State} {q done : Queue} {f : Fn} {slot : Nat} {c : FetchedCmd}

theorem State.canReserve_full (hp : q.paired = some done.slot) (hd : s.queue? f done.slot = some done)
    (hfull : done.room ≤ done.reserved + s.unwritten done.id) : s.canReserve f q = none := by
  simp [State.canReserve, hp, hd, hfull]

theorem State.canReserve_room (hp : q.paired = some done.slot) (hd : s.queue? f done.slot = some done)
    (hroom : done.reserved + s.unwritten done.id < done.room) : s.canReserve f q = some done := by
  simp [State.canReserve, hp, hd, hroom]

variable (hq : s.queue? f slot = some q) (hc : q.fetched = [c]) (due : Nat) (sources : List (List Byte))
include hq hc

theorem State.acceptRing_full (hr : s.canReserve f q = none) : s.acceptRing 1 f slot due sources = s := by
  simp only [State.acceptRing, hq, hc, hr]

theorem State.acceptRing_heldBack (hr : s.canReserve f q = some done) (hh : s.holdsBack f q c = true) :
    s.acceptRing 1 f slot due sources = s := by
  simp only [State.acceptRing, hq, hc, hr]
  exact if_pos hh

theorem State.acceptRing_accepts (hr : s.canReserve f q = some done) (hh : s.holdsBack f q c = false) :
    s.acceptRing 1 f slot due sources = s.acceptLast q done f slot due c (withSource c.body sources).1 := by
  simp only [State.acceptRing, hq, hc, hr]
  exact if_neg (ne_true_of_eq_false hh)

end

/-! ### COMMAND_ACCEPT -/

/-- COMMAND_ACCEPT of a live command ring takes its fetched commands (R221), for the commit that the time to the edge leaves (R69). -/
theorem exec_commandAccept {i : AcceptIn} {s : State} {q : Queue} (hr : s.isReady = true) (hs : (s.fnSt i.fn).sealed = true)
    (hb : (s.fnSt i.fn).resetBusy = false) (hq : s.queue? i.fn i.slot.toNat = some q) (hstop : q.stopped = false)
    (ht : q.qtype = .command) : exec (.commandAccept i) s =
      .next (s.acceptRing q.fetched.length i.fn i.slot.toNat (s.rwcDue i.toEdgeNs) i.sources) := by
  change execCommandAccept i s = _
  simp [execCommandAccept, hr, hs, hb, hq, hstop, ht]

/-- Settles O21. A completion ring without room and what `holdsBack` names keep the command; otherwise it is accepted as `acceptLast`
says. -/
theorem commandAcceptTakesTheFirst : Obligations.CommandAcceptTakesTheFirst := by
  unfold Obligations.CommandAcceptTakesTheFirst
  intro i s q cq c hr hs hb hq hstop ht hc hp hd hdone hne
  have hexec := exec_commandAccept hr hs hb hq hstop ht
  rw [hc, List.length_singleton] at hexec
  have hholds : s.holdsBack i.fn q c = true ↔ 64 ≤ (s.fnSt i.fn).acceptedNow ∨ s.sourceReadable i.fn c.body = false ∨
      (headFence c.head = true ∧ s.fenceOpen q c.pos = false) := by
    simp [State.holdsBack, or_assoc]
  rcases Nat.lt_or_ge (cq.reserved + s.unwritten cq.id) cq.room with hroom | hfull
  case inr =>
    rw [State.acceptRing_full hq hc _ _ (State.canReserve_full hp hd hfull)] at hexec
    exact ⟨fun _ => hexec, fun hfree => absurd (.inr (.inl hfull)) hfree⟩
  case inl =>
    have hslot := State.canReserve_room hp hd hroom
    refine ⟨fun hwaits => ?_, fun hfree => ?_⟩
    · have hheld := hholds.mpr (hwaits.imp_right fun h => h.resolve_left (Nat.not_le.mpr hroom))
      rw [State.acceptRing_heldBack hq hc _ _ hslot hheld] at hexec
      exact hexec
    · have hheld : s.holdsBack i.fn q c = false :=
        Bool.eq_false_iff.mpr fun h => hfree ((hholds.mp h).imp_right .inr)
      rw [State.acceptRing_accepts hq hc _ _ hslot hheld] at hexec
      exact ⟨_, _, hexec, rfl, ⟨_, State.queue?_acceptLast hq hne _ _ _, rfl, rfl, rfl⟩, State.queueId?_acceptLast hdone _ _ _ _ _ _,
        by rw [State.fnSt_acceptLast], rfl, rfl, rfl, rfl, rfl⟩

end Sys2Proof.Machine
end

section
/-! TABLE_WRITE: O26. -/

namespace Sys2Proof.Machine

/-! ### A change of one stream, and of one tenant -/

/-- The stream that a table is for, where it is for one, changed. -/
def State.onStream (s : State) (x : Option Stream) (g : Stream → Stream) : State :=
  match x with
  | some y => s.modStream y.handle g
  | none => s

/-- The tenant of a function, where it has one, changed. -/
def State.onTenant (s : State) (f : Fn) (g : TenantSt → TenantSt) : State :=
  match tenantOf f with
  | some t => s.modTenant t g
  | none => s

theorem State.onStream_same (s : State) (x : Option Stream) : s.onStream x (fun y => y) = s := by
  cases x with
  | none => rfl
  | some y => simp only [State.onStream, State.modStream, updWhere, ite_self, List.map_id']

/-- A stream that the table is not for stays. -/
theorem State.mem_onStream {s : State} {x : Option Stream} {g : Stream → Stream} {z : Stream} (hz : z ∈ s.work.streams)
    (hne : ∀ y, x = some y → z.handle ≠ y.handle) : z ∈ (s.onStream x g).work.streams := by
  cases x with
  | none => exact hz
  | some y => exact List.mem_map.mpr ⟨z, hz, if_neg (by simpa using hne y rfl)⟩

/-- The stream that the table is for stands as the change leaves it. -/
theorem State.onStream_changed {s : State} {y z : Stream} {g : Stream → Stream}
    (hz : z ∈ (s.onStream (some y) g).work.streams) (hh : z.handle = y.handle) : ∃ x, z = g x := by
  obtain ⟨x, -, rfl⟩ := List.mem_map.mp hz
  dsimp only at hh ⊢
  split at hh
  · exact ⟨x, if_pos ‹_›⟩
  · next hx => exact absurd hh (by simpa using hx)

theorem State.onTenant_streams (s : State) (f : Fn) (g : TenantSt → TenantSt) : (s.onTenant f g).work.streams = s.work.streams := by
  unfold State.onTenant
  split <;> rfl

theorem State.tenantSt_onTenant (s : State) {f : Fn} {t : Tenant} (ht : tenantOf f = some t) (g : TenantSt → TenantSt) :
    (s.onTenant f g).tenantSt t = g (s.tenantSt t) := by
  simp only [State.onTenant, ht, State.tenantSt_modTenant]

theorem State.onTenant_same (s : State) (f : Fn) : s.onTenant f (fun y => y) = s := by
  unfold State.onTenant
  split
  · next t _ =>
    have hset : s.work.tenants.set t.val (s.work.tenants.get t) = s.work.tenants := Vector.set_getElem_self t.isLt
    rw [State.modTenant, hset]
  · rfl

/-- R72: the epoch that a table touches is that of the function's tenant. -/
theorem State.touchEpoch_eq (s : State) (f : Fn) : s.touchEpoch f = s.onTenant f (fun x => { x with epochTouched := true }) := rfl

/-- `v` is `s` but for its streams, its tenants and its balance policy. -/
def StoresOnly (s v : State) : Prop :=
  v = { s with work := { s.work with streams := v.work.streams, tenants := v.work.tenants, balance := v.work.balance } }

theorem StoresOnly.trans {s u v : State} (h : StoresOnly s u) (k : StoresOnly u v) : StoresOnly s v := by
  rw [StoresOnly] at h k ⊢
  rw [h] at k
  exact k

theorem State.onStream_storesOnly (s : State) (x : Option Stream) (g : Stream → Stream) : StoresOnly s (s.onStream x g) := by
  cases x <;> rfl

theorem State.onTenant_storesOnly (s : State) (f : Fn) (g : TenantSt → TenantSt) : StoresOnly s (s.onTenant f g) := by
  unfold State.onTenant
  split <;> rfl

/-! ### A table in force (R659, R72) -/

/-- What a table changes of the stream that it is for. -/
def TableContent.onStream (c : TableContent) (x : Stream) : Stream :=
  match c with
  | .binding es => { x with binding := es }
  | .zones zs ls => { x with zones := zs, lines := ls }
  | .rules rs => { x with rules := rs }
  | .filter b => { x with filter := some b }
  | .subscribers ts => { x with subscribers := ts }
  | .format _ => x
  | .balance _ => x

/-- A table other than the balance policy changes its stream, or its tenant, and touches the tenant's epoch. -/
theorem State.storeTable_eq (s : State) (f : Fn) (x : Option Stream) {c : TableContent} (hc : ∀ b, c ≠ .balance b) :
    ∃ g : TenantSt → TenantSt, s.storeTable f x c = ((s.onStream x c.onStream).onTenant f g).touchEpoch f ∧
      ∀ r, c = .format r → ∀ y, (g y).format = r := by
  have plain (u : State) : u.touchEpoch f = (u.onTenant f (fun y => y)).touchEpoch f := by rw [State.onTenant_same]
  cases c with
  | binding es => exact ⟨fun y => y, plain _, nofun⟩
  | zones zs ls => exact ⟨fun y => y, plain _, nofun⟩
  | rules rs => exact ⟨fun y => y, plain _, nofun⟩
  | subscribers ts => exact ⟨fun y => y, plain _, nofun⟩
  | filter b => cases x with
    | none => exact ⟨fun y => { y with filter := b }, rfl, nofun⟩
    | some z => exact ⟨fun y => y, plain _, nofun⟩
  | format r =>
    refine ⟨fun y => { y with format := r }, ?_, fun r' hr y => by cases hr; rfl⟩
    have hsame : s.onStream x (TableContent.format r).onStream = s := s.onStream_same x
    rw [hsame]
    rfl
  | balance b => exact absurd rfl (hc b)

theorem State.storeTable_storesOnly (s : State) (f : Fn) (x : Option Stream) (c : TableContent) :
    StoresOnly s (s.storeTable f x c) := by
  by_cases hc : ∃ b, c = .balance b
  · obtain ⟨b, rfl⟩ := hc
    rfl
  · obtain ⟨g, hstore, -⟩ := s.storeTable_eq f x (c := c) (fun b hb => hc ⟨b, hb⟩)
    rw [hstore, State.touchEpoch_eq]
    exact ((s.onStream_storesOnly x _).trans (State.onTenant_storesOnly _ f g)).trans (State.onTenant_storesOnly _ f _)

theorem State.storeTable_streams (s : State) (f : Fn) (x : Option Stream) (c : TableContent) :
    (s.storeTable f x c).work.streams = (s.onStream x c.onStream).work.streams := by
  by_cases hc : ∃ b, c = .balance b
  · obtain ⟨b, rfl⟩ := hc
    have hsame : s.onStream x (TableContent.balance b).onStream = s := s.onStream_same x
    rw [hsame]
    rfl
  · obtain ⟨g, hstore, -⟩ := s.storeTable_eq f x (c := c) (fun b hb => hc ⟨b, hb⟩)
    rw [hstore, State.touchEpoch_eq, State.onTenant_streams, State.onTenant_streams]

theorem State.storeTable_tenant (s : State) {f : Fn} {t : Tenant} (ht : tenantOf f = some t) (x : Option Stream) {c : TableContent}
    (hc : ∀ b, c ≠ .balance b) : ((s.storeTable f x c).tenantSt t).epochTouched = true ∧
      ∀ r, c = .format r → ((s.storeTable f x c).tenantSt t).format = r := by
  obtain ⟨g, hstore, hformat⟩ := s.storeTable_eq f x hc
  rw [hstore, State.touchEpoch_eq, State.tenantSt_onTenant _ ht, State.tenantSt_onTenant _ ht]
  exact ⟨rfl, fun r hr => hformat r hr _⟩

/-! ### TABLE_WRITE, a case for each way that R659 ends it -/

section
variable {h : CmdHead} {p : TableWriteP} {s : State}

theorem applyTableWrite_targetFault {a : Answer} (ht : s.tableTarget h.fn p = .error a) : applyTableWrite h p s = (s, some a) := by
  simp only [applyTableWrite, ht]

variable {x : Option Stream} (ht : s.tableTarget h.fn p = .ok x)
include ht

theorem applyTableWrite_unreached (hr : s.reaches h.fn p.source.toNat p.bytes.toNat false = false) :
    applyTableWrite h p s = (s.addressFault h.fn 0xFFFF p.source.toNat false, some (failAt .addressFault 0x10)) := by
  simp only [applyTableWrite, ht, State.cmdAddress_unreached hr]

variable (hr : s.reaches h.fn p.source.toNat p.bytes.toNat false = true)
include hr

theorem applyTableWrite_bytesFault {a : Answer} (hb : checkTable p.table.toNat p.bytes.toNat p.data = .error a) :
    applyTableWrite h p s = (s, some a) := by
  simp only [applyTableWrite, ht, State.cmdAddress_reached hr, hb]

variable {c : TableContent} (hb : checkTable p.table.toNat p.bytes.toNat p.data = .ok c)
include hb

theorem applyTableWrite_rulesFault {a : Answer} (hrules : s.tableRules h.fn x c = some a) : applyTableWrite h p s = (s, some a) := by
  simp only [applyTableWrite, ht, State.cmdAddress_reached hr, hb, hrules]

theorem applyTableWrite_stores (hrules : s.tableRules h.fn x c = none) :
    applyTableWrite h p s = (s.storeTable h.fn x c, some (okWith (le 4 0xFFFFFFFF))) := by
  simp only [applyTableWrite, ht, State.cmdAddress_reached hr, hb, hrules]

end

/-- Settles O26. No check reads the clock; sound bytes are stored in the coming commit's state, which is what `storeTable_streams`
and `storeTable_tenant` say. -/
theorem tableWriteChecksThenStores : Obligations.TableWriteChecksThenStores := by
  unfold Obligations.TableWriteChecksThenStores
  intro h p s ha
  refine ⟨fun a ht => ringRow_unchanged ha (applyTableWrite_targetFault (s := s.coming) ht), fun x ht =>
    ⟨fun hr => ringRow_addressFault ha (applyTableWrite_unreached (s := s.coming) ht hr), fun hr =>
      ⟨fun a hb => ringRow_unchanged ha (applyTableWrite_bytesFault (s := s.coming) ht hr hb), fun c hb =>
        ⟨fun a hrules => ringRow_unchanged ha (applyTableWrite_rulesFault (s := s.coming) ht hr hb hrules), fun hrules => ?_⟩⟩⟩⟩
  have hstores := s.coming.storeTable_storesOnly h.fn x c
  have hstreams := s.coming.storeTable_streams h.fn x c
  have changed {y z : Stream} (hx : x = some y) (hz : z ∈ (s.coming.storeTable h.fn x c).work.streams)
      (hh : z.handle = y.handle) : ∃ w, z = c.onStream w := by
    rw [hstreams, hx] at hz
    exact State.onStream_changed hz hh
  obtain ⟨u, hexec, hdone⟩ :=
    ringRow_answers ha (applyTableWrite_stores (s := s.coming) ht hr hb hrules) (by rw [hstores]; rfl)
  refine ⟨(s.coming.storeTable h.fn x c).backTo s.clk, u, hexec, hdone, ?only, fun z hz hne => ?others,
    fun zs ls y hc hx z hz hh => ?zones, fun rs y hc hx z hz hh => ?rules, fun es y hc hx z hz hh => ?binding,
    fun ts y hc hx z hz hh => ?subscribers, fun b y hc hx z hz hh => ?filter, fun b hc => ?balance, fun r t hc htenant => ?format, fun t htenant hc => ?touched⟩
  case only => exact congrArg (State.backTo · s.clk) hstores
  case others => exact hstreams ▸ State.mem_onStream (s := s.coming) hz hne
  case zones =>
    obtain ⟨w, rfl⟩ := changed hx hz hh
    subst hc
    exact ⟨rfl, rfl⟩
  case rules | binding | subscribers | filter =>
    obtain ⟨w, rfl⟩ := changed hx hz hh
    subst hc
    rfl
  case balance => subst hc; rfl
  case format => exact (s.coming.storeTable_tenant htenant x (by simp [hc])).2 r hc
  case touched => exact (s.coming.storeTable_tenant htenant x hc).1

end Sys2Proof.Machine
end

section
/-! STREAM_OPEN: O23. -/

namespace Sys2Proof.Machine

/-- No test of admission reads the clock (Table 15.3): a profile is admitted at the coming commit as it is before it. -/
theorem State.admitReason_coming (s : State) (others : List Load) (prof : Profile) :
    s.coming.admitReason others prof = s.admitReason others prof := rfl

/-! ### STREAM_OPEN, a case for each check of Table 7.1 and one for its effect -/

section
variable {h : CmdHead} {p : StreamOpenP} {s : State}

theorem applyStreamOpen_noIngestRing (hring : s.queueIs h.fn p.ingestSlot.toNat .ingest = false) :
    applyStreamOpen h p s = refuse s .notFound := by
  simp only [applyStreamOpen, hring, Bool.not_false, if_true]

variable (hring : s.queueIs h.fn p.ingestSlot.toNat .ingest = true)
include hring

theorem applyStreamOpen_ringBusy (hbound : s.ingestBound h.fn p.ingestSlot.toNat = true) :
    applyStreamOpen h p s = refuse s .queueBusy := by
  simp only [applyStreamOpen, hring, hbound, Bool.not_true, Bool.false_eq_true, if_false, if_true]

variable (hbound : s.ingestBound h.fn p.ingestSlot.toNat = false)
include hbound

theorem applyStreamOpen_noObject
    (hno : s.queueIs h.fn p.metadataSlot.toNat .metadata = false ∨ s.image? h.fn p.model.toNat = none) :
    applyStreamOpen h p s = refuse s .notFound := by
  rcases hno with hmeta | himage
  · simp only [applyStreamOpen, hring, hbound, hmeta, Bool.not_true, Bool.not_false, Bool.false_eq_true, if_false, if_true]
  · cases ht : tenantOf h.fn with
    | none => simp only [applyStreamOpen, hring, hbound, himage, ht, Bool.not_true, Bool.false_eq_true, if_false, ite_self]
    | some t => simp only [applyStreamOpen, hring, hbound, himage, ht, Bool.not_true, Bool.false_eq_true, if_false, ite_self]

variable (hmeta : s.queueIs h.fn p.metadataSlot.toNat .metadata = true) {t : Tenant} (ht : tenantOf h.fn = some t)
  {m : ModelImage} (hm : s.image? h.fn p.model.toNat = some m)
include hmeta ht hm

theorem applyStreamOpen_classifies (hc : m.classifies = true) :
    applyStreamOpen h p s = (s, some (failAt .invalidField 0x0C)) := by
  simp only [applyStreamOpen, hring, hbound, hmeta, ht, hm, hc, Bool.not_true, Bool.false_eq_true, if_false, if_true]

variable (hc : m.classifies = false)
include hc

theorem applyStreamOpen_outOfRange {o : Nat} (ho : openRange p = some o) :
    applyStreamOpen h p s = (s, some (failAt .invalidField o)) := by
  simp only [applyStreamOpen, hring, hbound, hmeta, ht, hm, hc, ho, Bool.not_true, Bool.false_eq_true, if_false]

variable (ho : openRange p = none)
include ho

theorem applyStreamOpen_evacuating (he : s.work.evacuating = true) :
    applyStreamOpen h p s = (s, some (admissionRefused 0x01)) := by
  simp only [applyStreamOpen, hring, hbound, hmeta, ht, hm, hc, ho, he, Bool.not_true, Bool.false_eq_true, if_false, if_true]

variable (he : s.work.evacuating = false)
include he

theorem applyStreamOpen_notAdmitted {r : Nat} (hr : s.admitReason (s.loadsWithout none) (s.openProfile h.fn p) = some r) :
    applyStreamOpen h p s = (s, some (admissionRefused r)) := by
  simp only [applyStreamOpen, hring, hbound, hmeta, ht, hm, hc, ho, he, hr, Bool.not_true, Bool.false_eq_true, if_false]

variable (hr : s.admitReason (s.loadsWithout none) (s.openProfile h.fn p) = none)
include hr

theorem applyStreamOpen_noHandle (hn : s.freeHandle t (classOf p.cls.toNat) = none) :
    applyStreamOpen h p s = (s, some (admissionRefused 0x01)) := by
  simp only [applyStreamOpen, hring, hbound, hmeta, ht, hm, hc, ho, he, hr, hn, Bool.not_true, Bool.false_eq_true, if_false]

theorem applyStreamOpen_opens {n : Nat} (hn : s.freeHandle t (classOf p.cls.toNat) = some n) :
    applyStreamOpen h p s = (s.addStream (newStream h.fn p n s.clk.tick), some (okWith (le 2 n ++ le 2 0))) := by
  simp only [applyStreamOpen, hring, hbound, hmeta, ht, hm, hc, ho, he, hr, hn, Bool.not_true, Bool.false_eq_true, if_false]

end

/-- Settles O23. Of the checks only the choice of the handle reads the clock (R246), and it is the coming commit's; the stream that is
added is `newStream` with that commit's tick. -/
theorem streamOpenAdmits : Obligations.StreamOpenAdmits := by
  unfold Obligations.StreamOpenAdmits
  intro h p s ha
  refine ⟨fun hring => ?noRing, fun hring hbound => ?busy, fun hring hbound => ⟨fun hno => ?noObject, fun hmeta t m ht hm =>
    ⟨fun hc => ?classifies, fun hc o ho => ?range, fun hc ho => ⟨fun he => ?evacuating, fun he => ⟨fun r hr => ?refused, fun hr =>
      ⟨fun hn => ?noHandle, fun n hn => ?opens⟩⟩⟩⟩⟩⟩
  case noRing => exact ringRow_refuses ha (applyStreamOpen_noIngestRing (s := s.coming) hring)
  case busy => exact ringRow_refuses ha (applyStreamOpen_ringBusy (s := s.coming) hring hbound)
  case noObject => exact ringRow_refuses ha (applyStreamOpen_noObject (s := s.coming) hring hbound hno)
  case classifies => exact ringRow_unchanged ha (applyStreamOpen_classifies (s := s.coming) hring hbound hmeta ht hm hc)
  case range => exact ringRow_unchanged ha (applyStreamOpen_outOfRange (s := s.coming) hring hbound hmeta ht hm hc ho)
  case evacuating => exact ringRow_unchanged ha (applyStreamOpen_evacuating (s := s.coming) hring hbound hmeta ht hm hc ho he)
  case refused =>
    exact ringRow_unchanged ha (applyStreamOpen_notAdmitted (s := s.coming) hring hbound hmeta ht hm hc ho he
      ((s.admitReason_coming _ _).trans hr))
  case noHandle =>
    exact ringRow_unchanged ha (applyStreamOpen_noHandle (s := s.coming) hring hbound hmeta ht hm hc ho he
      ((s.admitReason_coming _ _).trans hr) hn)
  case opens =>
    obtain ⟨u, hexec, hdone⟩ := ringRow_answers ha (applyStreamOpen_opens (s := s.coming) hring hbound hmeta ht hm hc ho he
      ((s.admitReason_coming _ _).trans hr) hn) rfl
    exact ⟨newStream h.fn p n (s.clk.tick + 1), u, hexec, hdone, rfl, rfl, rfl, rfl, rfl, rfl, rfl, rfl, rfl, rfl, rfl, rfl, rfl⟩

end Sys2Proof.Machine
end

section
/-! STREAM_CLOSE and STREAM_MODIFY: O24. -/

namespace Sys2Proof.Machine

/-! ### STREAM_CLOSE (R255) -/

/-- Freeing buffers changes the pools alone (R422). -/
theorem State.freeBuffers_eq (p : Nat) (handles : List Nat) (s : State) :
    ∃ x : Pools, s.freeBuffers p handles = { s with pools := x } := by
  induction handles generalizing s with
  | nil => exact ⟨s.pools, rfl⟩
  | cons n handles ih =>
    have hone : ∃ x : Pools, s.freeBuffer p n = { s with pools := x } := by
      unfold State.freeBuffer
      split
      · split
        · exact ⟨s.pools, rfl⟩
        · exact ⟨_, rfl⟩
      · exact ⟨s.pools, rfl⟩
    obtain ⟨x, hx⟩ := hone
    obtain ⟨y, hy⟩ := ih (s.freeBuffer p n)
    exact ⟨y, hy.trans (by rw [hx])⟩

/-- R255: a stream once STREAM_CLOSE has taken effect on it. -/
def Stream.closed (x : Stream) : Stream := { x with closing := true, openPic := none, waiting := [] }

theorem State.beginClose_eq (s : State) (x : Stream) :
    ∃ y : Pools, s.beginClose x = { s.onStream (some x) Stream.closed with pools := y } := by
  obtain ⟨y, hy⟩ := State.freeBuffers_eq (s.partOf x.fn) x.waitingBuffers s
  exact ⟨y, by rw [State.beginClose, hy]; rfl⟩

section
variable {h : CmdHead} {p : HandleP} {s : State}

theorem applyStreamClose_notFound {pos : Option RingPos} (hx : s.liveStream? h.fn p.handle.toNat = none) :
    applyStreamClose h pos p s = refuse s .notFound := by
  simp only [applyStreamClose, hx]

theorem applyStreamClose_begins {pos : Option RingPos} {x : Stream} (hx : s.liveStream? h.fn p.handle.toNat = some x) :
    applyStreamClose h pos p s = ((s.beginClose x).beginWork h 0x31 pos (.streamClose x.handle), none) := by
  simp only [applyStreamClose, hx]

end

/-- An admissible STREAM_CLOSE closes its stream, and its work begins. -/
theorem exec_streamClose_begins {h : CmdHead} {p : HandleP} {s : State} {x : Stream} (ha : Admissible s h (.streamClose p))
    (hx : s.liveStream? h.fn p.handle.toNat = some x) : ∃ y : Pools, exec (.streamClose h p) s = .next
      { s.onStream (some x) Stream.closed with
        pools := y, host := { s.host with works := s.host.works ++ [begun s h 0x31 (.streamClose x.handle)] } } := by
  obtain ⟨y, hy⟩ := s.coming.beginClose_eq x
  refine ⟨y, (ringRow_works ha (applyStreamClose_begins (s := s.coming) hx)).trans ?_⟩
  rw [hy]
  rfl

/-! ### STREAM_MODIFY, a case for each way that it ends (R250, R251, R259, R261) -/

/-- Touching an epoch leaves the clock. -/
theorem State.touchEpoch_clk (s : State) (f : Fn) : (s.touchEpoch f).clk = s.clk := by
  rw [State.touchEpoch_eq, State.onTenant_storesOnly s f]

/-- The epoch touched at the coming commit is the one that the row's own state names. -/
theorem State.touchEpoch_coming (s : State) (f : Fn) : s.coming.touchEpoch f = (s.touchEpoch f).coming := by
  unfold State.touchEpoch
  split <;> rfl

/-- An admissible command that leaves, of the coming commit, another state of the same clock and its answer. -/
theorem ringRow_answers_coming {s v : State} {h : CmdHead} {c : RingCmd} {eff : CmdEffect} {a : Answer} (ha : Admissible s h c)
    (he : eff s.coming = (v.coming, some a)) (hv : v.clk = s.clk) :
    ∃ t, s.ringRow h c eff = .next t ∧ Completes v t h (opcodeOf c) a.status a.offset a.result := by
  obtain ⟨t, hrow, hdone⟩ := ringRow_answers ha he (congrArg (·.tick + 1) hv)
  have hback : v.coming.backTo s.clk = v := hv ▸ coming_backTo v
  exact ⟨t, hrow, hback ▸ hdone⟩

/-- The model that a change names, where it names one, is loaded and may be a primary model (R259). -/
def State.modelOk (s : State) (f : Fn) (p : StreamModifyP) : Prop :=
  p.change.getLsbD 1 = true → ∃ m, s.image? f p.model.toNat = some m ∧ m.classifies = false

/-- A change that names no model needs none. -/
theorem State.modelOk_of_kept (s : State) (f : Fn) {p : StreamModifyP} (hmodel : p.change.getLsbD 1 = false) : s.modelOk f p :=
  fun hm => absurd (hmodel.symm.trans hm) Bool.false_ne_true

/-- Neither test of the model that a change names fails. -/
theorem State.modelOk_guards {s : State} {f : Fn} {p : StreamModifyP} (hok : s.modelOk f p) :
    (p.change.getLsbD 1 && (s.image? f p.model.toNat).isNone) = false ∧
      (p.change.getLsbD 1 && ((s.image? f p.model.toNat).map ModelImage.classifies).getD false) = false := by
  unfold State.modelOk at hok
  cases hmodel : p.change.getLsbD 1 with
  | false => exact ⟨rfl, rfl⟩
  | true =>
    obtain ⟨m, hm, hc⟩ := hok hmodel
    rw [hm]
    exact ⟨rfl, hc⟩

/-- The state with stream `x` changed to `y`: a change of the model touches the function's epoch (R261). -/
def State.replaceStream (s : State) (f : Fn) (p : StreamModifyP) (x y : Stream) : State :=
  if p.change.getLsbD 1 then (s.modStream x.handle (fun _ => y)).touchEpoch f else s.modStream x.handle (fun _ => y)

theorem State.replaceStream_model (s : State) (f : Fn) {p : StreamModifyP} (hmodel : p.change.getLsbD 1 = true) (x y : Stream) :
    s.replaceStream f p x y = (s.modStream x.handle (fun _ => y)).touchEpoch f := if_pos hmodel

theorem State.replaceStream_kept (s : State) (f : Fn) {p : StreamModifyP} (hmodel : p.change.getLsbD 1 = false) (x y : Stream) :
    s.replaceStream f p x y = s.modStream x.handle (fun _ => y) := if_neg (ne_true_of_eq_false hmodel)

theorem State.replaceStream_clk (s : State) (f : Fn) (p : StreamModifyP) (x y : Stream) : (s.replaceStream f p x y).clk = s.clk := by
  unfold State.replaceStream
  split
  · exact State.touchEpoch_clk _ f
  · rfl

theorem State.replaceStream_coming (s : State) (f : Fn) (p : StreamModifyP) (x y : Stream) :
    s.coming.replaceStream f p x y = (s.replaceStream f p x y).coming := by
  unfold State.replaceStream
  split
  · exact State.touchEpoch_coming (s.modStream x.handle (fun _ => y)) f
  · rfl

section
variable {h : CmdHead} {p : StreamModifyP} {s : State}

theorem applyStreamModify_notFound (hx : s.liveStream? h.fn p.handle.toNat = none) :
    applyStreamModify h p s = refuse s .notFound := by
  simp only [applyStreamModify, hx]

variable {x : Stream} (hx : s.liveStream? h.fn p.handle.toNat = some x)
include hx

theorem applyStreamModify_noModel (hmodel : p.change.getLsbD 1 = true) (hm : s.image? h.fn p.model.toNat = none) :
    applyStreamModify h p s = refuse s .notFound := by
  simp only [applyStreamModify, hx, hmodel, hm, Option.isNone_none, Bool.and_self, if_true]

theorem applyStreamModify_classifies {m : ModelImage} (hmodel : p.change.getLsbD 1 = true)
    (hm : s.image? h.fn p.model.toNat = some m) (hc : m.classifies = true) :
    applyStreamModify h p s = (s, some (failAt .invalidField 0x0C)) := by
  simp only [applyStreamModify, hx, hmodel, hm, hc, Option.isNone_some, Option.map_some, Option.getD_some, Bool.and_false,
    Bool.and_self, Bool.false_eq_true, if_false, if_true]

variable (hok : s.modelOk h.fn p)
include hok

theorem applyStreamModify_notAdmitted {r : Nat} (hre : readmits p = true)
    (hr : s.admitReason (s.loadsWithout (some x.handle)) (s.profileOf (x.modify p s.clk.tick)) = some r) :
    applyStreamModify h p s = (s, some (admissionRefused r)) := by
  obtain ⟨hnone, hkind⟩ := State.modelOk_guards hok
  simp only [applyStreamModify, hx, hnone, hkind, hre, hr, Bool.false_eq_true, if_false, if_true]

theorem applyStreamModify_modifies
    (hr : readmits p = true → s.admitReason (s.loadsWithout (some x.handle)) (s.profileOf (x.modify p s.clk.tick)) = none) :
    applyStreamModify h p s = (s.replaceStream h.fn p x (x.modify p s.clk.tick), some ok) := by
  have hadmit := ite_eq_right_iff.mpr hr
  obtain ⟨hnone, hkind⟩ := State.modelOk_guards hok
  simp only [applyStreamModify, hx, hnone, hkind, hadmit, Bool.false_eq_true, if_false]
  rfl

end

/-- A change of the model is admitted anew (R251). -/
theorem readmits_of_model {p : StreamModifyP} (hmodel : p.change.getLsbD 1 = true) : readmits p = true := by
  simp only [readmits, hmodel, Bool.or_true, Bool.true_or]

section
variable {h : CmdHead} {p : StreamModifyP} {s : State} {x : Stream} (ha : Admissible s h (.streamModify p))
  (hx : s.liveStream? h.fn p.handle.toNat = some x) (hok : s.modelOk h.fn p)
include ha hx hok

theorem exec_streamModify_notAdmitted (hre : readmits p = true) {r : Nat}
    (hr : s.admitReason (s.loadsWithout (some x.handle)) (s.profileOf (x.modify p (s.clk.tick + 1))) = some r) :
    ∃ u, exec (.streamModify h p) s = .next u ∧ Completes s u h 0x32 .admissionRefused 0xFFFF (admissionRefused r).result :=
  ringRow_unchanged ha (applyStreamModify_notAdmitted (s := s.coming) hx hok hre ((s.admitReason_coming _ _).trans hr))

theorem exec_streamModify_modifies (hr : readmits p = true →
      s.admitReason (s.loadsWithout (some x.handle)) (s.profileOf (x.modify p (s.clk.tick + 1))) = none) :
    ∃ u, exec (.streamModify h p) s = .next u ∧
      Completes (s.replaceStream h.fn p x (x.modify p (s.clk.tick + 1))) u h 0x32 .success 0xFFFF [] :=
  have hmodifies := applyStreamModify_modifies (s := s.coming) hx hok fun hre => (s.admitReason_coming _ _).trans (hr hre)
  ringRow_answers_coming (a := ok) ha (hmodifies.trans (congrArg (·, some ok) (State.replaceStream_coming ..)))
    (State.replaceStream_clk ..)

end

/-- Settles O24. A change is admitted and made as of the coming commit, whose tick is where the tokens of a new rate count from. -/
theorem streamsCloseAndChange : Obligations.StreamsCloseAndChange := by
  unfold Obligations.StreamsCloseAndChange
  refine ⟨fun h p s ha => ⟨fun hx => ?unknown, fun x hx => ?closes⟩, fun h p s ha => ⟨fun hx => ?noStream, fun x hx =>
    ⟨fun hmodel hm => ?noModel, fun m hmodel hm => ⟨fun hc => ?classifies, fun hc => ?model⟩, fun hmodel => ?keepsModel⟩⟩⟩
  case unknown => exact ringRow_refuses ha (applyStreamClose_notFound (s := s.coming) hx)
  case closes =>
    obtain ⟨y, hexec⟩ := exec_streamClose_begins ha hx
    refine ⟨_, hexec, rfl, fun z hz hh => ?_, fun z hz hne => State.mem_onStream hz fun w hw => Option.some.inj hw ▸ hne⟩
    obtain ⟨w, rfl⟩ := State.onStream_changed hz hh
    exact ⟨rfl, rfl, rfl⟩
  case noStream => exact ringRow_refuses ha (applyStreamModify_notFound (s := s.coming) hx)
  case noModel => exact ringRow_refuses ha (applyStreamModify_noModel (s := s.coming) hx hmodel hm)
  case classifies => exact ringRow_unchanged ha (applyStreamModify_classifies (s := s.coming) hx hmodel hm hc)
  case model =>
    have hok : s.modelOk h.fn p := fun _ => ⟨m, hm, hc⟩
    rw [← State.replaceStream_model s h.fn hmodel]
    exact ⟨fun r => exec_streamModify_notAdmitted ha hx hok (readmits_of_model hmodel),
      fun hr => exec_streamModify_modifies ha hx hok fun _ => hr⟩
  case keepsModel =>
    have hok := s.modelOk_of_kept h.fn hmodel
    rw [← State.replaceStream_kept s h.fn hmodel]
    exact ⟨fun r hre => exec_streamModify_notAdmitted ha hx hok hre, fun _ hr => exec_streamModify_modifies ha hx hok fun _ => hr,
      fun hre => exec_streamModify_modifies ha hx hok fun hre' => absurd (hre.symm.trans hre') Bool.false_ne_true⟩

end Sys2Proof.Machine
end

section
/-! STREAM_CLOSE_COMPLETE, the end of closed streams, and TOKEN_REFILL: O25. -/

namespace Sys2Proof.Machine

/-! ### A stream that ends (R256, R424) -/

theorem State.closeOwner_eq (s : State) (p : Nat) (o : Owner) (session : Option (Fn × Nat)) :
    ∃ x : Pools, s.closeOwner p o session = { s with pools := x } := by
  unfold State.closeOwner
  split
  · exact ⟨_, rfl⟩
  · exact ⟨s.pools, rfl⟩

/-- What the work holds once the stream of a handle is gone: the handle rests (R247). -/
def State.withoutStream (s : State) (handle : Nat) : WorkSt :=
  { s.work with
    streams := s.work.streams.filter (fun y => y.handle != handle),
    freedHandles := (handle, s.clk.tick) :: s.work.freedHandles.filter (fun y => decide (s.clk.tick ≤ y.2 + 600)) }

/-- R256: beyond the stream itself, its removal changes its ring and the pools. -/
theorem State.removeStream_eq (s : State) (x : Stream) : ∃ (qs : List Queue) (y : Pools), s.removeStream x =
    { s with host := { s.host with queues := qs }, pools := y, work := s.withoutStream x.handle } := by
  obtain ⟨y, hy⟩ := State.freeBuffers_eq (s.partOf x.fn) x.buffers
    (s.modQueue x.fn x.ingestSlot (fun q => { q with cons := q.prod, fetchPos := q.prod, donePos := [], bells := [] }))
  rw [State.removeStream, hy]
  obtain ⟨z, hz⟩ := State.closeOwner_eq _ (s.partOf x.fn) (.stream (BitVec.ofNat 16 x.handle)) none
  exact ⟨_, z, hz⟩

/-- A Work command that completes changes the host side alone. -/
theorem State.finishNow_host (s : State) (w : Work) (a : Answer) : ∃ y : HostSide, s.finishNow w a = { s with host := y } := by
  unfold State.finishNow
  cases w.pos with
  | none =>
    obtain ⟨b, hb, -⟩ := complete_spec (s.withHost { s.host with works := s.host.works.erase w }) w.head w.opcode a
    exact ⟨_, hb⟩
  | some p =>
    obtain ⟨b, qs, hb, -⟩ := complete_ring (s.withHost { s.host with works := s.host.works.erase w }) w.head w.opcode p a
    exact ⟨_, hb⟩

/-- A Work command that came through its ring completes once, on the ring that holds its slot. -/
theorem State.finishNow_ring (s : State) {w : Work} {p : RingPos} (hpos : w.pos = some p) (a : Answer) :
    ∃ c, (s.finishNow w a).host.completions = s.host.completions ++ [c] ∧ c.ring = p.done ∧
      c.body.commandId = w.head.commandId ∧ c.body.status = statusCode a.status ∧ c.body.tick = s.clk.tick := by
  obtain ⟨b, qs, hb, -, hid, hstatus, -, htick, -⟩ :=
    complete_ring (s.withHost { s.host with works := s.host.works.erase w }) w.head w.opcode p a
  rw [State.finishNow, hpos, hb]
  exact ⟨_, rfl, rfl, hid, hstatus, htick⟩

/-- The end of a stream, with or without its STREAM_CLOSE, changes the host side, the pools and the stream itself. -/
theorem State.endStream_eq (s : State) (x : Stream) : ∃ (y : HostSide) (z : Pools), s.endStream x =
    { s with host := y, pools := z, work := s.withoutStream x.handle } := by
  obtain ⟨qs, z, hremove⟩ := s.removeStream_eq x
  unfold State.endStream
  dsimp only
  rw [hremove]
  split
  · next w _ =>
    obtain ⟨y, hy⟩ := State.finishNow_host
      { s with host := { s.host with queues := qs }, pools := z, work := s.withoutStream x.handle } w ok
    exact ⟨y, z, hy⟩
  · exact ⟨_, z, rfl⟩

theorem State.endStream_completes {s : State} {x : Stream} {w : Work} {p : RingPos}
    (hw : s.workOf? (.streamClose x.handle) = some w) (hpos : w.pos = some p) :
    ∃ c, (s.endStream x).host.completions = s.host.completions ++ [c] ∧ c.ring = p.done ∧
      c.body.commandId = w.head.commandId ∧ c.body.status = 0 ∧ c.body.tick = s.clk.tick := by
  obtain ⟨qs, z, hremove⟩ := s.removeStream_eq x
  have hend : s.endStream x = (s.removeStream x).finishNow w ok := by simp only [State.endStream, hw]
  rw [hend, hremove]
  exact State.finishNow_ring _ hpos ok

/-! ### TOKEN_REFILL (R92) -/

section
variable {i : HandleP} {s : State} {x : Stream} (hx : s.stream? i.handle.toNat = some x) (hready : s.isReady = true)
include hx hready

theorem exec_tokenRefill_due (hdue : x.refillDue (x.refillCount + 1) ≤ s.clk.tick + 1) : exec (.tokenRefill i) s =
    .next (s.modStream x.handle (fun y => { y with tokens := min 2 (y.tokens + 1), refillCount := y.refillCount + 1 })) := by
  change execTokenRefill i s = _
  simp only [execTokenRefill, hx, hready, hdue, Bool.true_and, decide_true, if_true]

theorem exec_tokenRefill_early (hdue : s.clk.tick + 1 < x.refillDue (x.refillCount + 1)) : exec (.tokenRefill i) s = .next s := by
  change execTokenRefill i s = _
  simp only [execTokenRefill, hx, hready, Nat.not_le.mpr hdue, Bool.true_and, decide_false, Bool.false_eq_true, if_false]

end

/-- Settles O25. With one stream due to end, `endClosing` is `endStream` of it. -/
theorem streamsEndAndRefill : Obligations.StreamsEndAndRefill := by
  unfold Obligations.StreamsEndAndRefill
  refine ⟨fun i s hready => ?noted, fun s x hdue => ?ends, fun i s x hx hready =>
    ⟨exec_tokenRefill_due hx hready, exec_tokenRefill_early hx hready⟩⟩
  case noted => exact congrArg Host.Outcome.next (if_pos hready)
  case ends =>
    have hend : s.endClosing = s.endStream x := by rw [State.endClosing, hdue]; rfl
    obtain ⟨y, z, hframe⟩ := s.endStream_eq x
    refine hend ▸ ⟨?gone, fun n hn => ?rests, fun w hw hne => ?others, ?clk, ?dram, ?safety, ?chain,
      fun w p hw hpos => State.endStream_completes hw hpos⟩
    case gone =>
      rw [hframe, State.stream?, List.find?_eq_none]
      exact fun w hw => ne_true_of_eq_false (Eq.mp (Bool.not_eq_true' _) (List.mem_filter.mp hw).2)
    case rests =>
      rw [hframe]
      simp only [State.handleTaken, State.withoutStream, List.any_cons, beq_self_eq_true, hn, decide_true, Bool.and_self,
        Bool.true_or, Bool.or_true]
    case others => rw [hframe]; exact List.mem_filter.mpr ⟨hw, bne_iff_ne.mpr hne⟩
    all_goals rw [hframe]

end Sys2Proof.Machine
end

section
/-! The sample channel: O30. -/

namespace Sys2Proof.Machine

/-! ### SAMPLE_START, a case for each check and one for its effect (R54, R313) -/

section
variable {h : CmdHead} {p : SampleStartP} {s : State}

theorem applySampleStart_notAllowed (hallow : s.sampleAllowed h.fn = false) :
    applySampleStart h p s = refuse s .notPermitted := if_pos ((Bool.not_eq_true' _).mpr hallow)

/-- A session over all streams needs no second stage (R313). -/
theorem State.kindSuits_allStreams (s : State) (f : Fn) (hall : p.stream = 0xFFFF) : s.kindSuits f p = true := by
  simp only [State.kindSuits, hall, beq_self_eq_true, Bool.or_true, Bool.true_or]

variable {q : Queue} (hallow : s.sampleAllowed h.fn = true) (hq : s.queue? h.fn p.sampleSlot.toNat = some q)
  (htype : q.qtype = .sample) (hall : p.stream = 0xFFFF)
include hallow hq htype hall

/-- What is left once the tenant is allowed and names a sample ring and all its streams: the ring's session, the tenant's number
of sessions and the address of the data. -/
theorem applySampleStart_onRing : applySampleStart h p s =
    if (s.session? h.fn p.sampleSlot.toNat).isSome then refuse s .queueBusy
    else if 4 ≤ (s.work.sessions.filter (fun x => x.fn == h.fn)).length then refuse s .quotaExceeded
    else s.cmdAddress h.fn p.sampleSlot.toNat p.dataBase.toNat
      (q.entries * slotBytes p.outWidth.toNat p.outHeight.toNat p.format.toNat) true 0x18 (fun s =>
        ({ s with work := { s.work with sessions := s.work.sessions ++ [newSession h.fn p s.clk.tick] } }, some ok)) := by
  simp only [applySampleStart, hallow, hq, s.kindSuits_allStreams h.fn hall, htype, hall, bne_self_eq_false, beq_self_eq_true,
    Bool.not_true, Bool.true_or, Bool.or_self, Bool.false_eq_true, if_false]
  rfl

theorem applySampleStart_ringBusy (hs : s.session? h.fn p.sampleSlot.toNat ≠ none) :
    applySampleStart h p s = refuse s .queueBusy := by
  rw [applySampleStart_onRing hallow hq htype hall, if_pos (Option.isSome_iff_ne_none.mpr hs)]

variable (hs : s.session? h.fn p.sampleSlot.toNat = none)
include hs

theorem applySampleStart_full (hfull : 4 ≤ (s.work.sessions.filter (fun x => x.fn == h.fn)).length) :
    applySampleStart h p s = refuse s .quotaExceeded := by
  rw [applySampleStart_onRing hallow hq htype hall, if_neg (by simp [hs]), if_pos hfull]

theorem applySampleStart_starts (hroom : (s.work.sessions.filter (fun x => x.fn == h.fn)).length < 4)
    (hreach : s.reaches h.fn p.dataBase.toNat
      (q.entries * slotBytes p.outWidth.toNat p.outHeight.toNat p.format.toNat) true = true) : applySampleStart h p s =
      ({ s with work := { s.work with sessions := s.work.sessions ++ [newSession h.fn p s.clk.tick] } }, some ok) := by
  rw [applySampleStart_onRing hallow hq htype hall, if_neg (by simp [hs]), if_neg (Nat.not_le.mpr hroom),
    State.cmdAddress_reached hreach]

end

/-! ### A session's summary (R317) -/

theorem State.writeSummary_noRoom {s : State} {x : Session} {q : Queue} (hq : s.queue? x.fn x.slot = some q)
    (hroom : s.writable q = 0) : s.writeSummary x = s := by
  simp only [State.writeSummary, hq, hroom, if_true]

/-- A summary takes the ring's next entry and carries no data. -/
theorem State.writeSummary_writes {s : State} {x : Session} {q : Queue} (hq : s.queue? x.fn x.slot = some q)
    (hroom : s.writable q ≠ 0) : s.writeSummary x = { s with host := { s.host with
      queues := updWhere (fun q => q.fn == x.fn && q.slot == x.slot) (fun q => { q with prod := q.prod + 1 }) s.host.queues,
      sampleOut := s.host.sampleOut ++
        [.sample x.fn x.slot (q.prod % q.entries) (s.entryAddr q q.prod) (x.summary s.clk.tick)] } } := by
  simp only [State.writeSummary, hq, hroom, if_false]
  rfl

/-- A summary changes the rings and what waits for the issue step alone. -/
theorem State.writeSummary_eq (s : State) (x : Session) : ∃ y : HostSide, s.writeSummary x = { s with host := y } := by
  cases hq : s.queue? x.fn x.slot with
  | none => exact ⟨s.host, by simp only [State.writeSummary, hq]⟩
  | some q =>
    by_cases hroom : s.writable q = 0
    · exact ⟨s.host, State.writeSummary_noRoom hq hroom⟩
    · exact ⟨_, State.writeSummary_writes hq hroom⟩

/-! ### SAMPLE_STOP (R318) -/

theorem State.session?_some {s : State} {f : Fn} {slot : Nat} {x : Session} (hx : s.session? f slot = some x) :
    x.fn = f ∧ x.slot = slot := by
  simpa using List.find?_some hx

/-- What the work holds without the sessions of a session's ring. -/
def State.withoutSession (s : State) (x : Session) : WorkSt :=
  { s.work with sessions := s.work.sessions.filter (fun y => !(y.fn == x.fn && y.slot == x.slot)) }

theorem State.mem_withoutSession {s : State} {x y : Session} :
    y ∈ (s.withoutSession x).sessions ↔ y ∈ s.work.sessions ∧ ¬(y.fn = x.fn ∧ y.slot = x.slot) := by
  simp only [State.withoutSession, List.mem_filter, Bool.not_eq_true', ← Bool.not_eq_true, Bool.and_eq_true, beq_iff_eq]

/-- The end of a session changes the host side, the pools and the sessions (R318, R424). -/
theorem State.endSession_eq (s : State) (x : Session) : ∃ (y : HostSide) (z : Pools), s.endSession x =
    { s with host := y, pools := z, work := s.withoutSession x } := by
  obtain ⟨y, hy⟩ := s.writeSummary_eq x
  rw [State.endSession, hy]
  obtain ⟨z, hz⟩ := State.closeOwner_eq { s with host := y, work := s.withoutSession x } (s.partOf x.fn) .sample
    (some (x.fn, x.slot))
  exact ⟨y, z, hz⟩

section
variable {h : CmdHead} {p : SlotP} {s : State}

theorem applySampleStop_notFound (hx : s.session? h.fn p.slot.toNat = none) : applySampleStop h p s = refuse s .notFound := by
  simp only [applySampleStop, hx]

theorem applySampleStop_ends {x : Session} (hx : s.session? h.fn p.slot.toNat = some x) :
    applySampleStop h p s = (s.endSession x, some ok) := by
  simp only [applySampleStop, hx]

end

/-- An admissible SAMPLE_STOP of a session ends it, and nothing else than the host side and the pools changes with it. -/
theorem exec_sampleStop_ends {h : CmdHead} {p : SlotP} {s : State} {x : Session} (ha : Admissible s h (.sampleStop p))
    (hx : s.session? h.fn p.slot.toNat = some x) : ∃ (y : HostSide) (z : Pools) (u : State), exec (.sampleStop h p) s = .next u ∧
      Completes { s with host := y, pools := z, work := s.withoutSession x } u h 0x71 .success 0xFFFF [] := by
  obtain ⟨y, z, hend⟩ := s.coming.endSession_eq x
  obtain ⟨u, hexec, hdone⟩ := ringRow_answers ha ((applySampleStop_ends (s := s.coming) hx).trans (by rw [hend])) rfl
  exact ⟨y, z, u, hexec, hdone⟩

/-! ### The epochs of a session (R317) -/

/-- SAMPLE_EPOCH_END marks a session that stands alone when the coming commit is its epoch's last. -/
theorem exec_sampleEpochEnd_alone {i : RingIn} {s : State} {x : Session} (hready : s.isReady = true)
    (hs : s.work.sessions = [x]) (hfn : x.fn = i.fn) (hslot : x.slot = i.slot.toNat) : exec (.sampleEpochEnd i) s =
      .next { s with work := { s.work with
        sessions := [if x.lastCommit ≤ s.clk.tick + 1 then { x with epochDue := true } else x] } } := by
  change execSampleEpochEnd i s = _
  simp only [execSampleEpochEnd, hready, hs, hfn, hslot, updWhere, List.map_cons, List.map_nil, beq_self_eq_true, Bool.true_and,
    decide_eq_true_eq, if_true]
  rfl

/-- A session as its next epoch begins. -/
def Session.nextEpoch (x : Session) : Session :=
  { x with epoch := x.epoch + 1, counter := 0, delivered := 0, dropped := 0, epochDue := false }

theorem State.session?_alone {s : State} {x : Session} (hs : s.work.sessions = [x]) : s.session? x.fn x.slot = some x := by
  simp [State.session?, hs]

/-- The epoch of a session that stands alone ends with its summary. -/
theorem State.endEpochs_alone {s : State} {x : Session} (hs : s.work.sessions = [x]) (hmark : x.epochDue = true)
    (hlast : x.lastCommit ≤ s.clk.tick) :
    s.endEpochs = { s.writeSummary x with work := { s.work with sessions := [x.nextEpoch] } } := by
  have hdue : s.work.sessions.filter (fun x => x.epochDue && decide (x.lastCommit ≤ s.clk.tick)) = [x] := by
    simp [hs, hmark, hlast]
  have hends : s.endEpochs = (s.writeSummary x).modSession x Session.nextEpoch := by
    simp only [State.endEpochs, hdue, List.foldl_cons, List.foldl_nil, State.session?_alone hs]
    rfl
  obtain ⟨y, hy⟩ := s.writeSummary_eq x
  rw [hends, hy]
  simp [State.modSession, State.withWork, updWhere, hs]

/-! ### SAMPLE_ALLOW (R180) -/

theorem exec_sampleAllow_open {i : SampleAllowIn} {s : State} (hopen : s.barOpen pfFn = true) : exec (.sampleAllow i) s =
    .next { s with host := { s.host with
      sampleAllowWritten := i.value,
      sampleWrites := s.host.sampleWrites ++ [{ value := i.value, due := s.rwcDue i.toEdgeNs }] } } := by
  change execSampleAllow i s = _
  simp only [execSampleAllow, hopen, if_true, State.writeSampleAllow, BitVec.ofNat_toNat, BitVec.setWidth_eq]
  rfl

/-- Settles O30. Of what SAMPLE_START and SAMPLE_STOP do, only a session's first tick and a summary's tick read the clock, and they
take the coming commit's. -/
theorem sampleChannel : Obligations.SampleChannel := by
  unfold Obligations.SampleChannel
  refine ⟨fun h p s ha => ⟨fun hallow => ?notAllowed, fun q hallow hq htype hall =>
      ⟨fun hs => ?busy, fun hs hfull => ?full, fun hs hroom hreach => ?starts⟩⟩,
    fun h p s ha => ⟨fun hx => ?noSession, fun hx => ?stops⟩,
    fun i s x hready hs hfn hslot => ⟨fun hearly => ?early, fun hlast => ?marks⟩,
    fun s x q hs hmark hlast hq => ⟨?epoch, fun hroom => ?silent, fun hroom => ?summary⟩,
    fun i s hopen => exec_sampleAllow_open hopen⟩
  case notAllowed => exact ringRow_refuses ha (applySampleStart_notAllowed (s := s.coming) hallow)
  case busy => exact ringRow_refuses ha (applySampleStart_ringBusy (s := s.coming) hallow hq htype hall hs)
  case full => exact ringRow_refuses ha (applySampleStart_full (s := s.coming) hallow hq htype hall hs hfull)
  case starts =>
    obtain ⟨u, hexec, hdone⟩ :=
      ringRow_answers ha (applySampleStart_starts (s := s.coming) hallow hq htype hall hs hroom hreach) rfl
    exact ⟨newSession h.fn p (s.clk.tick + 1), u, hexec, hdone, rfl, rfl, rfl, rfl, rfl, rfl, rfl, rfl⟩
  case noSession => exact ringRow_refuses ha (applySampleStop_notFound (s := s.coming) hx)
  case stops =>
    obtain ⟨x, hsome⟩ := Option.ne_none_iff_exists'.mp hx
    obtain ⟨hfn, hslot⟩ := State.session?_some hsome
    obtain ⟨y, z, u, hexec, hdone⟩ := exec_sampleStop_ends ha hsome
    rw [← hfn, ← hslot]
    refine ⟨_, u, hexec, hdone, List.find?_eq_none.mpr fun w hw => ?gone, rfl, rfl, rfl, rfl, fun w hw hne =>
      State.mem_withoutSession.mpr ⟨hw, hne⟩⟩
    case gone => simpa using (State.mem_withoutSession.mp hw).2
  case early => rw [exec_sampleEpochEnd_alone hready hs hfn hslot, if_neg (Nat.not_le.mpr hearly), ← hs]
  case marks => rw [exec_sampleEpochEnd_alone hready hs hfn hslot, if_pos hlast]
  case epoch => rw [State.endEpochs_alone hs hmark hlast]; rfl
  case silent => rw [State.endEpochs_alone hs hmark hlast, State.writeSummary_noRoom hq hroom]
  case summary =>
    rw [State.endEpochs_alone hs hmark hlast, State.writeSummary_writes hq hroom]
    exact ⟨_, _, rfl, rfl, rfl, rfl, rfl⟩

end Sys2Proof.Machine
end

section
/-! Models: MODEL_LOAD, MODEL_UNLOAD and a package's arrival: O27, O28. -/

namespace Sys2Proof.Machine

/-- The state with other models. -/
def State.withModels (s : State) (ms : List Model) : State := { s with work := { s.work with models := ms } }

/-! ### MODEL_LOAD, a case for each precondition of R662 and one for its effect -/

/-- A model while its package is on the way, for a load of the commit of number `tick` (R348). -/
def loadingModel (f : Fn) (p : ModelLoadP) (tick : Nat) : Model :=
  { fn := f, id := p.model.toNat, image := none, packageBytes := p.bytes.toNat, qepoch := 0,
    groups := [], policy := CalPolicy.default, windowStart := tick, fresh := [] }

section
variable {h : CmdHead} {pos : Option RingPos} {p : ModelLoadP} {s : State}

theorem applyModelLoad_stands (hm : (s.model? h.fn p.model.toNat).isSome = true) :
    applyModelLoad h pos p s = refuse s .modelBusy := if_pos hm

variable (hm : s.model? h.fn p.model.toNat = none)
include hm

theorem applyModelLoad_noRoom (hfree : s.freeRegion (s.partOf h.fn) < p.bytes.toNat) :
    applyModelLoad h pos p s = refuse s .noResources := by
  simp only [applyModelLoad, hm, Option.isSome_none, Bool.false_eq_true, if_false, if_pos hfree]

variable (hfree : p.bytes.toNat ≤ s.freeRegion (s.partOf h.fn))
include hfree

/-- What is left once the ID and the room stand: the package's address. -/
theorem applyModelLoad_fetches : applyModelLoad h pos p s =
    s.cmdAddress h.fn 0xFFFF p.package.toNat p.bytes.toNat false 0x10 (fun s =>
      ((s.withModels (s.work.models ++ [loadingModel h.fn p s.clk.tick])).beginWork h 0x20 pos
        (.modelLoad p.model p.bytes.toNat), none)) := by
  simp only [applyModelLoad, hm, Option.isSome_none, Bool.false_eq_true, if_false, if_neg (Nat.not_lt.mpr hfree)]
  rfl

theorem applyModelLoad_unreached (hreach : s.reaches h.fn p.package.toNat p.bytes.toNat false = false) :
    applyModelLoad h pos p s =
      (s.addressFault h.fn 0xFFFF p.package.toNat false, some (failAt .addressFault 0x10)) := by
  rw [applyModelLoad_fetches hm hfree, State.cmdAddress_unreached hreach]

theorem applyModelLoad_begins (hreach : s.reaches h.fn p.package.toNat p.bytes.toNat false = true) :
    applyModelLoad h pos p s =
      ((s.withModels (s.work.models ++ [loadingModel h.fn p s.clk.tick])).beginWork h 0x20 pos
        (.modelLoad p.model p.bytes.toNat), none) := by
  rw [applyModelLoad_fetches hm hfree, State.cmdAddress_reached hreach]

end

/-! ### MODEL_UNLOAD (R349) -/

section
variable {h : CmdHead} {p : ModelP} {s : State}

theorem applyModelUnload_notFound (hm : s.model? h.fn p.model.toNat = none) :
    applyModelUnload h p s = refuse s .notFound := by
  simp only [applyModelUnload, hm]

variable {m : Model} (hm : s.model? h.fn p.model.toNat = some m)
include hm

theorem applyModelUnload_busy (hb : m.image = none ∨ s.modelBound h.fn m.id = true) :
    applyModelUnload h p s = refuse s .modelBusy := by
  have hguard : (m.image.isNone || s.modelBound h.fn m.id) = true := by
    rwa [Bool.or_eq_true, Option.isNone_iff_eq_none]
  simp only [applyModelUnload, hm, if_pos hguard]

theorem applyModelUnload_unloads (himage : m.image ≠ none) (hb : s.modelBound h.fn m.id = false) :
    applyModelUnload h p s = (s.dropModel h.fn m.id, some ok) := by
  simp only [applyModelUnload, hm, Option.isNone_eq_false_iff.mpr (Option.isSome_iff_ne_none.mpr himage), hb, Bool.or_self,
    Bool.false_eq_true, if_false]

end

/-- Settles O27. No precondition reads the clock, so each holds of the coming commit's state as it holds of `s`; only what a load
begins, its work and its model's window, takes that commit's number. -/
theorem modelsLoadAndUnload : Obligations.ModelsLoadAndUnload := by
  unfold Obligations.ModelsLoadAndUnload
  refine ⟨fun h p s ha => ⟨fun hm => ?stands, fun hm =>
      ⟨fun hfree => ?noRoom, fun hfree => ⟨fun hreach => ?unreached, fun hreach => ?begins⟩⟩⟩,
    fun h p s ha => ⟨fun hm => ?absent, fun m hm => ⟨fun hb => ?bound, fun himage hb => ?unloads⟩⟩⟩
  case stands => exact ringRow_refuses ha (applyModelLoad_stands (s := s.coming) hm)
  case noRoom => exact ringRow_refuses ha (applyModelLoad_noRoom (s := s.coming) hm hfree)
  case unreached => exact ringRow_addressFault ha (applyModelLoad_unreached (s := s.coming) hm hfree hreach)
  case begins =>
    exact ⟨loadingModel h.fn p (s.clk.tick + 1),
      ringRow_works ha (applyModelLoad_begins (s := s.coming) hm hfree hreach), rfl, rfl, rfl, rfl, rfl⟩
  case absent => exact ringRow_refuses ha (applyModelUnload_notFound (s := s.coming) hm)
  case bound => exact ringRow_refuses ha (applyModelUnload_busy (s := s.coming) hm hb)
  case unloads => exact ringRow_answers ha (applyModelUnload_unloads (s := s.coming) hm himage hb) rfl

/-! ### MODEL_LOAD_COMPLETE, a case for each way that a load ends (R662, steps 3 to 5) -/

/-- The model that a sound package gives, its counting window open from tick `start` (R348). -/
def loadedModel (f : Fn) (id bytes : Nat) (pkg : List Byte) (start : Nat) : Model :=
  { fn := f, id := id, image := some (parseImage pkg), packageBytes := bytes, qepoch := 1,
    groups := (quantGroups pkg).getD [], policy := CalPolicy.default, windowStart := start, fresh := [] }

section
variable {s : State} {f : Fn} {id bytes : Nat} {pkg : List Byte}

theorem State.loadResult_rejected (hreason : packageReason pkg bytes ≠ 0) :
    s.loadResult f id bytes pkg = (s.dropModel f id, modelRejected (packageReason pkg bytes)) :=
  if_pos (bne_iff_ne.mpr hreason)

variable (hreason : packageReason pkg bytes = 0)
include hreason

theorem State.loadResult_unsigned (hsig : s.signatureBad f pkg = true) :
    s.loadResult f id bytes pkg = (s.dropModel f id, failWith .signatureInvalid) := by
  simp only [State.loadResult, hreason, bne_self_eq_false, Bool.false_eq_true, if_false, hsig, if_true]

variable (hsig : s.signatureBad f pkg = false)
include hsig

/-- What is left of a package that passes every check and is signed where it must be: the room for its image. -/
theorem State.loadResult_sound : s.loadResult f id bytes pkg =
    if (s.dropModel f id).freeRegion (s.partOf f) < (loadedModel f id bytes pkg (s.clk.tick + 1)).residentBytes then
      (s.dropModel f id, failWith .noResources)
    else (s.modModel f id (fun _ => loadedModel f id bytes pkg (s.clk.tick + 1)), okWith (le 2 0 ++ le 2 0 ++ le 4 1)) := by
  simp only [State.loadResult, hreason, bne_self_eq_false, Bool.false_eq_true, if_false, hsig]
  rfl

end

section
variable {i : ModelLoadedIn} {s : State} {w : Work} {bytes : Nat} (hworks : s.host.works = [w]) (hfn : w.head.fn = i.fn)
  (hkind : w.kind = .modelLoad i.model bytes) (hready : s.isReady = true) (hissue : s.mayIssue i.fn = true)
include hworks hfn hkind hready hissue

/-- The package of the one load under way ends its work with the load's result. -/
theorem exec_modelLoadComplete_alone : exec (.modelLoadComplete i) s =
    .next ((s.loadResult i.fn i.model.toNat bytes i.package).1.finishWork w
      (s.loadResult i.fn i.model.toNat bytes i.package).2) := by
  change execModelLoadComplete i s = _
  simp only [execModelLoadComplete, hworks, List.find?_cons_of_pos, hfn, hkind, beq_self_eq_true, Bool.and_self, hready, hissue,
    if_true]

/-- A load's result leaves other models and the command's answer, which the coming commit sends. -/
theorem exec_modelLoadComplete_ends {ms : List Model} {a : Answer}
    (hresult : s.loadResult i.fn i.model.toNat bytes i.package = (s.withModels ms, a)) :
    exec (.modelLoadComplete i) s = .next { s with
      work := { s.work with models := ms }
      host := { s.host with works := [], ending := s.host.ending ++ [(w, a)] } } := by
  have herase : s.host.works.erase w = [] := by rw [hworks, List.erase_cons_head]
  rw [exec_modelLoadComplete_alone hworks hfn hkind hready hissue, hresult, ← herase]
  rfl

end

/-- Settles O28. Every end of a load is the load's result with the work ended; for a sound package the room for its image decides. -/
theorem modelPackageArrives : Obligations.ModelPackageArrives := by
  unfold Obligations.ModelPackageArrives
  intro i s w bytes hworks hfn hkind hready hissue id others ends reason
  have hends {ms : List Model} {a : Answer} (hresult : s.loadResult i.fn id bytes i.package = (s.withModels ms, a)) : ends ms a :=
    exec_modelLoadComplete_ends hworks hfn hkind hready hissue hresult
  refine ⟨fun hreason => hends (State.loadResult_rejected hreason),
    fun hreason hsig => hends (State.loadResult_unsigned hreason hsig),
    fun hreason hsig => ⟨loadedModel i.fn id bytes i.package (s.clk.tick + 1), rfl, rfl, rfl, rfl, rfl,
      fun hfree => hends ?noRoom, fun hfree => hends ?loads⟩⟩
  case noRoom => exact (State.loadResult_sound hreason hsig).trans (if_pos hfree)
  case loads => exact (State.loadResult_sound hreason hsig).trans (if_neg (Nat.not_lt.mpr hfree))

end Sys2Proof.Machine
end

section
/-! CALIBRATION_POLICY and QUANT_RETUNE: O29. -/

namespace Sys2Proof.Machine

/-! ### CALIBRATION_POLICY, a case for each of its ends (R367, R368) -/

/-- A group under a policy: its counters clear, and MODE 2 returns its d to 0 (R368). -/
def ScaleGroup.underPolicy (g : ScaleGroup) (p : CalibrationP) : ScaleGroup :=
  if p.mode == 2 then { g.clear with d := 0 } else g.clear

/-- A model under a new policy, its window open from tick `start`, with quantization epoch `epoch` (R368). -/
def Model.underPolicy (m : Model) (p : CalibrationP) (start epoch : Nat) : Model :=
  { m with policy := policyOf p, windowStart := start, groups := m.groups.map (·.underPolicy p), fresh := [], qepoch := epoch }

/-- How many groups' d a reset moves. -/
def Model.movedGroups (m : Model) : Nat := (m.groups.filter (fun g => g.d != 0)).length

theorem Model.movedGroups_eq_zero_iff {m : Model} : m.movedGroups = 0 ↔ ∀ g ∈ m.groups, g.d = 0 := by
  simp [Model.movedGroups]

theorem ScaleGroup.underPolicy_total (g : ScaleGroup) (p : CalibrationP) : (g.underPolicy p).total = 0 := by
  unfold ScaleGroup.underPolicy
  split <;> rfl

theorem ScaleGroup.underPolicy_clip (g : ScaleGroup) (p : CalibrationP) : (g.underPolicy p).clip = 0 := by
  unfold ScaleGroup.underPolicy
  split <;> rfl

theorem ScaleGroup.underPolicy_d_of_reset (g : ScaleGroup) {p : CalibrationP} (hmode : p.mode = 2) : (g.underPolicy p).d = 0 := by
  rw [ScaleGroup.underPolicy, if_pos (beq_iff_eq.mpr hmode)]

/-- Without MODE 2, or at 0 already, d stays. -/
theorem ScaleGroup.underPolicy_d_of_kept {g : ScaleGroup} {p : CalibrationP} (hkept : p.mode ≠ 2 ∨ g.d = 0) :
    (g.underPolicy p).d = g.d := by
  unfold ScaleGroup.underPolicy
  split
  case isTrue hmode => exact (hkept.resolve_left (not_not_intro (beq_iff_eq.mp hmode))).symm
  case isFalse => rfl

section
variable {h : CmdHead} {p : CalibrationP} {s : State}

theorem applyCalibration_notFound (hm : s.image? h.fn p.model.toNat = none) : applyCalibration h p s = refuse s .notFound := by
  cases hfound : s.model? h.fn p.model.toNat with
  | none => simp only [applyCalibration, hfound]
  | some m =>
    have himage : m.image = none := by rwa [State.image?, hfound] at hm
    simp only [applyCalibration, hfound, himage, Option.isNone_none, if_true]

variable {m : Model} (hm : s.model? h.fn p.model.toNat = some m) (himage : m.image ≠ none)
include hm himage

/-- A policy that moves no d replaces the model's policy under the epoch it has. -/
theorem applyCalibration_keepsEpoch (hkept : p.mode ≠ 2 ∨ ∀ g ∈ m.groups, g.d = 0) : applyCalibration h p s =
    (s.modModel h.fn m.id (fun _ => m.underPolicy p s.clk.tick m.qepoch), some ok) := by
  have hreset : (p.mode == 2 && m.movedGroups != 0) = false := by
    obtain hmode | hd := hkept
    · rw [beq_eq_false_iff_ne.mpr hmode, Bool.false_and]
    · rw [Model.movedGroups_eq_zero_iff.mpr hd, bne_self_eq_false, Bool.and_false]
  rw [Model.movedGroups] at hreset
  simp only [applyCalibration, hm, Option.isNone_iff_eq_none, himage, if_false, hreset, Bool.false_eq_true]
  rfl

/-- A reset that moves a d gives the model its next epoch and raises QUANT_RETUNE (R372, R373). -/
theorem applyCalibration_resets (hmode : p.mode = 2) (hmoved : ∃ g ∈ m.groups, g.d ≠ 0) : applyCalibration h p s =
    ((s.modModel h.fn m.id (fun _ => m.underPolicy p s.clk.tick (m.qepoch + 1))).raise h.fn 0x0202
      (retuneDetail m.id m.movedGroups 1 (m.qepoch + 1) []), some ok) := by
  have hreset : (p.mode == 2 && m.movedGroups != 0) = true := by
    simpa [hmode, Model.movedGroups_eq_zero_iff] using hmoved
  rw [Model.movedGroups] at hreset
  simp only [applyCalibration, hm, Option.isNone_iff_eq_none, himage, if_false, hreset, if_true]
  rfl

end

/-! ### QUANT_RETUNE -/

section
variable {i : ModelRef} {s : State}

theorem exec_quantRetune_notLoaded (hm : s.image? i.fn i.model.toNat = none) : exec (.quantRetune i) s = .next s := by
  change execQuantRetune i s = _
  simp only [execQuantRetune, hm, Option.isNone_none, Bool.or_true, if_true]

theorem exec_quantRetune_asks (hready : s.isReady = true) (hm : s.image? i.fn i.model.toNat ≠ none) : exec (.quantRetune i) s =
    .next { s with work := { s.work with retunes := s.work.retunes ++ [(i.fn, i.model.toNat)] } } := by
  change execQuantRetune i s = _
  simp only [execQuantRetune, hready, Option.isNone_eq_false_iff.mpr (Option.isSome_iff_ne_none.mpr hm), Bool.not_true, Bool.or_self,
    Bool.false_eq_true, if_false]
  rfl

end

/-! ### The groups of a retune (R369) -/

/-- R369 keeps the first 8 candidates. -/
theorem Model.candidates_length_le (m : Model) (c : Nat) : (m.candidates c).length ≤ 8 := by
  unfold Model.candidates
  split
  next =>
    split
    · exact Nat.zero_le 8
    · exact List.length_take_le 8 _
  next => exact Nat.zero_le 8

/-- A group after a retune: its counters clear, and its d is what its candidate wants, if it has one. -/
def ScaleGroup.retuned (g : ScaleGroup) : Option Candidate → ScaleGroup
  | some x => { g.clear with d := x.want }
  | none => g.clear

theorem ScaleGroup.retuned_total (g : ScaleGroup) (x : Option Candidate) : (g.retuned x).total = 0 := by cases x <;> rfl

theorem ScaleGroup.retuned_clip (g : ScaleGroup) (x : Option Candidate) : (g.retuned x).clip = 0 := by cases x <;> rfl

section
variable (m : Model) (c : Nat) (cs : List Candidate)

/-- Each group of a retuned model is the group of that number, retuned by the first candidate that names it. -/
theorem Model.retune_groups : (m.retune c cs).groups = m.groups.mapIdx (fun k g => g.retuned (cs.find? (·.group == k))) := by
  rw [List.mapIdx_eq_zipIdx_map]
  refine List.map_congr_left fun ⟨g, k⟩ _ => ?_
  cases h : cs.find? (·.group == k) <;> simp only [h, ScaleGroup.retuned]

theorem Model.retune_groups_length : (m.retune c cs).groups.length = m.groups.length := by
  rw [Model.retune_groups, List.length_mapIdx]

theorem Model.retune_clears {g : ScaleGroup} (hg : g ∈ (m.retune c cs).groups) : g.total = 0 ∧ g.clip = 0 := by
  rw [Model.retune_groups, List.mem_mapIdx] at hg
  obtain ⟨k, hk, rfl⟩ := hg
  exact ⟨ScaleGroup.retuned_total _ _, ScaleGroup.retuned_clip _ _⟩

variable {m c cs} {k : Nat} {g g' : ScaleGroup} (hg : m.groups[k]? = some g) (hg' : (m.retune c cs).groups[k]? = some g')
include hg hg'

theorem Model.retune_group : g' = g.retuned (cs.find? (·.group == k)) := by
  rw [Model.retune_groups, List.getElem?_mapIdx, hg] at hg'
  exact (Option.some.inj hg').symm

/-- The d of a group that no candidate names stays. -/
theorem Model.retune_keeps (hnone : ∀ x ∈ cs, x.group ≠ k) : g'.d = g.d := by
  have hfind : cs.find? (·.group == k) = none := List.find?_eq_none.mpr fun x hx => by simpa using hnone x hx
  rw [Model.retune_group hg hg', hfind]
  rfl

/-- A d that changes is the one that a candidate of the group wants. -/
theorem Model.retune_moves (hne : g'.d ≠ g.d) : ∃ x ∈ cs, x.group = k ∧ g'.d = x.want := by
  have heq := Model.retune_group hg hg'
  cases hfind : cs.find? (·.group == k) with
  | none => exact absurd (by rw [heq, hfind]; rfl) hne
  | some x =>
    exact ⟨x, List.mem_of_find?_eq_some hfind, by simpa using List.find?_some hfind, by rw [heq, hfind]; rfl⟩

end

/-! ### The evaluation at a commit (R70, step 5) -/

section
variable {s : State} {f : Fn} {id : Nat}

/-- A retune that stands alone is evaluated on the state without it. -/
theorem State.takeRetunes_alone (hr : s.work.retunes = [(f, id)]) :
    s.takeRetunes = ({ s with work := { s.work with retunes := [] } } : State).retuneModel f id := by
  simp only [State.takeRetunes, hr, List.foldl_cons, List.foldl_nil]
  rfl

variable {m : Model} (hm : s.model? f id = some m)
include hm

theorem State.retuneModel_stops (hc : m.candidates s.clk.tick = []) : s.retuneModel f id = s := by
  simp only [State.retuneModel, hm, hc, List.isEmpty_nil, if_true]

theorem State.retuneModel_retunes (hc : m.candidates s.clk.tick ≠ []) : s.retuneModel f id =
    (s.modModel f m.id (fun _ => m.retune s.clk.tick (m.candidates s.clk.tick))).raise f 0x0202
      (retuneDetail m.id (m.candidates s.clk.tick).length 0 (m.qepoch + 1) (m.candidates s.clk.tick)) := by
  simp only [State.retuneModel, hm, List.isEmpty_iff, hc, if_false]
  rfl

end

/-- Settles O29. A policy is applied to the coming commit's state, whose number opens the window; a retune changes d only where a
candidate names the group, since every other group keeps all but its counters. -/
theorem calibrationAndRetune : Obligations.CalibrationAndRetune := by
  unfold Obligations.CalibrationAndRetune
  refine ⟨fun h p s ha => ⟨fun hm => ?notFound, fun m hm himage hkept => ?keeps, fun m hm himage hmode hmoved => ?resets⟩,
    fun i s hready => ⟨exec_quantRetune_notLoaded, exec_quantRetune_asks hready⟩,
    fun s f id m hr hm => ⟨fun hc => ?stops, fun hc => ?retunes⟩⟩
  case notFound => exact ringRow_refuses ha (applyCalibration_notFound (s := s.coming) hm)
  case keeps =>
    obtain ⟨u, hexec, hdone⟩ := ringRow_answers ha (applyCalibration_keepsEpoch (s := s.coming) hm himage hkept) rfl
    refine ⟨m.underPolicy p (s.clk.tick + 1) m.qepoch, u, hexec, hdone, rfl, rfl, rfl, rfl, ?sameD, ?clear⟩
    case sameD =>
      exact List.map_map.trans (List.map_congr_left fun g hg => ScaleGroup.underPolicy_d_of_kept (hkept.imp_right (· g hg)))
    case clear => exact List.forall_mem_map.mpr fun g _ => ⟨g.underPolicy_total p, g.underPolicy_clip p⟩
  case resets =>
    obtain ⟨u, hexec, hdone⟩ := ringRow_answers ha (applyCalibration_resets (s := s.coming) hm himage hmode hmoved) rfl
    exact ⟨m.underPolicy p (s.clk.tick + 1) (m.qepoch + 1), _, u, hexec, hdone, rfl, rfl,
      List.forall_mem_map.mpr fun g _ => ⟨g.underPolicy_d_of_reset hmode, g.underPolicy_total p⟩⟩
  case stops => exact (State.takeRetunes_alone hr).trans (State.retuneModel_stops hm hc)
  case retunes =>
    exact ⟨m.retune s.clk.tick (m.candidates s.clk.tick), _,
      (State.takeRetunes_alone hr).trans (State.retuneModel_retunes hm hc), rfl, rfl, rfl, m.retune_groups_length _ _,
      m.candidates_length_le _, fun _ => m.retune_clears _ _,
      fun k g g' hg hg' => ⟨Model.retune_keeps hg hg', Model.retune_moves hg hg'⟩⟩

end Sys2Proof.Machine
end


section
/-! What every step keeps: the waiting commands, the canonical form of the memories and the ledger (O2, O4, O5), and the step
itself (O1). -/

namespace Sys2Proof.Machine

/-- From `s` to `t` the queue of waiting commands stays, the memories stay in canonical form, and the ledger only grows. -/
structure KeepsInvariants (s t : State) : Prop where
  pending : t.pending = s.pending
  memory : s.memoryOk → t.memoryOk
  ledger : s.ledgerOk → t.ledgerOk ∧ LedgerKept s t

theorem KeepsInvariants.trans {s t u : State} (h : KeepsInvariants s t) (k : KeepsInvariants t u) : KeepsInvariants s u where
  pending := k.pending.trans h.pending
  memory hm := k.memory (h.memory hm)
  ledger hl :=
    have ht := h.ledger hl
    have hu := k.ledger ht.1
    ⟨hu.1, ht.2.trans hu.2⟩

/-- A step that leaves both ledger copies as they were. -/
theorem KeepsInvariants.of_ledger_eq {s t : State} (hp : t.pending = s.pending) (hm : s.memoryOk → t.memoryOk)
    (h0 : t.nor.ledger0 = s.nor.ledger0) (h1 : t.nor.ledger1 = s.nor.ledger1) : KeepsInvariants s t where
  pending := hp
  memory := hm
  ledger hl := ⟨by simpa only [State.ledgerOk, h0, h1] using hl, by simp only [LedgerKept, h0, List.prefix_refl]⟩

/-- A step that leaves the ledger and the memory nodes as they were. -/
theorem KeepsInvariants.of_dram_eq {s t : State} (hp : t.pending = s.pending) (hd : t.dram = s.dram)
    (h0 : t.nor.ledger0 = s.nor.ledger0) (h1 : t.nor.ledger1 = s.nor.ledger1) : KeepsInvariants s t :=
  .of_ledger_eq hp (by simp only [State.memoryOk, State.channel, hd, imp_self]) h0 h1

theorem KeepsInvariants.refl (s : State) : KeepsInvariants s s := .of_dram_eq rfl rfl rfl rfl

/-- A state with its write queues replaced one by one has them back. -/
theorem State.wq_of_wqs {s t : State} (h : t.core.wqs = s.core.wqs) (c : Channel) : (t.channel c).wq = (s.channel c).wq := by
  have hc := congrArg (fun v => v[c.val]) h
  simp only [State.core, Vector.getElem_map] at hc
  exact hc

/-- The invariants speak of the core alone, save the tick. -/
theorem KeepsInvariants.of_core {s t : State} (h : t.core = s.core) : KeepsInvariants s t := by
  have hw := State.wq_of_wqs (congrArg StateCore.wqs h)
  simp only [State.core, StateCore.mk.injEq] at h
  obtain ⟨hp, -, hm, hs, -, h0, h1⟩ := h
  exact .of_ledger_eq hp (by simp only [State.memoryOk, hm, hs, hw, imp_self]) h0 h1

theorem KeepsInvariants.foldl {α : Type} {g : State → α → State} (hg : ∀ s a, KeepsInvariants s (g s a)) (l : List α)
    (s : State) : KeepsInvariants s (l.foldl g s) := by
  induction l generalizing s with
  | nil => exact .refl s
  | cons a l ih => exact (hg s a).trans (ih _)

/-- The clock is no part of the invariants. -/
theorem KeepsInvariants.atNext {s : State} {f : State → State} (h : KeepsInvariants s.coming (f s.coming)) :
    KeepsInvariants s (s.atNext f) := ⟨h.pending, h.memory, h.ledger⟩

/-! ### Rows that keep the core -/

/-- A row answers a next state whose core is that of `s`. -/
def KeepsCore (s : State) (o : Out) : Prop := ∃ t, o = .next t ∧ t.core = s.core

theorem KeepsCore.of_core {s t : State} (h : t.core = s.core) : KeepsCore s (.next t) := ⟨t, rfl, h⟩

/-- A ring command as a step of its own is the meaning that a commit gives it, on the coming commit's state. -/
theorem exec_ringCommand {i : Instr} {h : CmdHead} {c : RingCmd} (hi : ringCommand i = some (h, c)) (s : State) :
    exec i s = s.ringRow h c (applyCmd s.coming h none c) := by
  cases i <;> simp only [ringCommand, Option.some.injEq, Prod.mk.injEq, reduceCtorEq] at hi <;> obtain ⟨rfl, rfl⟩ := hi <;> rfl

theorem ringRow_keepsCore (s : State) (h : CmdHead) (c : RingCmd) (l : State) : KeepsCore s (s.ringRow h c (applyCmd l h none c)) :=
  ⟨_, rfl, ringRow_core (fun u => applyCmd_core l h none c u) rfl⟩

theorem State.serve_core (s : State) (p : MgmtPath) (ty cmd : Nat) (n : Option Nat) (f : State → Reply)
    (hf : ∀ u, (f u).1.core = u.core) : (s.serve p ty cmd n f).core = s.core := by
  unfold State.serve
  (repeat' split) <;> simp [hf]

/-- The commands that move the core: the tick edge, the die starts, bring-up, and what reads, writes and zeroes memory. -/
def movesCore : Instr → Bool
  | .commit _ => true
  | .dieStart _ => true
  | .bootRomWatchdog => true
  | .bringUp _ => true
  | .dramRequest _ => true
  | .schedulingDecision _ => true
  | .patrolScrub _ => true
  | .zeroingComplete _ => true
  | .resetEnd _ => true
  | _ => false

/-! ### No judgement of a reference moves the tick (R99, R106) -/

@[simp] theorem Clock.tick_dropRef (c : Clock) (code : Nat) : (c.dropRef code).tick = c.tick := by
  rw [c.dropRef_eq code]
  rfl

@[simp] theorem Clock.tick_dropPps (c : Clock) (code : Nat) : (c.dropPps code).tick = c.tick := (c.sameTime_dropPps code).tick

@[simp] theorem Clock.tick_ppsLost (c : Clock) (after : Nat) : (c.ppsLost after).tick = c.tick := by
  unfold Clock.ppsLost
  (repeat' split) <;> simp

@[simp] theorem Clock.tick_measure (c : Clock) (ppb : Option Int) : (c.measure ppb).tick = c.tick := (c.sameTime_measure ppb).tick

@[simp] theorem Clock.tick_load (c : Clock) (after : Nat) : (c.load after).tick = c.tick := by
  unfold Clock.load
  split <;> rfl

@[simp] theorem Clock.tick_judgeValid (c : Clock) (after : Nat) : (c.judgeValid after).1.tick = c.tick :=
  (c.sameTime_judgeValid after).tick

@[simp] theorem Clock.tick_judgeInvalid (c : Clock) (after : Nat) : (c.judgeInvalid after).1.tick = c.tick :=
  (c.sameTime_judgeInvalid after).tick

@[simp] theorem Clock.tick_ppsEdge (c : Clock) (i : PpsIn) : (c.ppsEdge i).tick = c.tick := by
  unfold Clock.ppsEdge
  dsimp only
  (repeat' split) <;> simp

@[simp] theorem ChannelSt.wq_readTemp (x : ChannelSt) (t : Int) : (x.readTemp t).wq = x.wq := rfl

@[simp] theorem State.issueAhead_core (s : State) (f : State → State) (hf : ∀ u, (f u).core = u.core) :
    (s.issueAhead f).core = s.core := by
  unfold State.issueAhead
  simp [hf]

/-- A row is a chain of guards over operations of which each keeps the core; a request to the MMC is that over the state its reply
leaves. -/
theorem exec_keepsCore {i : Instr} (hi : movesCore i = false) (hr : ringCommand i = none) (s : State) : KeepsCore s (exec i s) := by
  cases i <;> cases hi <;> cases hr <;> refine ⟨_, rfl, ?_⟩
  case getEndpointId | getEndpointUuid | getMessageTypeSupport | getTid | getPldmTypes | setEventReceiver | getEventReceiver |
      getPdrRepositoryInfo | getPdr | getFruRecordTableMetadata | getFruRecordTable | queryDeviceIdentifiers |
      getFirmwareParameters | getStatus =>
    exact State.serve_core _ _ _ _ _ _ fun _ => rfl
  case setEndpointId | getMctpVersionSupport | getVendorDefinedMessageSupport | setTid | getPldmVersion | getPldmCommands |
      pollForPlatformEventMessage | getSensorReading | getStateSensorReadings | requestUpdate | passComponentTable |
      updateComponent | activateFirmware | cancelUpdateComponent | cancelUpdate | modelKeySet | modelKeyClear | hotswapLogRead |
      autoRetry =>
    refine State.serve_core _ _ _ _ _ _ fun u => ?_
    try dsimp only
    (repeat' split) <;> simp
  case thermalResume =>
    split
    · rfl
    · exact core_atNext _ _ fun u => by dsimp only; split <;> simp
  case temperatureRead i =>
    have hread : (s.modChannel i.channel (fun x => x.readTemp i.celsius)).core = s.core := core_modChannel _ _ _ fun _ => rfl
    dsimp only
    (repeat' split) <;> simp [hread]
  all_goals try dsimp only
  all_goals (repeat' split) <;> simp


/-! ### The ledger at run time (R585-R589) -/

/-- An entry joins both copies, or neither. -/
theorem State.addLedger_keeps (s : State) (type kind unit source : Nat) (d : List Byte) :
    KeepsInvariants s (s.addLedger type kind unit source d) := by
  unfold State.addLedger
  dsimp only
  split
  · exact .refl s
  · split
    · exact .of_core (by simp)
    · refine ⟨rfl, id, fun hl => ?_⟩
      obtain ⟨heq, hlen⟩ := hl
      simp only [State.ledgerOk, LedgerKept, heq]
      split
      · next h => exact ⟨⟨trivial, by rw [List.length_append]; exact h⟩, List.prefix_append _ _⟩
      · exact ⟨⟨trivial, hlen⟩, List.prefix_refl _⟩

theorem State.bootLedger_keeps (s : State) (type kind unit source : Nat) (d : List Byte) :
    KeepsInvariants s (s.bootLedger type kind unit source d) := by
  unfold State.bootLedger
  dsimp only
  split
  · split <;> exact .of_core (by simp)
  · next h =>
    refine ⟨rfl, id, fun hl => ⟨⟨by simp [hl.1], ?_⟩, List.prefix_append _ _⟩⟩
    simp only [List.length_append, List.length_singleton]
    omega

theorem State.retireUnit_keeps (s : State) (u : UnitRef) (code : Nat) : KeepsInvariants s (s.retireUnit u code) := by
  unfold State.retireUnit
  split
  · exact .refl s
  · dsimp only
    have hadd := (KeepsInvariants.of_core (State.withSafety_core s { s.safety with retired := s.safety.retired ++ [u] })).trans
      (State.addLedger_keeps _ 1 (kindCode u.kind) u.num 1 (le 2 code))
    split
    · exact hadd.trans (.of_core (by simp))
    · exact hadd.trans (.of_core (by simp))

theorem State.endRetest_keeps (s : State) (r : Retest) : KeepsInvariants s (s.endRetest r) := by
  unfold State.endRetest
  split
  · exact (KeepsInvariants.of_core (State.withSafety_core _ _)).trans (State.addLedger_keeps _ _ _ _ _ _)
  · exact .foldl (fun s u => s.retireUnit_keeps u 0x402) _ _

theorem State.decideRetest_keeps (s : State) (r : Retest) : KeepsInvariants s (s.decideRetest r) := by
  unfold State.decideRetest
  split
  · dsimp only
    split
    · exact (KeepsInvariants.of_core (State.withSafety_core _ _)).trans (State.endRetest_keeps _ _)
    · exact .of_core (by simp)
  · exact .refl s

theorem State.safetyDecisions_keeps (s : State) : KeepsInvariants s s.safetyDecisions := by
  unfold State.safetyDecisions
  dsimp only
  have hretire := (KeepsInvariants.of_core (State.withSafety_core s { s.safety with toRetire := [] })).trans
    (.foldl (fun s (u : UnitRef × Nat) => s.retireUnit_keeps u.1 u.2) s.safety.toRetire _)
  have hdecide (t : State) := KeepsInvariants.foldl State.decideRetest_keeps t.safety.retests t
  exact (hretire.trans (hdecide _)).trans (.of_core (by simp))

/-! ### The tick edge (R59, R65, R70) -/

@[simp] theorem Clock.tick_applyLoad (c : Clock) : c.applyLoad.tick = c.tick := by
  unfold Clock.applyLoad
  dsimp only
  (repeat' split) <;> rfl

@[simp] theorem Clock.tick_transition (c : Clock) : c.transition.tick = c.tick := by
  unfold Clock.transition
  (repeat' split) <;> rfl

@[simp] theorem State.timeCommit_core (s : State) : s.timeCommit.core = s.core := by
  unfold State.timeCommit
  dsimp only
  split <;> simp

theorem State.edge_keeps (s : State) : KeepsInvariants s s.edge := by
  unfold State.edge
  exact (KeepsInvariants.of_dram_eq (s := s) (t := { s with clk := s.clk.advance }) rfl rfl rfl rfl).trans (.of_core (by simp))

@[simp] theorem State.auditCommit_core (s l : State) : (s.auditCommit l).core = s.core := by
  unfold State.auditCommit
  dsimp only
  refine (core_foldl (fun s q => ?_) _ _).trans ((core_foldl (fun s c => ?_) _ _).trans ((core_foldl (fun s k => ?_) _ _).trans
    ((core_foldl (fun s k => ?_) _ _).trans (core_foldl (fun s k => ?_) _ _)))) <;> split <;> simp

@[simp] theorem State.decisionPoint_core (s l : State) (i : CommitIn) : (s.decisionPoint l i).core = s.core := by
  unfold State.decisionPoint
  dsimp only
  (repeat' split) <;> simp

theorem SramMoves.keeps {s t : State} (h : SramMoves s t) : KeepsInvariants s t := by
  obtain ⟨hcore, hsram⟩ := h
  have hw := State.wq_of_wqs (s := s) (t := t) (by rw [hcore])
  simp only [State.core, StateCore.mk.injEq] at hcore
  obtain ⟨hp, -, hm, -, -, h0, h1⟩ := hcore
  refine .of_ledger_eq hp (fun hok => ?_) h0 h1
  obtain ⟨hmem, hsr, hq⟩ := hok
  exact ⟨by rw [hm]; exact hmem, hsram hsr, fun c => by rw [hw]; exact hq c⟩

theorem State.applyStep_keeps (s l : State) : KeepsInvariants s (s.applyStep l) := by
  unfold State.applyStep
  dsimp only
  refine KeepsInvariants.trans ?_ (results_moves _).keeps
  refine KeepsInvariants.trans ?_ (.of_core (State.evacuate_core _))
  exact KeepsInvariants.trans (.of_core (by simp)) (State.safetyDecisions_keeps _)

theorem State.commitTick_keeps (s : State) (i : CommitIn) : KeepsInvariants s (s.commitTick i) := by
  unfold State.commitTick
  dsimp only
  have happly := s.edge_keeps.trans ((KeepsInvariants.of_core (State.decisionPoint_core s.edge s.edge i)).trans (State.applyStep_keeps _ s.edge))
  split
  · exact happly.trans (.of_core (by simp))
  · exact happly.trans (.of_core (by simp))

theorem State.idleTick_keeps (s : State) : KeepsInvariants s s.idleTick := by
  unfold State.idleTick
  dsimp only
  split
  · refine KeepsInvariants.trans ?_ (.of_core (State.hallmarkCommit_core _))
    exact .of_dram_eq (by simp) rfl rfl rfl
  · exact .of_dram_eq rfl rfl rfl rfl

theorem execCommit_keeps (i : CommitIn) (s : State) : ∃ t, exec (.commit i) s = .next t ∧ KeepsInvariants s t := by
  refine ⟨_, rfl, ?_⟩
  (repeat' split)
  · exact .refl s
  · exact s.idleTick_keeps
  · exact s.commitTick_keeps i

/-! ### Die start and bring-up (R569, R586, R588) -/

theorem State.dieStart_keeps (s : State) (powered : Bool) : KeepsInvariants s (s.dieStart powered) :=
  .of_ledger_eq rfl (fun _ => State.reset_memoryOk) rfl rfl


/-! ### The memory nodes (R441-R455, R465) -/

/-- Pending commands, tick and ledger stand outside the memory nodes. -/
theorem KeepsInvariants.of_dram {s : State} {d : Dram} (hm : s.memoryOk → { s with dram := d }.memoryOk) :
    KeepsInvariants s { s with dram := d } := .of_ledger_eq rfl hm rfl rfl

theorem State.modChannel_keeps (s : State) (c : Channel) {g : ChannelSt → ChannelSt}
    (hg : ∀ x, queueOk x.wq → queueOk (g x).wq) : KeepsInvariants s (s.modChannel c g) :=
  .of_dram fun ⟨hmem, hsram, hq⟩ => ⟨hmem, hsram, fun k => by
    by_cases hk : k = c
    · subst hk
      exact (State.channel_modChannel s k g).symm ▸ hg _ (hq k)
    · exact (State.channel_modChannel_ne s g hk).symm ▸ hq k⟩

/-- The pieces of a request lie within it, and each within one 256 B block (R441). -/
theorem pieces_bounds {fuel off n : Nat} {p : Nat × Nat} (h : p ∈ pieces fuel off n) :
    off ≤ p.1 ∧ p.1 + p.2 ≤ off + n ∧ p.1 % 256 + p.2 ≤ 256 := by
  induction fuel generalizing off n with
  | zero => simp [pieces] at h
  | succ fuel ih =>
    unfold pieces at h
    dsimp only at h
    split at h
    · simp at h
    · rcases List.mem_cons.1 h with rfl | h
      · simp only
        omega
      · have := ih h
        omega

/-- A memory node has two channels (R437). -/
theorem State.length_rowChannels_le (s : State) (row : Row) : (s.rowChannels row).length ≤ 2 := by
  have hnode : ∀ r : Row, ((List.finRange 16).filter (fun c => c.val / 2 == r.val)).length ≤ 2 := by decide
  refine Nat.le_trans (List.Sublist.length_le ?_) (hnode row)
  rw [State.rowChannels, ← List.filter_filter]
  exact List.filter_sublist.filter _

/-- What lies within a row and within one block lies within its channel's addresses. -/
theorem State.mapOffset_bound {s : State} {row : Row} {off n : Nat} {x : Channel × Nat} (h : s.mapOffset row off = some x)
    (hsize : off + n ≤ s.rowSize row) (hblock : off % 256 + n ≤ 256) : x.2 + n ≤ 2 ^ 32 := by
  have hlen := s.length_rowChannels_le row
  unfold State.rowSize at hsize
  unfold State.mapOffset at h
  split at h
  · simp at h
  · next hc =>
    rw [hc] at hsize
    simp only [Option.some.injEq] at h
    subst h
    simp only [List.length_singleton] at hsize ⊢
    omega
  · simp only [Option.some.injEq] at h
    subst h
    have hnode : off + n ≤ 2 * 0xE0000000 := Nat.le_trans hsize (Nat.mul_le_mul_right _ hlen)
    clear hsize hlen
    dsimp only
    omega


theorem State.requestPiece_dram (s : State) (i : DramReqIn) (start : Nat) (p : Nat × Nat) :
    ∃ d, s.requestPiece i start p = { s with dram := d } := by
  unfold State.requestPiece
  split
  · split
    · exact ⟨_, rfl⟩
    · unfold State.requestRead
      dsimp only
      split <;> exact ⟨_, rfl⟩
  · exact ⟨s.dram, rfl⟩

@[simp] theorem State.requestRead_core (s : State) (i : DramReqIn) (c : Channel) (a n : Nat) :
    (s.requestRead i c a n).core = s.core := by
  unfold State.requestRead
  dsimp only
  split
  · rfl
  · rw [core_modChannel _ _ _ (by intro; rfl)]
    rfl

theorem State.requestWrite_keeps (s : State) (i : DramReqIn) (c : Channel) {a : Nat} {data : List Byte} {en : List Bool}
    (ha : a + data.length ≤ 2 ^ 32) (he : data.length ≤ en.length) : KeepsInvariants s (s.requestWrite i c a data en) :=
  (State.modChannel_keeps s c fun _ h => queueOk_wqWrite _ h ha he).trans (.of_core (State.modPort_core _ _ _))

theorem length_fitBool (n : Nat) (es : List Bool) : n ≤ (State.requestPiece.fitBool n es).length := by
  simp only [State.requestPiece.fitBool, List.length_append, List.length_replicate]
  omega

/-- A piece within the row and within one block keeps the write queues whole. -/
theorem State.requestPiece_keeps (s : State) (i : DramReqIn) (start : Nat) {p : Nat × Nat}
    (hsize : p.1 + p.2 ≤ s.rowSize i.row) (hblock : p.1 % 256 + p.2 ≤ 256) : KeepsInvariants s (s.requestPiece i start p) := by
  unfold State.requestPiece
  split
  next c a hmap =>
    have hbound := State.mapOffset_bound hmap hsize hblock
    split
    · refine State.requestWrite_keeps s i c ?_ ?_
      · simp only [List.length_take]
        omega
      · exact Nat.le_trans (by simp only [List.length_take]; omega) (length_fitBool p.2 _)
    · exact .of_core (State.requestRead_core _ _ _ _ _)
  next => exact .refl s

theorem State.requestPieces_keeps (s : State) (i : DramReqIn) (off : Nat) (hsize : off + reqSize i ≤ s.rowSize i.row) :
    KeepsInvariants s ((pieces (reqSize i) off (reqSize i)).foldl (fun s p => s.requestPiece i off p) s) := by
  refine (List.foldlRecOn (motive := fun t => (∃ d, t = { s with dram := d }) ∧ KeepsInvariants s t) _ _ ⟨⟨_, rfl⟩, .refl s⟩
    fun t ⟨⟨d, hd⟩, hk⟩ p hp => ?_).2
  obtain ⟨-, hend, hblock⟩ := pieces_bounds hp
  obtain ⟨d', hd'⟩ := t.requestPiece_dram i off p
  refine ⟨⟨d', by rw [hd', hd]⟩, hk.trans (t.requestPiece_keeps i off ?_ hblock)⟩
  rw [hd]
  exact Nat.le_trans hend hsize

theorem State.requestSram_keeps (s : State) (i : DramReqIn) (tile addr : Nat) : KeepsInvariants s (s.requestSram i tile addr) := by
  unfold State.requestSram
  dsimp only
  split
  · exact .of_dram fun ⟨hmem, hsram, hq⟩ => ⟨hmem, Memory.wf_writeEn hsram _ _ _, hq⟩
  · exact .of_core rfl

theorem State.memRequest_keeps (s : State) (i : DramReqIn) : KeepsInvariants s (s.memRequest i) := by
  have href := KeepsInvariants.of_core (State.refuseRequest_core s i)
  unfold State.memRequest
  dsimp only
  split
  · exact href
  · split
    next row off _ =>
      split
      · exact href
      · next hin =>
        simp only [Bool.or_eq_true, decide_eq_true_eq, not_or, Nat.not_lt] at hin
        split
        · exact .refl s
        · exact s.requestPieces_keeps i off hin.1.2
    next =>
      split
      · exact s.requestSram_keeps i _ _
      · exact href
    next => exact href

theorem wf_eccLeaves {mem : Memory} (h : Memory.wf mem = true) (d : PageDamage) (c : Channel) (gs : List Nat) :
    Memory.wf (eccLeaves mem d c gs) = true :=
  List.foldlRecOn (motive := fun m => Memory.wf m = true) _ _ h fun _ hm _ _ => Memory.wf_write hm _ _

/-- DRAM's bytes replaced by others in canonical form, with whatever else a node keeps beside them. -/
theorem KeepsInvariants.of_mem {s : State} {mem : Memory} {poison : List Nat} {replies : List DramReply}
    (hw : Memory.wf s.dram.mem = true → Memory.wf mem = true) :
    KeepsInvariants s { s with dram := { s.dram with mem := mem, poison := poison, replies := replies } } :=
  .of_dram fun ⟨hmem, hsram, hq⟩ => ⟨hw hmem, hsram, hq⟩

/-- What the code leaves in DRAM is in canonical form, whatever else a node notes beside it. -/
theorem KeepsInvariants.of_eccLeaves {s t : State} (h : t.core = s.core) (d : PageDamage) (c : Channel) (gs : List Nat)
    (poison : List Nat) (replies : List DramReply) : KeepsInvariants s
      { t with dram := { t.dram with mem := eccLeaves s.dram.mem d c gs, poison := poison, replies := replies } } := by
  refine (KeepsInvariants.of_core h).trans (.of_mem fun hw => wf_eccLeaves ?_ d c gs)
  rwa [← show t.dram.mem = s.dram.mem from congrArg StateCore.mem h]

theorem State.grantRead_keeps (s : State) (c : Channel) (r : DramReq) (d : PageDamage) (slot64 : Nat) :
    KeepsInvariants s (s.grantRead c r d slot64) := by
  unfold State.grantRead
  dsimp only
  split
  · refine KeepsInvariants.trans (.of_eccLeaves ?_ _ _ _ _ _) (.of_core (State.eccReport_core _ _ _ _))
    split <;> simp
  · refine .of_eccLeaves ?_ _ _ _ _ _
    split <;> simp

theorem State.drainEntry_keeps (s : State) (c : Channel) (e : WqEntry) : KeepsInvariants s (s.drainEntry c e) :=
  (s.modChannel_keeps c fun _ h => queueOk_filter h _).trans (.of_mem fun h => Memory.wf_writeEn h _ _ _)

theorem State.schedule_keeps (s : State) (i : SchedIn) : KeepsInvariants s (s.schedule i) := by
  unfold State.schedule
  dsimp only
  refine (s.modChannel_keeps i.channel (g := fun x => { x with draining := (s.channel i.channel).drains }) fun _ h => h).trans ?_
  (repeat' split) <;> first | exact State.drainEntry_keeps _ _ _ | exact State.grantRead_keeps _ _ _ _ _ | exact .refl _

theorem State.scrubCorrected_keeps (s : State) (c : Channel) (g : Nat) : KeepsInvariants s (s.scrubCorrected c g) := by
  unfold State.scrubCorrected
  dsimp only
  split
  · refine KeepsInvariants.trans (s.modChannel_keeps c ?_) (KeepsInvariants.atNext ?_)
    · exact fun _ h => h
    · exact (KeepsInvariants.of_core (State.raiseNode_core _ _ _ _ _)).trans (State.addLedger_keeps _ _ _ _ _ _)
  · exact s.modChannel_keeps c fun _ h => h

theorem execPatrolScrub_keeps (i : ScrubIn) (s : State) : ∃ t, exec (.patrolScrub i) s = .next t ∧ KeepsInvariants s t := by
  refine ⟨_, rfl, ?_⟩
  dsimp only
  have hread (t : State) (ht : t.core = s.core) (raw : Nat) : KeepsInvariants s (State.chargeBackground
      { t with dram := { t.dram with mem := eccLeaves s.dram.mem i.ecc i.channel [i.granule.toNat] } } i.channel raw) :=
    (KeepsInvariants.of_eccLeaves ht _ _ _ _ _).trans (.of_core (State.chargeBackground_core _ _ _))
  have hpoison (t : State) (poison : List Nat) (ht : KeepsInvariants s t) : KeepsInvariants s (State.eccReport
      { t with dram := { t.dram with poison := poison } } i.channel (32 * i.granule.toNat) none) :=
    ht.trans ((KeepsInvariants.of_core rfl).trans (.of_core (State.eccReport_core _ _ _ _)))
  split
  · exact .refl s
  · split
    · exact hread _ (core_modChannel _ _ _ (by intro; rfl)) _
    · exact (hread _ (core_modChannel _ _ _ (by intro; rfl)) _).trans (State.scrubCorrected_keeps _ _ _)
    · exact hpoison _ _ (hread _ (core_modChannel _ _ _ (by intro; rfl)) _)

/-! ### Zeroing (R192, R432) -/

theorem State.zeroRow_keeps (s : State) (row : Row) (lo n : Nat) : KeepsInvariants s (s.zeroRow row lo n) := by
  unfold State.zeroRow
  dsimp only
  refine KeepsInvariants.trans (.of_mem fun h => Memory.wf_filter h _) (KeepsInvariants.foldl (fun t c => ?_) _ _)
  exact t.modChannel_keeps c fun _ h => queueOk_filter h _

theorem State.zeroBuffer_keeps (s : State) (b : Buffer) : KeepsInvariants s (s.zeroBuffer b) := s.zeroRow_keeps _ _ _

theorem execZeroingComplete_keeps (i : PoolBufIn) (s : State) :
    ∃ t, exec (.zeroingComplete i) s = .next t ∧ KeepsInvariants s t := by
  refine ⟨_, rfl, ?_⟩
  split
  · split
    · exact (s.zeroBuffer_keeps _).trans (.of_core rfl)
    · exact .refl s
  · exact .refl s

theorem State.endScrub_keeps (s : State) (f : Fn) : KeepsInvariants s (s.endScrub f) := by
  unfold State.endScrub
  dsimp only
  refine (KeepsInvariants.foldl State.zeroBuffer_keeps _ s).trans (.of_ledger_eq rfl ?_ rfl rfl)
  exact fun ⟨hmem, hsram, hq⟩ => ⟨hmem, Memory.wf_filter hsram _, hq⟩

theorem State.endTenant_keeps (s : State) (t : Tenant) : KeepsInvariants s (s.endTenant t) := by
  unfold State.endTenant
  split
  · exact (s.endScrub_keeps (fnOf t)).trans (.of_core (by simp))
  · exact .refl s

theorem State.endPf_keeps (s : State) (began : Nat) : KeepsInvariants s (s.endPf began) := by
  unfold State.endPf
  dsimp only
  exact (KeepsInvariants.foldl State.endTenant_keeps allTenants s).trans (.of_core (by simp))

theorem execResetEnd_keeps (i : FnIn) (s : State) : ∃ t, exec (.resetEnd i) s = .next t ∧ KeepsInvariants s t := by
  refine ⟨_, rfl, ?_⟩
  split
  · split
    · exact .refl s
    · refine .atNext ?_
      split
      · split
        · exact .refl _
        · exact State.endTenant_keeps _ _
      · exact State.endPf_keeps _ _
  · exact .refl s

/-! ### Bring-up (R586, R588) -/

theorem State.foundFaulty_keeps (s : State) (u : UnitRef) : KeepsInvariants s (s.foundFaulty u) := by
  unfold State.foundFaulty
  dsimp only
  split
  · exact .refl s
  · refine KeepsInvariants.trans ?_ (State.bootLedger_keeps _ _ _ _ _ _)
    exact .of_core rfl

theorem State.finding_keeps (s : State) (f : SelfTestFinding) : KeepsInvariants s (s.finding f) := by
  unfold State.finding
  dsimp only
  (repeat' split) <;> first
    | exact .refl s
    | exact s.foundFaulty_keeps _
    | exact s.bootLedger_keeps _ _ _ _ _
    | exact .of_core (State.bootFail_core s _)

theorem repairOne_keeps (i : BringUpIn) (a : Nat × State) (e : LedgerEntry) : KeepsInvariants a.2 (repairOne i a e).2 := by
  unfold repairOne
  split
  · exact .refl _
  · split <;> exact State.bootLedger_keeps _ _ _ _ _ _

theorem repairs_keeps (i : BringUpIn) (l : List LedgerEntry) (a : Nat × State) :
    KeepsInvariants a.2 (l.foldl (repairOne i) a).2 := by
  induction l generalizing a with
  | nil => exact .refl _
  | cons e l ih => exact (repairOne_keeps i a e).trans (ih _)

theorem State.bootTraining_keeps (s : State) (i : BringUpIn) : KeepsInvariants s (s.bootTraining i) := by
  unfold State.bootTraining
  dsimp only
  split
  · exact .of_core rfl
  · refine KeepsInvariants.trans (KeepsInvariants.trans ?_ (repairs_keeps i _ _)) (.of_core (core_mk _ _ _ _ _ _ _ _ _ _ _ _ _ rfl rfl rfl))
    exact .of_core rfl

theorem State.bootFirmware_keeps (s : State) (i : BringUpIn) : KeepsInvariants s (s.bootFirmware i) := by
  unfold State.bootFirmware
  dsimp only
  split <;> exact .of_core rfl

/-- What bring-up does once the ledger is read only adds to the ledger. -/
theorem execBringUp_keeps (i : BringUpIn) (s : State) :
    ∃ t, exec (.bringUp i) s = .next t ∧ (t = s ∨ KeepsInvariants (s.bootRom i) t) := by
  refine ⟨_, rfl, ?_⟩
  dsimp only
  split
  · exact .inl rfl
  · refine .inr ?_
    split
    · exact .refl _
    · split
      · exact (State.bootFirmware_keeps _ i).trans (.of_core (State.bootFail_core _ _))
      · exact (State.bootFirmware_keeps _ i).trans ((State.bootTraining_keeps _ i).trans (.foldl State.finding_keeps _ _))

theorem State.hallmarkStart_eq (s : State) : ∃ views, s.hallmarkStart = { s with host := { s.host with views := views } } :=
  List.foldlRecOn (motive := fun (t : State) => ∃ views, t = { s with host := { s.host with views := views } }) allFns _ ⟨s.host.views, rfl⟩
    fun _ ⟨_, ht⟩ _ _ => ht ▸ ⟨_, rfl⟩

/-- Phase 1 sets the ledger, the module's place and the Hallmark views. -/
theorem State.bootRom_eq (s : State) (i : BringUpIn) : ∃ (views : Vector HmView 17) (lead : Nat), s.bootRom i = { s with
    host := { s.host with views := views }
    nor := { s.nor with ledger0 := s.nor.union i, ledger1 := s.nor.union i }
    boot := { s.boot with broughtUp := true, moduleNo := 4 * i.tray.val + i.slot.val, slot := i.slot.val, tray := i.tray.val,
                          leadRow := lead } } := by
  unfold State.bootRom
  dsimp only
  obtain ⟨views, h⟩ := State.hallmarkStart_eq { s with
    nor := { s.nor with ledger0 := s.nor.union i, ledger1 := s.nor.union i }
    boot := { s.boot with broughtUp := true, moduleNo := 4 * i.tray.val + i.slot.val, slot := i.slot.val, tray := i.tray.val,
                          leadRow := leadOf (retiredBy (s.nor.union i)) i.findings } }
  exact ⟨views, _, h⟩

theorem State.bootRom_nor (s : State) (i : BringUpIn) : (s.bootRom i).nor =
    { s.nor with ledger0 := s.nor.union i, ledger1 := s.nor.union i } := by
  obtain ⟨_, _, h⟩ := s.bootRom_eq i
  rw [h]

theorem State.bootRom_ledgerOk (s : State) (i : BringUpIn) : (s.bootRom i).ledgerOk := by
  simp only [State.ledgerOk, State.bootRom_nor, Nor.union, List.length_take, true_and]
  exact Nat.min_le_left _ _

/-- Of two copies of one ledger, of which no entry is lost in both, the union is that ledger. -/
theorem ledgerUnion_torn (l : List LedgerEntry) (p q : Nat → Bool) (h : ∀ i, p i = true → q i = false) :
    ledgerUnion (l.mapIdx (fun i e => if p i then none else some e)) (l.mapIdx (fun i e => if q i then none else some e)) = l := by
  induction l generalizing p q with
  | nil => rfl
  | cons e l ih =>
    simp only [List.mapIdx_cons, ledgerUnion, ih (fun i => p (i + 1)) (fun i => q (i + 1)) fun i => h (i + 1)]
    cases hp : p 0
    · cases q 0 <;> simp
    · simp [h 0 hp]

theorem Nor.union_eq {x : Nor} {i : BringUpIn} (heq : x.ledger1 = x.ledger0) (hlen : x.ledger0.length ≤ 4096)
    (htorn : ∀ k ∈ i.torn0, k ∉ i.torn1) : x.union i = x.ledger0 := by
  unfold Nor.union readable
  rw [heq, ledgerUnion_torn, List.take_of_length_le hlen]
  simp only [List.any_eq_true, List.any_eq_false, beq_iff_eq]
  rintro n ⟨k, hk, rfl⟩ j hj he
  exact htorn k hk (Fin.ext he ▸ hj)

theorem State.bootRom_ledgerKept {s : State} {i : BringUpIn} (h : s.ledgerOk) (htorn : ∀ k ∈ i.torn0, k ∉ i.torn1) :
    LedgerKept s (s.bootRom i) := by
  simp only [LedgerKept, State.bootRom_nor, Nor.union_eq h.1 h.2 htorn, List.prefix_refl]

theorem State.bootRom_leaves (s : State) (i : BringUpIn) : (s.bootRom i).pending = s.pending ∧ (s.bootRom i).dram = s.dram := by
  obtain ⟨_, _, h⟩ := s.bootRom_eq i
  rw [h]
  exact ⟨rfl, rfl⟩

/-! ### Every command -/

theorem exec_movesCore_keeps {i : Instr} (hm : movesCore i = true) (hb : ∀ b, i ≠ .bringUp b) (s : State) :
    ∃ t, exec i s = .next t ∧ KeepsInvariants s t := by
  cases i <;> cases hm
  case commit i => exact execCommit_keeps i s
  case dieStart i =>
    refine ⟨_, rfl, ?_⟩
    split <;> split <;> first | exact s.dieStart_keeps _ | exact .refl s
  case bootRomWatchdog =>
    refine ⟨_, rfl, ?_⟩
    split
    · exact s.dieStart_keeps _
    · exact .refl s
  case bringUp b => exact absurd rfl (hb b)
  case dramRequest i =>
    refine ⟨_, rfl, ?_⟩
    split
    · exact .refl s
    · exact s.memRequest_keeps i
  case schedulingDecision i =>
    refine ⟨_, rfl, ?_⟩
    split
    · exact .refl s
    · exact s.schedule_keeps i
  case patrolScrub i => exact execPatrolScrub_keeps i s
  case zeroingComplete i => exact execZeroingComplete_keeps i s
  case resetEnd i => exact execResetEnd_keeps i s

theorem exec_keeps {i : Instr} (hi : ∀ b, i ≠ .bringUp b) (s : State) : ∃ t, exec i s = .next t ∧ KeepsInvariants s t := by
  by_cases hm : movesCore i = true
  · exact exec_movesCore_keeps hm hi s
  · rw [Bool.not_eq_true] at hm
    have hcore : KeepsCore s (exec i s) := by
      cases hr : ringCommand i with
      | none => exact exec_keepsCore hm hr s
      | some hc =>
        rw [exec_ringCommand hr]
        exact ringRow_keepsCore s _ _ _
    obtain ⟨t, ht, hk⟩ := hcore
    exact ⟨t, ht, .of_core hk⟩

/-- Bring-up keeps the same, save entries torn in both copies. -/
theorem exec_bringUp_keeps (i : BringUpIn) (s : State) : ∃ t, exec (.bringUp i) s = .next t ∧ t.pending = s.pending ∧
    (s.memoryOk → t.memoryOk) ∧ (s.ledgerOk → t.ledgerOk) ∧
    (s.ledgerOk → (∀ k ∈ i.torn0, k ∉ i.torn1) → LedgerKept s t) := by
  obtain ⟨t, ht, rfl | hk⟩ := execBringUp_keeps i s
  · exact ⟨t, ht, rfl, id, id, fun _ _ => List.prefix_refl _⟩
  · obtain ⟨hpending, hdram⟩ := s.bootRom_leaves i
    have hled := hk.ledger (s.bootRom_ledgerOk i)
    refine ⟨t, ht, hk.pending.trans hpending, fun h => hk.memory ?_, fun _ => hled.1, fun h htorn => ?_⟩
    · simpa only [State.memoryOk, State.channel, hdram] using h
    · exact (State.bootRom_ledgerKept h htorn).trans hled.2

/-! ### The step -/

theorem step_withPending (c : Instr) (q : List Instr) (s : State) : step (s.withPending (c :: q)) = exec c (s.withPending q) := rfl

theorem step_cons {c : Instr} {q : List Instr} {s : State} (h : s.pending = c :: q) :
    step s = exec c { s with pending := q } := by
  unfold step
  rw [h]
  rfl

theorem step_idle {s : State} (h : s.pending = []) : step s = .next s := by
  unfold step
  rw [h]

/-- Settles O1: the queue's front is what the step matches on. -/
theorem stepRunsFrontCommand : Obligations.StepRunsFrontCommand := by
  unfold Obligations.StepRunsFrontCommand
  exact ⟨step_withPending, fun _ _ _ => step_cons, fun _ => step_idle⟩

/-- Settles O2: every row answers a next state with the queue it found. -/
theorem everyCommandAnswersAndLeavesTheQueue : Obligations.EveryCommandAnswersAndLeavesTheQueue := by
  unfold Obligations.EveryCommandAnswersAndLeavesTheQueue
  intro i s
  by_cases hb : ∃ b, i = .bringUp b
  · obtain ⟨b, rfl⟩ := hb
    obtain ⟨t, ht, hp, -⟩ := exec_bringUp_keeps b s
    exact ⟨t, ht, hp⟩
  · obtain ⟨t, ht, hk⟩ := exec_keeps (not_exists.1 hb) s
    exact ⟨t, ht, hk.pending⟩

/-- Settles O4: each row either leaves the memories alone or writes them through operations that keep the canonical form. -/
theorem memoryStaysCanonical : Obligations.MemoryStaysCanonical := by
  unfold Obligations.MemoryStaysCanonical
  intro s t hok hstep
  cases hp : s.pending with
  | nil =>
    rw [step_idle hp, Host.Outcome.next.injEq] at hstep
    exact hstep ▸ hok
  | cons i q =>
    rw [step_cons hp] at hstep
    by_cases hb : ∃ b, i = .bringUp b
    · obtain ⟨b, rfl⟩ := hb
      obtain ⟨u, hu, -, hm, -⟩ := exec_bringUp_keeps b { s with pending := q }
      rw [hu, Host.Outcome.next.injEq] at hstep
      exact hstep ▸ hm hok
    · obtain ⟨u, hu, hk⟩ := exec_keeps (not_exists.1 hb) { s with pending := q }
      rw [hu, Host.Outcome.next.injEq] at hstep
      exact hstep ▸ hk.memory hok

/-- Settles O5: entries are only ever appended, to both copies at once; bring-up reads back the union of the copies, which is the
ledger where no entry is torn in both. -/
theorem ledgerOnlyGrows : Obligations.LedgerOnlyGrows := by
  unfold Obligations.LedgerOnlyGrows
  intro s t hok hstep
  cases hp : s.pending with
  | nil =>
    rw [step_idle hp, Host.Outcome.next.injEq] at hstep
    subst hstep
    exact ⟨hok, fun _ => List.prefix_refl _⟩
  | cons i q =>
    rw [step_cons hp] at hstep
    by_cases hb : ∃ b, i = .bringUp b
    · obtain ⟨b, rfl⟩ := hb
      obtain ⟨u, hu, -, -, hl, hkept⟩ := exec_bringUp_keeps b { s with pending := q }
      rw [hu, Host.Outcome.next.injEq] at hstep
      subst hstep
      exact ⟨hl hok, fun htorn => hkept hok (htorn b q rfl)⟩
    · obtain ⟨u, hu, hk⟩ := exec_keeps (not_exists.1 hb) { s with pending := q }
      rw [hu, Host.Outcome.next.injEq] at hstep
      subst hstep
      have hl := hk.ledger hok
      exact ⟨hl.1, fun _ => hl.2⟩

end Sys2Proof.Machine
end


section
/-! The test port, evacuation, heat and the safety checks (O59, O51, O54, O53). -/

namespace Sys2Proof.Machine

/-! ### What a row raises as of the coming commit -/

/-- Only the events that a row raises as of the coming commit stay behind. -/
theorem OnlyRaises.backTo {s t : State} (h : OnlyRaises s.coming t) : OnlyRaises s (t.backTo s.clk) where
  rest := by
    rw [h.rest]
    rfl
  sealed_eq := h.sealed_eq
  grows := h.grows

theorem OnlyRaises.leaves {s t : State} (h : OnlyRaises s t) :
    t.clk = s.clk ∧ t.work = s.work ∧ t.chain = s.chain ∧ t.dram = s.dram ∧ t.safety = s.safety := by
  rw [h.rest]
  exact ⟨rfl, rfl, rfl, rfl, rfl⟩

/-! ### The test port (R597) -/

theorem Jtag.scanned_of_ne_nil (x : Jtag) {bits : List Bool} (h : bits ≠ []) : x.scanned bits = bits := by
  simp [Jtag.scanned, h]

theorem State.length_captured (s : State) (n : Nat) : (s.captured n).length = n := by simp [State.captured]

/-- Settles O59: BYPASS and IDCODE are the rows' own words; the other two capture as many pins as bits shift in. -/
theorem testPortShiftsItsRegisters : Obligations.TestPortShiftsItsRegisters := by
  unfold Obligations.TestPortShiftsItsRegisters
  intro i s
  exact ⟨rfl, rfl,
    ⟨_, rfl, rfl, rfl, s.length_captured _, s.jtag.scanned_of_ne_nil⟩,
    ⟨_, rfl, rfl, rfl, s.length_captured _, s.jtag.scanned_of_ne_nil⟩⟩

/-! ### Evacuation (R607-R610) -/

theorem State.atNext_raiseAll (s : State) (fs : State → List Fn) (code : Nat) (d : List Byte) :
    OnlyRaises s (s.atNext (fun s => s.raiseAll (fs s) code d)) := (State.raiseAll_onlyRaises _ _ _ _).backTo

section
variable {s : State} (hd : s.dead = false)
include hd

theorem exec_evacuationRequested (h : s.work.evacuating = false) : exec .evacuationRequested s = .next
    ((s.withWork { s.work with evacuating := true, evacDone := false }).atNext (fun s =>
      s.raiseAll (pfFn :: s.sealedFns.filter (fun f => !isPf f)) 0x0503 [])) := by
  change execEvacuationRequested s = _
  simp [execEvacuationRequested, hd, h]

theorem exec_evacuationCancelled (h : s.work.evacuating = true) (hdone : s.work.evacDone = false) :
    exec .evacuationCancelled s = .next ((s.withWork { s.work with evacuating := false }).atNext
      (fun s => s.raise pfFn 0x0505 (le 2 s.chain.migrations.length))) := by
  change execEvacuationCancelled s = _
  simp [execEvacuationCancelled, hd, h, hdone]

end

/-- A row that does nothing while no evacuation is under way, or once it is complete. -/
theorem exec_evacuationCancelled_idle {s : State} (h : s.work.evacuating = false ∨ s.work.evacDone = true) :
    exec .evacuationCancelled s = .next s := by
  change execEvacuationCancelled s = _
  unfold execEvacuationCancelled
  rw [if_pos (by rcases h with h | h <;> simp [h])]

/-- What keeps EVAC_DONE_N from being asserted (R609). -/
theorem exec_evacuationComplete_idle {s : State} (h : s.work.evacuating = false ∨ s.work.evacDone = true ∨ s.work.streams ≠ [] ∨
    s.chain.migrations ≠ [] ∨ s.chain.mirrors ≠ [] ∨ s.chain.incoming ≠ []) : exec .evacuationComplete s = .next s := by
  change execEvacuationComplete s = _
  unfold execEvacuationComplete
  rw [if_neg (by rcases h with h | h | h | h | h | h <;> simp [h])]

theorem exec_evacuationComplete {s : State} (hr : s.isReady = true) (he : s.work.evacuating = true) (hdone : s.work.evacDone = false)
    (hs : s.work.streams = []) (hm : s.chain.migrations = []) (hmir : s.chain.mirrors = []) (hi : s.chain.incoming = []) :
    exec .evacuationComplete s = .next ((s.withWork { s.work with evacDone := true }).atNext (fun s => s.raise pfFn 0x0504 [])) := by
  change execEvacuationComplete s = _
  simp [execEvacuationComplete, hr, he, hdone, hs, hm, hmir, hi]

theorem mem_pf_and_sealed {s : State} {f : Fn} (h : (s.fnSt f).sealed = true) :
    f ∈ pfFn :: s.sealedFns.filter (fun f => !isPf f) := by
  by_cases hpf : f = pfFn
  · simp [hpf]
  · refine List.mem_cons_of_mem _ (List.mem_filter.2 ⟨State.mem_sealedFns.2 h, ?_⟩)
    rw [Bool.not_eq_true', ← Bool.not_eq_true, isPf_iff]
    exact hpf

/-- Settles O51: each row is its guards over one change of the work state and one event. -/
theorem evacuationEmptiesTheModule : Obligations.EvacuationEmptiesTheModule := by
  unfold Obligations.EvacuationEmptiesTheModule
  intro s hd
  refine ⟨fun h => ?_, fun h => ?_, fun h hdone => ?_, fun h => ?_⟩
  · change execEvacuationRequested s = _
    simp [execEvacuationRequested, h]
  · refine ⟨exec_evacuationCancelled_idle (.inl h), exec_evacuationComplete_idle (.inl h), _, exec_evacuationRequested hd h, ?_⟩
    obtain ⟨hclk, hwork, hchain, hdram, -⟩ := (State.atNext_raiseAll
      (s.withWork { s.work with evacuating := true, evacDone := false })
      (fun s => pfFn :: s.sealedFns.filter (fun f => !isPf f)) 0x0503 []).leaves
    exact ⟨hwork, hclk, hchain, hdram, State.raiseAll_raised _ (by simp) _ _, fun f hf => State.raiseAll_raised _ (mem_pf_and_sealed hf) _ _⟩
  · refine ⟨⟨_, exec_evacuationCancelled hd h hdone, ?_⟩, fun hdep => exec_evacuationComplete_idle (.inr (.inr hdep)),
      fun hr hs hm hmir hi => ⟨_, exec_evacuationComplete hr h hdone hs hm hmir hi, ?_⟩⟩
    · exact ⟨rfl, rfl, rfl, rfl, State.raise_raised _ _ _ _⟩
    · exact ⟨rfl, rfl, rfl, rfl, State.raise_raised _ _ _ _⟩
  · exact ⟨exec_evacuationCancelled_idle (.inr h), exec_evacuationComplete_idle (.inr (.inl h))⟩

/-! ### Thermal protection (R618-R620, R602) -/

theorem State.setStep_same {s : State} {n : Nat} (h : n = s.safety.throttle) : s.setStep n = s := by
  rw [State.setStep, if_pos h]

theorem State.setStep_of_ne {s : State} {n : Nat} (h : n ≠ s.safety.throttle) : s.setStep n =
    if s.safety.state == .failed then s.withSafety { s.safety with throttle := n, stepTick := some s.clk.tick }
    else (s.withSafety { s.safety with throttle := n, stepTick := some s.clk.tick }).raiseAll s.sealedFns 0x0600
      (le 1 s.safety.throttle ++ le 1 n) := by
  rw [State.setStep, if_neg h]
  rfl

/-- A new step raises one event and changes only what is safety's. -/
theorem State.setStep_onlyRaises {s : State} {n : Nat} (h : n ≠ s.safety.throttle) :
    OnlyRaises (s.withSafety { s.safety with throttle := n, stepTick := some s.clk.tick }) (s.setStep n) := by
  rw [State.setStep_of_ne h]
  split
  · exact .refl _
  · exact State.raiseAll_onlyRaises _ _ _ _

theorem State.setStep_raised {s : State} {n : Nat} (h : n ≠ s.safety.throttle) (hf : s.safety.state ≠ .failed) {f : Fn}
    (hs : (s.fnSt f).sealed = true) : Raised s (s.setStep n) f 0x0600 s.clk.tick := by
  rw [State.setStep_of_ne h, if_neg (by simpa using hf)]
  exact State.raiseAll_raised (s.withSafety { s.safety with throttle := n, stepTick := some s.clk.tick })
    (State.mem_sealedFns.2 hs) _ _

/-- A step that is set, new or not, changes nothing but what is safety's, and raises. -/
theorem State.setStep_throttle (s : State) (n : Nat) : ∃ tick, OnlyRaises
    (s.withSafety { s.safety with throttle := n, stepTick := tick }) (s.setStep n) := by
  by_cases h : n = s.safety.throttle
  · rw [State.setStep_same h, h]
    exact ⟨s.safety.stepTick, .refl _⟩
  · exact ⟨_, State.setStep_onlyRaises h⟩

/-! When a reading moves the step (R618). -/

theorem Safety.nextStep_warm {x : Safety} {tick : Nat} {t : Int} (hlo : 95 < t) (hhi : t < 100) :
    x.nextStep tick t = x.throttle := by
  unfold Safety.nextStep Safety.cooled
  rw [if_neg (by omega), if_neg (show ¬ t ≤ 95 by omega)]
  simp

theorem Safety.nextStep_hot {x : Safety} {tick : Nat} {t : Int} (h : 100 ≤ t) :
    x.nextStep tick t = if x.throttle < maxStep && x.stepRested tick then x.throttle + 1 else x.throttle := by
  rw [Safety.nextStep, if_pos h]

theorem Safety.nextStep_cool {x : Safety} {tick : Nat} {t : Int} (h : t ≤ 95) :
    x.nextStep tick t = if !x.arraysStopped && 600 ≤ x.coolTicks + 1 then x.throttle - 1 else x.throttle := by
  rw [Safety.nextStep, if_neg (by omega), Safety.cooled, if_pos h]

theorem Safety.stepRested_iff {x : Safety} {tick : Nat} :
    x.stepRested (tick + 1) = true ↔ ∀ t, x.stepTick = some t → t + 60 ≤ tick := by
  unfold Safety.stepRested
  split
  · next t ht => simp [ht, Nat.lt_add_one_iff]
  · next ht => simp [ht]

theorem Safety.cooled_hot {x : Safety} {t : Int} (h : 95 < t) : x.cooled t = 0 := by
  rw [Safety.cooled, if_neg (by omega)]

theorem Safety.cooled_cool {x : Safety} {t : Int} (h : t ≤ 95) : x.cooled t = x.coolTicks + 1 := by
  rw [Safety.cooled, if_pos h]

/-! The rows. -/

section
variable {s : State} {i : JunctionIn} (hrun : s.boot.running = true)
include hrun

theorem exec_thermalThrottle : exec (.thermalThrottle i) s = .next
    (((s.coming.withSafety { s.safety with coolTicks := s.safety.cooled i.celsius }).setStep
      (s.safety.nextStep (s.clk.tick + 1) i.celsius)).backTo s.clk) := by
  change execThermalThrottle i s = _
  unfold execThermalThrottle
  rw [hrun]
  rfl

/-- A reading that keeps the step only counts. -/
theorem exec_thermalThrottle_counts {n : Nat} (h : s.safety.nextStep (s.clk.tick + 1) i.celsius = s.safety.throttle)
    (hn : s.safety.cooled i.celsius = n) : exec (.thermalThrottle i) s =
    .next { s with safety := { s.safety with coolTicks := n } } := by
  rw [exec_thermalThrottle hrun, State.setStep_same (by exact h), hn]
  rfl

/-- A reading that moves the step. -/
theorem exec_thermalThrottle_changes {n : Nat} (h : s.safety.nextStep (s.clk.tick + 1) i.celsius = n) (hne : n ≠ s.safety.throttle) :
    ∃ t, exec (.thermalThrottle i) s = .next t ∧ t.safety.throttle = n ∧
      t.safety.stepTick = some (s.clk.tick + 1) ∧ t.safety.arraysStopped = s.safety.arraysStopped ∧ t.clk = s.clk ∧
      t.work = s.work ∧ t.dram = s.dram ∧
      (s.safety.state ≠ .failed → ∀ f : Fn, (s.fnSt f).sealed = true → Raised s t f 0x0600 (s.clk.tick + 1)) := by
  refine ⟨_, exec_thermalThrottle hrun, ?_⟩
  rw [h]
  have hraises : OnlyRaises (s.withSafety { s.safety with
      coolTicks := s.safety.cooled i.celsius
      throttle := n
      stepTick := some (s.clk.tick + 1) }) _ := OnlyRaises.backTo (State.setStep_onlyRaises
        (s := s.coming.withSafety { s.safety with coolTicks := s.safety.cooled i.celsius }) hne)
  obtain ⟨hclk, hwork, -, hdram, hsafety⟩ := hraises.leaves
  exact ⟨congrArg Safety.throttle hsafety, congrArg Safety.stepTick hsafety, (congrArg Safety.arraysStopped hsafety).trans rfl, hclk, hwork, hdram,
    fun hf f hs => State.setStep_raised (s := s.coming.withSafety { s.safety with coolTicks := s.safety.cooled i.celsius }) hne hf hs⟩

theorem exec_thermalRunaway (h : 110 < i.celsius) : ∃ x : Safety, exec (.thermalRunaway i) s = .next { s with safety := x } ∧
    x.arraysStopped = true ∧ x.fanFull = true ∧ x.coolTicks = 0 ∧ x.throttle = s.safety.throttle ∧
    (s.isReady = true → s.safety.arraysStopped = false →
      ∃ n, x.faults = s.safety.faults ++ [n] ∧ n.cls = some .thermalRunaway) := by
  have hexec : exec (.thermalRunaway i) s = execThermalRunaway i s := rfl
  rw [hexec, execThermalRunaway, if_neg (by simp [hrun, h])]
  dsimp only
  split
  next hstill =>
    refine ⟨_, rfl, rfl, rfl, rfl, rfl, fun hr hs => ?_⟩
    simp [hr, hs] at hstill
  next => exact ⟨_, rfl, rfl, rfl, rfl, rfl, fun _ _ => ⟨_, rfl, rfl⟩⟩

end

theorem State.logTrip_eq (s : State) : ∃ held m, s.logTrip = { s with power := { s.power with heldTrip := held }, mmc := m } := by
  unfold State.logTrip
  (repeat' split) <;> exact ⟨_, _, rfl⟩

theorem State.trip_eq (s : State) (cause : Nat) (latch : Bool) (i : TripIn) : ∃ held m, s.trip cause latch i =
    { s with
      power := { s.power with
        gate := .off, pwrgd := false, faultLatched := s.power.faultLatched || latch, heldTrip := held }
      mmc := m
      boot := { s.boot with running := false } } := by
  obtain ⟨held, m, h⟩ := State.logTrip_eq { s.gateOff with power := { s.gateOff.power with
    faultLatched := s.gateOff.power.faultLatched || latch
    heldTrip := s.gateOff.power.heldTrip <|> some (s.power.tripEntry cause s.mmc.starts i) } }
  exact ⟨held, m, h⟩

/-- A final turn-off takes the gate and the die's power, and leaves the rest to the stage's record (R602, R605). -/
theorem State.finalTrip_leaves (s : State) (cause : Nat) (i : TripIn) : ∃ p m, s.finalTrip cause i =
    { s with power := p, mmc := m, boot := { s.boot with running := false } } ∧ p.gate = .off ∧ p.pwrgd = false ∧
    p.faultLatched = true ∧ p.noRetry = true ∧ p.thermtrip = s.power.thermtrip := by
  obtain ⟨held, m, h⟩ := s.trip_eq cause true i
  unfold State.finalTrip
  rw [h]
  exact ⟨_, _, rfl, rfl, rfl, Bool.or_true _, rfl, rfl⟩

theorem exec_thermtrip {s : State} {i : JunctionIn} (hrun : s.boot.running = true) (h : 120 < i.celsius) : ∃ x m p,
    exec (.thermtrip i) s = .next { s with safety := x, power := p, mmc := m, boot := { s.boot with running := false } } ∧
    p.gate = .off ∧ p.pwrgd = false ∧ p.faultLatched = true ∧ p.noRetry = true ∧ p.thermtrip = true := by
  have hexec : exec (.thermtrip i) s = execThermtrip i s := rfl
  rw [hexec, execThermtrip, if_neg (by simp [hrun, h])]
  obtain ⟨p, m, htrip, hp⟩ := State.finalTrip_leaves
    { s.draw.2.draw.2.draw.2 with power := { s.draw.2.draw.2.draw.2.power with thermtrip := true } } 5
    { vOut := BitVec.ofNat 16 s.draw.1, iPeak := BitVec.ofNat 16 s.draw.2.draw.1, msInPhase := s.draw.2.draw.2.draw.1 }
  have hdraws : ∃ x, s.draw.2.draw.2.draw.2 = s.withSafety x := ⟨_, rfl⟩
  obtain ⟨x, hx⟩ := hdraws
  rw [hx] at htrip hp
  refine ⟨x, m, p, ?_, hp⟩
  dsimp only
  rw [hx, htrip]
  rfl

/-- What a service tells every sealed function of a module that has not failed. -/
theorem State.raiseUnlessFailed (s : State) (code : Nat) (d : List Byte) : ∃ u, OnlyRaises s u ∧
    (s.safety.state ≠ .failed → ∀ f : Fn, (s.fnSt f).sealed = true → Raised s u f code s.clk.tick) ∧
    u = if s.safety.state == .failed then s else s.raiseAll s.sealedFns code d := by
  refine ⟨_, ?_, fun hf f hs => ?_, rfl⟩
  · split
    · exact .refl _
    · exact State.raiseAll_onlyRaises _ _ _ _
  · rw [if_neg (by simpa using hf)]
    exact State.raiseAll_raised _ (State.mem_sealedFns.2 hs) _ _

theorem exec_thermalResume {s : State} (hrun : s.boot.running = true) (hstop : s.safety.arraysStopped = true)
    (hcool : 600 ≤ s.safety.coolTicks) : ∃ t, exec .thermalResume s = .next t ∧
      t.safety.arraysStopped = false ∧ t.safety.throttle = 5 ∧ t.clk = s.clk ∧ t.work = s.work ∧ t.dram = s.dram ∧
      (s.safety.state ≠ .failed → ∀ f : Fn, (s.fnSt f).sealed = true → Raised s t f 0x0601 (s.clk.tick + 1)) := by
  have hexec : exec .thermalResume s = execThermalResume s := rfl
  rw [hexec, execThermalResume, if_neg (by simp [hrun, hstop, hcool])]
  have htold := State.raiseUnlessFailed (s.coming.withSafety { s.safety with arraysStopped := false }) 0x0601 []
  obtain ⟨u, hu, hraised, heq⟩ := htold
  obtain ⟨tick, hset⟩ := u.setStep_throttle maxStep
  obtain ⟨hclk, hwork, -, hdram, -⟩ := hu.leaves
  obtain ⟨hclk', hwork', -, hdram', hsafety⟩ := hset.leaves
  obtain ⟨-, -, -, -, husafety⟩ := hu.leaves
  have hclk'' : (u.setStep maxStep).clk = s.coming.clk := hclk'.trans hclk
  refine ⟨(((u.setStep maxStep).withSafety { (u.setStep maxStep).safety with stepTick := some (u.setStep maxStep).clk.tick })).backTo
    s.clk, by rw [heq]; rfl, ?_, congrArg Safety.throttle hsafety, ?_, hwork'.trans hwork, hdram'.trans hdram, fun hf f hs => ?_⟩
  · exact (congrArg Safety.arraysStopped hsafety).trans (congrArg Safety.arraysStopped husafety)
  · change { (u.setStep maxStep).clk with tick := s.clk.tick, ocxoNs := s.clk.ocxoNs } = s.clk
    rw [hclk'']
    rfl
  · have hr := Raised.before (t := u.withSafety { u.safety with throttle := maxStep, stepTick := tick }) (hraised hf f hs) hset
    exact hr

/-- Settles O54: a step is set by what the reading and the ticks since the last step say; the two emergency limits are compared alone. -/
theorem heatThrottlesThenStops : Obligations.HeatThrottlesThenStops := by
  unfold Obligations.HeatThrottlesThenStops
  intro s hrun
  refine ⟨fun i => ?_, fun h => ?_, fun hstop hcool => ?_⟩
  · refine ⟨fun hhot hlow hrest => ?_, fun hhot hmax => ?_, fun t hhot ht hrecent => ?_, fun hlo hhi => ?_, fun hcool hno => ?_,
      fun hcool hlong harr hpos => ?_, fun h => ?_, fun h => exec_thermalRunaway hrun h, fun h => ?_, fun h => ?_⟩
    · refine exec_thermalThrottle_changes hrun ?_ (by omega)
      rw [Safety.nextStep_hot hhot, if_pos]
      simpa [maxStep, Safety.stepRested_iff, hlow] using hrest
    · refine exec_thermalThrottle_counts hrun ?_ (Safety.cooled_hot (by omega))
      rw [Safety.nextStep_hot hhot, if_neg]
      simp [maxStep, Nat.not_lt.2 hmax]
    · refine exec_thermalThrottle_counts hrun ?_ (Safety.cooled_hot (by omega))
      rw [Safety.nextStep_hot hhot, if_neg]
      simp only [Bool.and_eq_true, Safety.stepRested_iff, not_and]
      exact fun _ hrested => absurd (hrested t ht) (by omega)
    · exact exec_thermalThrottle_counts hrun (Safety.nextStep_warm hlo hhi) (Safety.cooled_hot hlo)
    · refine exec_thermalThrottle_counts hrun ?_ (Safety.cooled_cool hcool)
      rw [Safety.nextStep_cool hcool]
      split
      · next hmoves =>
        simp only [Bool.and_eq_true, Bool.not_eq_true', decide_eq_true_eq] at hmoves
        rcases hno with hno | hno | hno
        · omega
        · omega
        · simp [hno] at hmoves
      · rfl
    · refine exec_thermalThrottle_changes hrun ?_ (by omega)
      rw [Safety.nextStep_cool hcool, if_pos (by simp [harr]; omega)]
    · change execThermalRunaway i s = _
      simp [execThermalRunaway, h]
    · change execThermtrip i s = _
      simp [execThermtrip, h]
    · obtain ⟨x, m, p, ht, hgate, hpwr, hlatch, hno, htherm⟩ := exec_thermtrip hrun h
      exact ⟨_, ht, hgate, hpwr, rfl, hlatch, hno, htherm, rfl, rfl, rfl, rfl⟩
  · change execThermalResume s = _
    unfold execThermalResume
    rw [if_pos (by rcases h with h | h <;> simp [h])]
  · exact exec_thermalResume hrun hstop hcool

/-! ### Touchstones and lockstep (R544-R551) -/

theorem Safety.runs_head (x : Safety) (u : UnitRef) (k : Nat) :
    Safety.runs { x with rotation := (u, k) :: x.rotation.filter (fun e => e.1 != u) } u = k := by
  simp [Safety.runs]

theorem Safety.suspectFrom_pass (x : Safety) (u : UnitRef) (t : Nat) : (x.pass u t).suspectFrom u = t + 1 := by
  simp [Safety.suspectFrom, Safety.pass]

/-- The slot of the tick that ends, or the one before (R549). -/
theorem inSlot_iff {t slot : Nat} (h : slot < 96) :
    (t % 96 == slot || (t + 95) % 96 == slot) = true ↔ t % 96 = slot ∨ t % 96 = (slot + 1) % 96 := by
  simp only [Bool.or_eq_true, beq_iff_eq]
  omega

section
variable {s : State} {i : TouchstoneIn} (htouch : s.touchable i.unit = true)
include htouch

theorem exec_touchstone_outside {slot : Nat} (hslot : touchSlot i.unit = some slot) (h : slot < 96) (h0 : s.clk.tick % 96 ≠ slot)
    (h1 : s.clk.tick % 96 ≠ (slot + 1) % 96) : exec (.touchstone i) s = .next s := by
  have hin : ¬ (s.clk.tick % 96 == slot || (s.clk.tick + 95) % 96 == slot) = true := by
    rw [inSlot_iff h]
    exact not_or.2 ⟨h0, h1⟩
  rw [Bool.not_eq_true] at hin
  change execTouchstone i s = _
  simp only [execTouchstone, hslot, hin, htouch, Bool.not_true, Bool.not_false, Bool.or_true, if_true]

theorem exec_touchstone {slot : Nat} (hslot : touchSlot i.unit = some slot) (h : slot < 96)
    (hidle : ∀ r ∈ s.safety.retests, r.unit ≠ i.unit) (hin : s.clk.tick % 96 = slot ∨ s.clk.tick % 96 = (slot + 1) % 96) :
    exec (.touchstone i) s = .next (if (s.touchJob i).1 then (s.touchJob i).2.withSafety ((s.touchJob i).2.safety.pass i.unit s.clk.tick)
      else (s.touchJob i).2.withSafety { (s.touchJob i).2.safety with faults := (s.touchJob i).2.safety.faults ++
        [{ cls := some .touchstoneMismatch, handle := 0xFFFF, seq := 0, unit := i.unit, stateLost := false, column := i.column }] }) := by
  have hany : s.safety.retests.any (fun r => r.unit == i.unit) = false := by
    rw [List.any_eq_false]
    exact fun r hr => by simpa using hidle r hr
  change execTouchstone i s = _
  simp only [execTouchstone, hslot, (inSlot_iff h).2 hin, htouch, hany, Bool.not_true, Bool.or_false, Bool.false_eq_true, if_false]

end

theorem touchJob_right {s : State} {i : TouchstoneIn} : (s.touchJob i).1 = true ↔
    i.signature = Config.touchstoneSignature i.unit.kind (s.safety.runs i.unit % 8) := by
  simp [State.touchJob]

/-- Settles O53: a touchstone's job counts the run, and its signature alone decides between a pass and a note for the decision point. -/
theorem safetyChecksAreNoted : Obligations.SafetyChecksAreNoted := by
  unfold Obligations.SafetyChecksAreNoted
  intro s
  refine ⟨fun i slot hslot htouch hidle => ⟨fun h0 h1 hlt => exec_touchstone_outside htouch hslot hlt h0 h1, fun hin hlt => ?_⟩,
    fun i r hretests hunit htouch => ⟨fun hdone => ?_, fun hfailed hruns htick => ?_⟩,
    fun i hready => ⟨fun hav => ?_, fun hav hnot => ?_⟩, fun hready => ?_, fun i hdead => ?_⟩
  · rw [exec_touchstone htouch hslot hlt hidle hin]
    split
    next hright =>
      refine ⟨_, rfl, Safety.runs_head _ _ _, rfl, fun _ => ⟨Safety.suspectFrom_pass _ _ _, rfl⟩, fun hwrong => ?_⟩
      exact absurd (touchJob_right.1 hright) hwrong
    next hwrong =>
      exact ⟨_, rfl, Safety.runs_head _ _ _, rfl, fun hright => absurd (touchJob_right.2 hright) hwrong,
        fun _ => ⟨rfl, _, rfl, rfl, rfl, rfl⟩⟩
  · change execTouchstoneRetest i s = _
    unfold execTouchstoneRetest
    rw [hretests, List.find?_cons_of_pos (by simpa using hunit)]
    dsimp only
    rw [if_pos]
    rcases hdone with h | h | h <;> simp [h]
  · have hexec : exec (.touchstoneRetest i) s = execTouchstoneRetest i s := rfl
    rw [hexec]
    unfold execTouchstoneRetest
    rw [hretests, List.find?_cons_of_pos (by simpa using hunit)]
    dsimp only
    rw [if_neg (by simp [htouch, hfailed]; omega)]
    refine ⟨_, { r with
      tick := s.clk.tick, runs := r.runs + 1, failed := !(s.touchJob i).1
      column := if (s.touchJob i).1 then r.column else i.column }, rfl, ?_, rfl, rfl, rfl, fun hright => ?_, fun hwrong => ?_, rfl⟩
    · have hsame : (s.touchJob i).2.safety.retests = [r] := hretests
      simp [updWhere, hsame, hunit]
    · simp [touchJob_right.2 hright]
    · simp [Bool.eq_false_iff.2 (mt touchJob_right.1 hwrong)]
  · change execLockstepMismatch i s = _
    simp [execLockstepMismatch, hav]
  · have hany : s.safety.reloading.any (fun x => x.1 == i.row.val) = false := by
      rw [List.any_eq_false]
      exact fun x hx => by simpa using hnot x hx
    have hexec : exec (.lockstepMismatch i) s = execLockstepMismatch i s := rfl
    rw [hexec, execLockstepMismatch]
    dsimp only
    rw [if_neg (by simp [hready, hav, hany])]
    exact ⟨_, rfl, rfl, rfl⟩
  · have hexec : exec .assayLockstepMismatch s = execAssayLockstepMismatch s := rfl
    rw [hexec, execAssayLockstepMismatch, if_neg (by simp [hready])]
    exact ⟨_, rfl, rfl⟩
  · have hexec : exec (.clusterReload i) s = execClusterReload i s := rfl
    rw [hexec, execClusterReload, if_neg (by simp [hdead])]
    refine ⟨_, rfl, fun x hx hrow => ?_, fun x hx hkeep => List.mem_filter.2 ⟨hx, ?_⟩⟩
    · have := (List.mem_filter.1 hx).2
      simp [hrow] at this
      omega
    · rcases hkeep with h | h
      · simp [h]
      · simp [show ¬ x.2 + 4 ≤ s.clk.tick + 1 by omega]

end Sys2Proof.Machine
end


section
/-! From power to READY (O56). -/

namespace Sys2Proof.Machine

/-! ### Die start (R569, R576) -/

/-- What a die start leaves: the die at its reset value but for what the time unit counts since power-on, and the ledger, the power
stage, the MMC's record and the waiting commands as they were. -/
theorem State.dieStart_resets {s : State} {powered : Bool} (hp : s.boot.running = powered) {st : ModuleState}
    (hst : (if powered && s.safety.state == .failed then .failed else .starting) = st) :
    let t := s.dieStart powered
    t.clk.tick = 0 ∧ t.host = State.reset.host ∧ t.work = State.reset.work ∧ t.dram = State.reset.dram ∧
      t.chain = State.reset.chain ∧ t.pools = State.reset.pools ∧ t.fab = State.reset.fab ∧ t.boot = State.reset.boot ∧
      t.safety.state = st ∧ t.safety.throttle = 0 ∧ t.safety.faults = [] ∧ t.nor.ledger0 = s.nor.ledger0 ∧
      t.nor.ledger1 = s.nor.ledger1 ∧ t.power = s.power ∧ t.pending = s.pending ∧ t.mmc.log = s.mmc.log ∧
      t.mmc.keys = s.mmc.keys ∧ t.mmc.state = s.mmc.state ∧
      (s.boot.running = true → t.clk = { State.reset.clk with lockedTicks := s.clk.lockedTicks, todValid := s.clk.todValid }) ∧
      (s.boot.running = false → t.clk = State.reset.clk) ∧ (s.mmc.state ≠ .absent → t.mmc.starts = s.mmc.starts + 1) := by
  refine ⟨?_, rfl, rfl, rfl, rfl, rfl, rfl, rfl, hst, rfl, rfl, rfl, rfl, rfl, rfl, rfl, rfl, rfl, fun h => ?_, fun h => ?_, fun h => ?_⟩
  · cases powered <;> rfl
  · obtain rfl := hp.symm.trans h
    rfl
  · obtain rfl := hp.symm.trans h
    rfl
  · simp [State.dieStart, Mmc.atDieStart, h]

theorem exec_dieStart_powerOn {s : State} (hpwr : s.power.pwrgd = true) (hrun : s.boot.running = false) :
    exec (.dieStart .powerOn) s = .next (s.dieStart false) := by
  change execDieStart .powerOn s = _
  simp [execDieStart, hpwr, hrun]

theorem exec_dieStart_perst {s : State} (hrun : s.boot.running = true) :
    exec (.dieStart .perstAssert) s = .next (s.dieStart true) := by
  change execDieStart .perstAssert s = _
  simp [execDieStart, hrun]

theorem exec_bootRomWatchdog {s : State} (hrun : s.boot.running = true) (hstart : s.safety.state = .starting) :
    exec .bootRomWatchdog s = .next (s.dieStart true) := by
  change execBootRomWatchdog s = _
  simp [execBootRomWatchdog, hrun, hstart]

/-! ### Bring-up (R572-R588) -/

/-- What every phase of bring-up after the first leaves alone, and FAILED, which it does not leave. -/
structure BringsUp (s t : State) : Prop where
  clk : t.clk = s.clk
  work : t.work = s.work
  dram : t.dram = s.dram
  power : t.power = s.power
  broughtUp : t.boot.broughtUp = s.boot.broughtUp
  moduleNo : t.boot.moduleNo = s.boot.moduleNo
  slot : t.boot.slot = s.boot.slot
  tray : t.boot.tray = s.boot.tray
  failed : s.safety.state = .failed → t.safety.state = .failed

theorem BringsUp.refl (s : State) : BringsUp s s := ⟨rfl, rfl, rfl, rfl, rfl, rfl, rfl, rfl, id⟩

theorem BringsUp.trans {s t u : State} (h : BringsUp s t) (k : BringsUp t u) : BringsUp s u :=
  ⟨k.clk.trans h.clk, k.work.trans h.work, k.dram.trans h.dram, k.power.trans h.power, k.broughtUp.trans h.broughtUp,
    k.moduleNo.trans h.moduleNo, k.slot.trans h.slot, k.tray.trans h.tray, k.failed ∘ h.failed⟩

theorem BringsUp.foldl {α : Type} {g : State → α → State} (hg : ∀ s a, BringsUp s (g s a)) (l : List α) (s : State) :
    BringsUp s (l.foldl g s) := by
  induction l generalizing s with
  | nil => exact .refl s
  | cons a l ih => exact (hg s a).trans (ih _)

theorem State.bootLedger_bringsUp (s : State) (type kind unit source : Nat) (d : List Byte) :
    BringsUp s (s.bootLedger type kind unit source d) := by
  unfold State.bootLedger
  dsimp only
  (repeat' split) <;> exact ⟨rfl, rfl, rfl, rfl, rfl, rfl, rfl, rfl, id⟩

theorem State.logError_eq (s : State) (f : Fn) (bit : Nat) : ∃ h, s.logError f bit = s.withHost h := by
  unfold State.logError
  dsimp only
  split <;> exact ⟨_, rfl⟩

theorem State.bootFail_bringsUp (s : State) (c : FailCause) : BringsUp s (s.bootFail c) ∧ (s.bootFail c).safety.state = .failed := by
  unfold State.bootFail
  obtain ⟨h, heq⟩ := (s.withSafety { s.safety with state := .failed, failCause := some c }).logError_eq pfFn aerInternal
  rw [heq]
  exact ⟨⟨rfl, rfl, rfl, rfl, rfl, rfl, rfl, rfl, fun _ => rfl⟩, rfl⟩

theorem State.foundFaulty_bringsUp (s : State) (u : UnitRef) : BringsUp s (s.foundFaulty u) := by
  unfold State.foundFaulty
  dsimp only
  split
  · exact .refl s
  · refine BringsUp.trans ?_ (State.bootLedger_bringsUp _ _ _ _ _ _)
    exact ⟨rfl, rfl, rfl, rfl, rfl, rfl, rfl, rfl, id⟩

theorem State.finding_bringsUp (s : State) (f : SelfTestFinding) : BringsUp s (s.finding f) := by
  unfold State.finding
  dsimp only
  (repeat' split) <;> first
    | exact .refl s
    | exact s.foundFaulty_bringsUp _
    | exact s.bootLedger_bringsUp _ _ _ _ _
    | exact (s.bootFail_bringsUp _).1

/-- R574, Table 17.3: the failure of a vital part fails the module, whatever else self-test finds. -/
theorem State.findings_vital {fs : List SelfTestFinding} {k : UnitKind} (hk : .partFails k ∈ fs) (hv : vital k = true) (s : State) :
    (fs.foldl State.finding s).safety.state = .failed := by
  obtain ⟨before, rest, rfl⟩ := List.append_of_mem hk
  rw [List.foldl_append, List.foldl_cons]
  refine (BringsUp.foldl State.finding_bringsUp rest _).failed ?_
  simp only [State.finding, hv, if_true]
  exact (State.bootFail_bringsUp _ _).2

theorem repairs_bringsUp (i : BringUpIn) (l : List LedgerEntry) (a : Nat × State) : BringsUp a.2 (l.foldl (repairOne i) a).2 := by
  have hone (a : Nat × State) (e : LedgerEntry) : BringsUp a.2 (repairOne i a e).2 := by
    unfold repairOne
    split
    · exact .refl _
    · split <;> exact State.bootLedger_bringsUp _ _ _ _ _ _
  induction l generalizing a with
  | nil => exact .refl _
  | cons e l ih => exact (hone a e).trans (ih _)

theorem State.bootTraining_bringsUp (s : State) (i : BringUpIn) : BringsUp s (s.bootTraining i) := by
  unfold State.bootTraining
  dsimp only
  split
  · exact ⟨rfl, rfl, rfl, rfl, rfl, rfl, rfl, rfl, id⟩
  · have hrepairs (t : State) (h : BringsUp s t) (l : List LedgerEntry) (x : Nor) :
        BringsUp s { (l.foldl (repairOne i) (0, t)).2 with nor := x } :=
      (h.trans (repairs_bringsUp i l (0, t))).trans ⟨rfl, rfl, rfl, rfl, rfl, rfl, rfl, rfl, id⟩
    refine hrepairs _ ?_ _ _
    exact ⟨rfl, rfl, rfl, rfl, rfl, rfl, rfl, rfl, id⟩

theorem State.bootFirmware_bringsUp (s : State) (i : BringUpIn) : BringsUp s (s.bootFirmware i) := by
  unfold State.bootFirmware
  dsimp only
  split <;> exact ⟨rfl, rfl, rfl, rfl, rfl, rfl, rfl, rfl, id⟩

theorem exec_bringUp_idle {i : BringUpIn} {s : State} (h : s.boot.broughtUp = true) : exec (.bringUp i) s = .next s := by
  change execBringUp i s = _
  unfold execBringUp
  rw [if_pos (by simp [h])]

/-- A bring-up is the first phase and then phases that keep what it set. -/
theorem exec_bringUp_bringsUp {i : BringUpIn} {s : State} (hrun : s.boot.running = true) (hup : s.boot.broughtUp = false)
    (hpwr : s.power.pwrgd = true) : ∃ t, exec (.bringUp i) s = .next t ∧ BringsUp (s.bootRom i) t ∧
      (∀ k, .partFails k ∈ i.findings → vital k = true → t.safety.state = .failed) := by
  have hexec : exec (.bringUp i) s = execBringUp i s := rfl
  rw [hexec]
  unfold execBringUp
  rw [if_neg (by simp [hrun, hup, hpwr])]
  dsimp only
  refine ⟨_, rfl, ?_⟩
  split
  next hfailed => exact ⟨.refl _, fun _ _ _ => by simpa using hfailed⟩
  next =>
    split
    next =>
      have hfail := State.bootFail_bringsUp ((s.bootRom i).bootFirmware i) .noImage
      exact ⟨(State.bootFirmware_bringsUp _ i).trans hfail.1, fun _ _ _ => hfail.2⟩
    next =>
      exact ⟨(State.bootFirmware_bringsUp _ i).trans ((State.bootTraining_bringsUp _ i).trans (.foldl State.finding_bringsUp _ _)),
        fun k hk hv => State.findings_vital hk hv _⟩

theorem exec_bringUp_spec (i : BringUpIn) {s : State} (hrun : s.boot.running = true) (hup : s.boot.broughtUp = false)
    (hpwr : s.power.pwrgd = true) : ∃ t, exec (.bringUp i) s = .next t ∧
      t.boot.broughtUp = true ∧ t.boot.moduleNo = 4 * i.tray.val + i.slot.val ∧ t.boot.slot = i.slot.val ∧ t.boot.tray = i.tray.val ∧
      t.clk = s.clk ∧ t.work = s.work ∧ t.dram = s.dram ∧ t.power = s.power ∧
      (s.ledgerOk → t.ledgerOk ∧ ((∀ k ∈ i.torn0, k ∉ i.torn1) → LedgerKept s t)) ∧
      (s.safety.state = .failed → t.safety.state = .failed) ∧
      (∀ k, .partFails k ∈ i.findings → vital k = true → t.safety.state = .failed) := by
  obtain ⟨t, ht, hup', hvital⟩ := exec_bringUp_bringsUp hrun hup hpwr
  obtain ⟨t', ht', -, -, hok, hkept⟩ := exec_bringUp_keeps i s
  obtain rfl := Host.Outcome.next.inj (ht.symm.trans ht')
  obtain ⟨views, lead, hrom⟩ := s.bootRom_eq i
  rw [hrom] at hup'
  exact ⟨t, ht, hup'.broughtUp, hup'.moduleNo, hup'.slot, hup'.tray, hup'.clk, hup'.work, hup'.dram, hup'.power,
    fun h => ⟨hok h, hkept h⟩, hup'.failed, hvital⟩

/-! ### READY (R589, R590) -/

/-- A row that keeps the coming commit's clock leaves the clock as it was. -/
theorem State.clk_backTo {s t : State} (h : t.clk = s.coming.clk) : (t.backTo s.clk).clk = s.clk := by
  unfold State.backTo
  rw [h]
  rfl

theorem OnlyRaises.nor_boot {s t : State} (h : OnlyRaises s t) : t.nor = s.nor ∧ t.boot = s.boot := by
  rw [h.rest]
  exact ⟨rfl, rfl⟩

/-- The events that bring-up owes are all raised. -/
theorem State.raiseReady_spec (s : State) : OnlyRaises { s with boot := { s.boot with readyEvents := [] } } s.raiseReady ∧
    ∀ e ∈ s.boot.readyEvents, Raised s s.raiseReady pfFn e.2.1 s.clk.tick := by
  have hraise (u : State) (e : Nat × Nat × List Byte) := u.raise_onlyRaises pfFn e.2.1 e.2.2
  refine ⟨OnlyRaises.foldl hraise _ _, fun e he => ?_⟩
  have h : Raised { s with boot := { s.boot with readyEvents := [] } } s.raiseReady pfFn e.2.1 s.clk.tick :=
    Raised.foldl hraise he fun u hu => by
      have := u.raise_raised pfFn e.2.1 e.2.2
      rwa [hu.clk_eq] at this
  exact h

theorem exec_ready {s : State} (hrun : s.boot.running = true) (hup : s.boot.broughtUp = true) (hstart : s.safety.state = .starting) :
    ∃ t, exec .ready s = .next t ∧
      t.safety.state = .ready ∧ (∀ u ∈ retiredBy s.nor.ledger0, u ∈ t.safety.retired) ∧ t.clk = s.clk ∧ t.work = s.work ∧
      t.dram = s.dram ∧ t.nor.ledger0 = s.nor.ledger0 ∧ t.boot.readyEvents = [] ∧
      ∀ e ∈ s.boot.readyEvents, Raised s t pfFn e.2.1 (s.clk.tick + 1) := by
  have hexec : exec .ready s = execReady s := rfl
  rw [hexec]
  unfold execReady
  rw [if_neg (by simp [hrun, hup, hstart])]
  obtain ⟨hraises, hraised⟩ := State.raiseReady_spec { s.coming with
    safety := { s.safety with state := .ready, retired := s.barred, spares := sparesBy s.nor.ledger0 }
    nor := { s.nor with die := s.nor.die.readyAt (s.clk.tick + 1) }
    mmc := s.mmc.passKeys }
  obtain ⟨hclk, hwork, -, hdram, hsafety⟩ := hraises.leaves
  refine ⟨_, rfl, ?_, fun u hu => ?_, ?_, hwork, hdram, ?_, ?_, hraised⟩
  · exact congrArg Safety.state hsafety
  · have hretired : u ∈ s.barred := List.mem_eraseDups.2 (List.mem_append_left _ hu)
    exact (congrArg Safety.retired hsafety).symm ▸ hretired
  · exact State.clk_backTo hclk
  · exact (congrArg Nor.ledger0 hraises.nor_boot.1).trans rfl
  · exact (congrArg Boot.readyEvents hraises.nor_boot.2).trans rfl

/-- Settles O56: a die start is the reset state with the parts it keeps; bring-up is the boot ROM's phase, which reads the ledger back, and
phases that keep what it set. -/
theorem startsAndReady : Obligations.StartsAndReady := by
  unfold Obligations.StartsAndReady
  intro s started
  refine ⟨fun hpwr hrun => ?_, fun hpwr => ?_, fun hrun hst => ?_, fun hrun hst => ?_, fun hrun hst => ?_, fun hst => ?_,
    fun i hrun hup hpwr => exec_bringUp_spec i hrun hup hpwr, fun i hup => exec_bringUp_idle hup,
    fun hrun hup hst => exec_ready hrun hup hst, fun hst => ?_⟩
  · exact ⟨_, exec_dieStart_powerOn hpwr hrun, State.dieStart_resets hrun rfl⟩
  · change execDieStart .powerOn s = _
    simp [execDieStart, hpwr]
  · exact ⟨_, exec_dieStart_perst hrun, State.dieStart_resets hrun (by simp [hst])⟩
  · exact ⟨_, exec_dieStart_perst hrun, State.dieStart_resets hrun (by simp [hst])⟩
  · exact ⟨_, exec_bootRomWatchdog hrun hst, State.dieStart_resets hrun (by simp [hst])⟩
  · change execBootRomWatchdog s = _
    simp [execBootRomWatchdog, hst]
  · change execReady s = _
    simp [execReady, hst]

end Sys2Proof.Machine
end


section
/-! Requests to the MMC (O58). -/

namespace Sys2Proof.Machine

/-! ### Reaching the MMC (R612, R613, R627) -/

theorem State.access_smbus_silent {s : State} {t : SmbusIn}
    (h : t.address.toNat ≠ 0x60 + s.boot.slot ∨ t.pec = false ∨ s.mmc.state = .absent) : s.access (.smbus t) = .silent := by
  unfold State.access State.smbusTarget
  dsimp only
  rw [if_pos]
  rcases h with h | h | h <;> simp [h]

theorem State.access_smbus_serve {s : State} {t : SmbusIn} (ha : t.address.toNat = 0x60 + s.boot.slot) (hp : t.pec = true)
    (hk : t.kHz ∈ [100, 400, 1000]) (hs : s.mmc.state = .serving) : s.access (.smbus t) = .serve := by
  have htarget : s.smbusTarget t = true := by
    simp only [State.smbusTarget, ha, hp, List.contains_iff_mem.2 hk, beq_self_eq_true, Bool.and_true]
  simp [State.access, htarget, hs]

/-! ### What becomes of a request -/

section
variable {s : State} {p : MgmtPath} {ty cmd code : Nat} {nr : Option Nat} {f : State → Reply} {o : Out}

/-- A request served is answered as its command says. -/
theorem served (h : s.access p = .serve) (ho : o = .next (s.serve p ty cmd nr f)) :
    o = .next ((f s).1.respond p ty cmd (f s).2.1 (f s).2.2) := by
  unfold State.serve at ho
  rwa [h] at ho

theorem served_silent (h : s.access p = .silent) (ho : o = .next (s.serve p ty cmd nr f)) : o = .next s := by
  unfold State.serve at ho
  rwa [h] at ho

/-- MCTP control is unanswered while the MMC does not serve. -/
theorem served_unanswered (h : s.access p = .notReady) (ho : o = .next (s.serve p ty cmd none f)) : o = .next s := by
  unfold State.serve at ho
  rwa [h] at ho

theorem served_notReady (h : s.access p = .notReady) (ho : o = .next (s.serve p ty cmd (some code) f)) :
    o = .next (s.respond p ty cmd code []) := by
  unfold State.serve at ho
  rwa [h] at ho

/-- A served command whose reply changes nothing is one response. -/
theorem served_reports {data : List Byte} (h : s.access p = .serve) (hf : f s = (s, code, data))
    (ho : o = .next (s.serve p ty cmd nr f)) : o = .next (s.respond p ty cmd code data) := by
  rw [served h ho, hf]

/-- A served command that sets something of the MMC's is one response beside it. -/
theorem served_sets {m : Mmc} {data : List Byte} (h : s.access p = .serve) (hf : f s = (withMmc s m, 0, data))
    (ho : o = .next (s.serve p ty cmd nr f)) : o = .next { s with mmc := { m with
      response := some { smbus := masters p, msgType := ty, command := cmd, code := 0, data := data } } } := by
  rw [served h ho, hf]
  rfl

end

/-! ### The commands that take a byte -/

theorem le_length (n v : Nat) : (le n v).length = n := by
  induction n generalizing v with
  | zero => rfl
  | succ n ih => simp [le, ih]

/-- The PLDM types of Table 18.4. -/
theorem pldmCommands_isSome (v : Byte) : (pldmCommands v.toNat).isSome = true ↔ v ∈ ([0, 2, 4, 5] : List Byte) := by
  revert v
  decide

theorem pldmTypes_bytes : le 8 (bitmap 64 (fun t => (pldmCommands t).isSome)) = [0x35, 0, 0, 0, 0, 0, 0, 0] := by decide

theorem isMctpType_iff (v : Byte) : [0x00, 0x01, 0x7E, 0xFF].contains v.toNat = true ↔ v ∈ ([0x00, 0x01, 0x7E, 0xFF] : List Byte) := by
  revert v
  decide

section
variable {s : State} {p : MgmtPath} (h : s.access p = .serve)
include h

/-- MCTP control and PLDM base commands with a byte, by its value. -/
theorem exec_byteCommands (v : Byte) :
    (v = 0 ∨ v = 0xFF → exec (.setEndpointId ⟨p, v⟩) s = .next (s.respond p 0 0x01 2 []) ∧
      exec (.setTid ⟨p, v⟩) s = .next (s.respond p 1 0x001 2 [])) ∧
    (v ≠ 0 → v ≠ 0xFF →
      exec (.setEndpointId ⟨p, v⟩) s = .next { s with mmc := { s.mmc with
        eid := v
        response := some { smbus := masters p, msgType := 0, command := 0x01, code := 0, data := Config.mgmtData 0x01 v.toNat } } } ∧
      exec (.setTid ⟨p, v⟩) s = .next { s with mmc := { s.mmc with
        tid := v
        response := some { smbus := masters p, msgType := 1, command := 0x001, code := 0, data := [] } } }) ∧
    (v ∈ ([0x00, 0x01, 0x7E, 0xFF] : List Byte) →
      exec (.getMctpVersionSupport ⟨p, v⟩) s = .next (s.respond p 0 0x04 0 (Config.mgmtData 0x04 v.toNat))) ∧
    (v ∉ ([0x00, 0x01, 0x7E, 0xFF] : List Byte) → exec (.getMctpVersionSupport ⟨p, v⟩) s = .next (s.respond p 0 0x04 0x80 [])) ∧
    (v ≠ 0 → exec (.getVendorDefinedMessageSupport ⟨p, v⟩) s = .next (s.respond p 0 0x06 2 [])) ∧
    (v = 0 → ∃ d, exec (.getVendorDefinedMessageSupport ⟨p, v⟩) s = .next (s.respond p 0 0x06 0 d)) := by
  refine ⟨fun hv => ?_, fun h0 hff => ?_, fun hv => ?_, fun hv => ?_, fun hv => ?_, fun hv => ?_⟩
  · exact ⟨served_reports h (if_pos (by simpa using hv)) rfl, served_reports h (if_pos (by simpa using hv)) rfl⟩
  · exact ⟨served_sets (m := { s.mmc with eid := v }) h (if_neg (by simpa using And.intro h0 hff)) rfl,
      served_sets (m := { s.mmc with tid := v }) h (if_neg (by simpa using And.intro h0 hff)) rfl⟩
  · exact served_reports h (if_pos ((isMctpType_iff v).2 hv)) rfl
  · exact served_reports h (if_neg (mt (isMctpType_iff v).1 hv)) rfl
  · exact served_reports h (if_neg (by simpa using hv)) rfl
  · exact ⟨_, served_reports h (if_pos (by simpa using hv)) rfl⟩

/-- PLDM's versions and commands, of the types that the MMC offers and of others. -/
theorem exec_pldmTypes (v : Byte) :
    (v ∈ ([0, 2, 4, 5] : List Byte) →
      exec (.getPldmVersion ⟨p, v⟩) s = .next (s.respond p 1 0x003 0 (Config.mgmtData 0x003 v.toNat)) ∧
      ∃ d, exec (.getPldmCommands ⟨p, v⟩) s = .next (s.respond p 1 0x005 0 d) ∧ d.length = 32) ∧
    (v ∉ ([0, 2, 4, 5] : List Byte) → exec (.getPldmVersion ⟨p, v⟩) s = .next (s.respond p 1 0x003 0x83 []) ∧
      exec (.getPldmCommands ⟨p, v⟩) s = .next (s.respond p 1 0x005 0x83 [])) := by
  rw [← pldmCommands_isSome]
  refine ⟨fun hv => ?_, fun hv => ?_⟩
  · obtain ⟨cs, hcs⟩ := Option.isSome_iff_exists.1 hv
    refine ⟨served_reports h (if_pos hv) rfl, _, served_reports h ?_ rfl, le_length 32 (bitmap 256 cs.contains)⟩
    dsimp only
    rw [hcs]
  · refine ⟨served_reports h (if_neg hv) rfl, served_reports h ?_ rfl⟩
    dsimp only
    rw [Option.not_isSome_iff_eq_none.1 hv]

/-- The vendor commands (R616, Table 18.6). -/
theorem exec_vendorCommands (v : Byte) :
    (2 ≤ v.toNat → exec (.autoRetry ⟨p, v⟩) s = .next (s.respond p 0x7E 0x05 2 [])) ∧
    (v.toNat < 2 → s.nor.writesStopped = false → exec (.autoRetry ⟨p, v⟩) s = .next { s with mmc := { s.mmc with
      autoRetry := v == 1
      response := some { smbus := masters p, msgType := 0x7E, command := 0x05, code := 0, data := [] } } }) ∧
    (∀ e, s.mmc.log[v.toNat]? = some e → exec (.hotswapLogRead ⟨p, v⟩) s = .next (s.respond p 0x7E 0x04 0 e.bytes)) ∧
    (s.mmc.log[v.toNat]? = none → exec (.hotswapLogRead ⟨p, v⟩) s = .next (s.respond p 0x7E 0x04 2 [])) ∧
    (16 ≤ v.toNat → exec (.modelKeyClear ⟨p, v⟩) s = .next (s.respond p 0x7E 0x03 2 []) ∧
      ∀ k, exec (.modelKeySet ⟨p, v, k⟩) s = .next (s.respond p 0x7E 0x02 2 [])) ∧
    (v.toNat < 16 → s.nor.writesStopped = false → ∃ t, exec (.modelKeyClear ⟨p, v⟩) s = .next t ∧ t = { s with mmc := t.mmc } ∧
      t.mmc.keys = s.mmc.keys.filter (fun k => k.1 != v.toNat)) ∧
    (∀ k, v.toNat < 16 → k.length = 97 → k.head? = some 4 → s.nor.writesStopped = false →
      ∃ t, exec (.modelKeySet ⟨p, v, k⟩) s = .next t ∧ t = { s with mmc := t.mmc } ∧
        t.mmc.keys = s.mmc.keys.filter (fun x => x.1 != v.toNat) ++ [(v.toNat, k)] ∧
        (s.isReady = true → t.mmc.keysDue = s.mmc.keysDue ++ [(v.toNat, some k)])) := by
  refine ⟨fun hv => served_reports h (if_pos hv) rfl, fun hv hw => ?_, fun e he => ?_, fun he => ?_,
    fun hv => ⟨served_reports h (if_pos hv) rfl, fun k => served_reports h (if_pos (by simp [hv])) rfl⟩,
    fun hv hw => ⟨_, served h rfl, ?_⟩, fun k hv hlen hhead hw => ⟨_, served h rfl, ?_⟩⟩
  · refine served_sets (m := { s.mmc with autoRetry := v == 1 }) h ?_ rfl
    rw [if_neg (Nat.not_le.2 hv), if_neg (by simp [hw])]
  · exact served_reports h (by dsimp only; rw [he]) rfl
  · exact served_reports h (by dsimp only; rw [he]) rfl
  · dsimp only
    rw [if_neg (Nat.not_le.2 hv), if_neg (by simp [hw])]
    exact ⟨rfl, List.append_nil _⟩
  · dsimp only
    rw [if_neg (by simp [hlen, hhead, hv]), if_neg (by simp [hw])]
    exact ⟨rfl, rfl, fun hr => if_pos hr⟩

/-- Sensors, PDRs and the state of the module (R614, R615). -/
theorem exec_wordCommands (v : U16) :
    exec (.getPdr ⟨p, v⟩) s = .next (s.respond p 1 0x251 0 (Config.mgmtData 0x251 v.toNat)) ∧
    (∀ r, s.sensor v.toNat = some r → exec (.getSensorReading ⟨p, v⟩) s = .next (s.respond p 1 0x211 0 (readingBytes r))) ∧
    (s.sensor v.toNat = none → exec (.getSensorReading ⟨p, v⟩) s = .next (s.respond p 1 0x211 0x80 [])) ∧
    (v = 44 → exec (.getStateSensorReadings ⟨p, v⟩) s = .next (s.respond p 1 0x221 0 [BitVec.ofNat 8 s.power.sensor])) ∧
    (v = 43 → s.safety.failCause = none → exec (.getStateSensorReadings ⟨p, v⟩) s =
      .next (s.respond p 1 0x221 0 [BitVec.ofNat 8 (moduleStateCode s.safety.state)])) ∧
    (v ≠ 43 → v ≠ 44 → exec (.getStateSensorReadings ⟨p, v⟩) s = .next (s.respond p 1 0x221 0x80 [])) := by
  refine ⟨served_reports h rfl rfl, fun r hr => ?_, fun hr => ?_, fun hv => ?_, fun hv hc => ?_, fun h43 h44 => ?_⟩
  · exact served_reports h (by dsimp only; rw [hr]) rfl
  · exact served_reports h (by dsimp only; rw [hr]) rfl
  · subst hv
    exact served_reports h rfl rfl
  · subst hv
    refine served_reports h ?_ rfl
    dsimp only
    rw [if_pos (by decide), hc]
    rfl
  · have hne43 : v.toNat ≠ 43 := fun hc => h43 (BitVec.eq_of_toNat_eq hc)
    have hne44 : v.toNat ≠ 44 := fun hc => h44 (BitVec.eq_of_toNat_eq hc)
    exact served_reports h (by rw [if_neg hne43, if_neg hne44]) rfl

/-- TOD_ARM over the two paths (R616, R617). -/
theorem exec_todArm (n : U64) :
    (∀ f, p = .vdm f → exec (.todArm ⟨p, n⟩) s = .next (s.respond p 0x7E 0x01 3 [])) ∧
    (∀ t, p = .smbus t → n.toNat % 1000000000 ≠ 0 → exec (.todArm ⟨p, n⟩) s = .next (s.respond p 0x7E 0x01 2 [])) ∧
    (∀ t, p = .smbus t → n.toNat % 1000000000 = 0 → s.dead = false → s.clk.fromMmc = none →
      exec (.todArm ⟨p, n⟩) s = .next { s with clk := { s.clk with fromMmc := some n.toNat } }) := by
  have hexec (i : TodArmIn) : exec (.todArm i) s = execTodArm i s := rfl
  refine ⟨fun f hp => ?_, fun t hp hn => ?_, fun t hp hn hd hf => ?_⟩ <;> subst hp <;> rw [hexec] <;> simp only [execTodArm, h]
  · rw [if_pos hn]
  · simp [hn, hd, hf]

end

/-- Settles O58: what a path reaches decides whether a request is answered, and each command's reply is its response. -/
theorem managementRequestsAreServed : Obligations.ManagementRequestsAreServed := by
  unfold Obligations.ManagementRequestsAreServed
  intro p s reports sets simple
  refine ⟨fun t hp hbad => ?_, fun t hp ha hpec hk hs => ?_, fun h x hx => ?_, fun h x hx => ?_, fun h v => ?_, fun h => ?_⟩
  · subst hp
    exact State.access_smbus_silent hbad
  · subst hp
    exact State.access_smbus_serve ha hpec hk hs
  · simp only [simple, List.mem_cons, List.not_mem_nil, or_false] at hx
    rcases hx with rfl | rfl | rfl | rfl | rfl | rfl | rfl | rfl | rfl | rfl | rfl | rfl <;> exact served_silent h rfl
  · simp only [simple, List.mem_cons, List.not_mem_nil, or_false] at hx
    rcases hx with rfl | rfl | rfl | hx
    · exact ⟨fun _ => served_unanswered h rfl, fun hty => absurd hty Nat.zero_ne_one⟩
    · exact ⟨fun _ => served_unanswered h rfl, fun hty => absurd hty Nat.zero_ne_one⟩
    · exact ⟨fun _ => served_unanswered h rfl, fun hty => absurd hty Nat.zero_ne_one⟩
    · rcases hx with rfl | rfl | rfl | rfl | rfl | rfl | rfl | rfl | rfl <;>
        exact ⟨fun hty => absurd hty Nat.one_ne_zero, fun _ => served_notReady h rfl⟩
  · refine ⟨served_notReady h rfl, served_notReady h rfl, served_notReady h rfl, fun _ _ => served_notReady h rfl, fun n => ?_⟩
    change execTodArm ⟨p, n⟩ s = _
    simp only [execTodArm, h]
  · refine ⟨served_reports h rfl rfl, served_reports h rfl rfl, served_reports h rfl rfl, served_reports h rfl rfl,
      served_reports h (congrArg (fun d => (s, 0, d)) pldmTypes_bytes) rfl, served_reports h rfl rfl, served_reports h rfl rfl, served_reports h rfl rfl,
      served_reports h rfl rfl, served_reports h rfl rfl, served_reports h rfl rfl, fun he => ?_, fun e es he => ?_, fun v => ?_,
      exec_wordCommands h, exec_todArm h⟩
    · exact served_reports h (by dsimp only; rw [he]) rfl
    · exact served_sets h (by dsimp only; rw [he]) rfl
    · obtain ⟨hrefused, hset, hmctp, hnot, hvdm, hvdm0⟩ := exec_byteCommands h v
      obtain ⟨htype, hno⟩ := exec_pldmTypes h v
      exact ⟨hrefused, hset, served_sets h (by simp only [beq_iff_eq]) rfl, hmctp, hnot, hvdm, hvdm0, htype, hno, exec_vendorCommands h v⟩

end Sys2Proof.Machine
end


section
/-! Firmware update (O31, O32, O60). -/

namespace Sys2Proof.Machine

/-! ### Components and slots -/

/-- A change of a component stays in its flash. -/
theorem State.modFw_eq (s : State) (c : Nat) (g : FwComponent → FwComponent) : s.modFw c g = { s with nor := (s.modFw c g).nor } := by
  unfold State.modFw
  split <;> rfl

@[simp] theorem State.fw_modFw (s : State) (c : Nat) (g : FwComponent → FwComponent) : (s.modFw c g).fw c = g (s.fw c) := by
  unfold State.modFw State.fw
  by_cases h : c = 3 <;> simp [h]

@[simp] theorem State.fw_coming (s : State) (c : Nat) : s.coming.fw c = s.fw c := rfl

@[simp] theorem State.modFw_ledger0 (s : State) (c : Nat) (g : FwComponent → FwComponent) :
    (s.modFw c g).nor.ledger0 = s.nor.ledger0 := by
  unfold State.modFw
  split <;> rfl

section
variable (x : FwComponent) (n : Nat) (g : FwSlot → FwSlot)

@[simp] theorem FwComponent.slot_setSlot : (x.setSlot n g).slot n = g (x.slot n) := by
  unfold FwComponent.setSlot FwComponent.slot
  split <;> rfl

@[simp] theorem FwComponent.running_setSlot : (x.setSlot n g).running = x.running := by
  unfold FwComponent.setSlot
  split <;> rfl

@[simp] theorem FwComponent.ptr0_setSlot : (x.setSlot n g).ptr0 = x.ptr0 := by
  unfold FwComponent.setSlot
  split <;> rfl

@[simp] theorem FwComponent.ptr1_setSlot : (x.setSlot n g).ptr1 = x.ptr1 := by
  unfold FwComponent.setSlot
  split <;> rfl

@[simp] theorem FwComponent.idle_setSlot : (x.setSlot n g).idle = x.idle := by
  unfold FwComponent.idle
  rw [FwComponent.running_setSlot]

theorem FwComponent.idleSlot_setSlot : (x.setSlot x.idle g).idleSlot = g x.idleSlot := by
  rw [FwComponent.idleSlot, FwComponent.idle_setSlot, FwComponent.slot_setSlot]
  rfl

variable {n} in
theorem FwComponent.slot_setSlot_ne {m : Nat} (h : m = 2 ↔ n ≠ 2) : (x.setSlot n g).slot m = x.slot m := by
  unfold FwComponent.setSlot FwComponent.slot
  by_cases hn : n = 2 <;> simp [hn, h]

end

/-- The idle slot is the other one. -/
theorem FwComponent.running_ne_idle {x : FwComponent} (h : x.running = 1 ∨ x.running = 2) : x.running = 2 ↔ x.idle ≠ 2 := by
  unfold FwComponent.idle
  omega

theorem FwComponent.idle_ne_running {x : FwComponent} (h : x.running = 1 ∨ x.running = 2) : x.idle = 2 ↔ x.running ≠ 2 := by
  unfold FwComponent.idle
  omega

/-! ### The ring commands (R631, R634-R645) -/

/-- R631: a component that is neither. -/
theorem State.wireFault_component {s : State} {h : CmdHead} {c : RingCmd} (hpf : h.fn = pfFn)
    (hrange : rangeFault h.fn (s.quotaOf h.fn) c = some 8) (hres : rowReserved h c = none) :
    s.wireFault h c (rowReserved h c) = some (failAt .invalidField 8) := by
  have hisPf : isPf h.fn = true := (isPf_iff _).2 hpf
  simp [State.wireFault, hres, cmdFault, hisPf, hrange, lowerFault]

theorem firstFault_component {c : Byte} (h2 : c ≠ 2) (h3 : c ≠ 3) : firstFault [(0x08, c == 2 || c == 3)] = some 8 := by
  have hc : (c == 2 || c == 3) = false := by simpa using And.intro h2 h3
  rw [hc]
  rfl

theorem rowReserved_none {h : CmdHead} {c : RingCmd} (hflags : h.flags.toNat < 4) (hclasp : h.doneClasp.toNat < 0x2000)
    (hm : ∀ p, c ≠ .streamModify p) (ho : ∀ p, c ≠ .streamOpen p) : rowReserved h c = none := by
  unfold rowReserved firstFault
  cases c <;> simp_all

section
variable {h : CmdHead} {s : State}

theorem ringRow_componentFault {c : RingCmd} {b : Byte} {op : Byte} (eff : CmdEffect) (ht : s.takesCommands h.fn = true)
    (hpf : h.fn = pfFn) (hflags : h.flags.toNat < 4) (hclasp : h.doneClasp.toNat < 0x2000) (h2 : b ≠ 2) (h3 : b ≠ 3)
    (hrange : ∀ q, rangeFault h.fn q c = firstFault [(0x08, b == 2 || b == 3)]) (hop : opcodeOf c = op)
    (hm : ∀ p, c ≠ .streamModify p) (ho : ∀ p, c ≠ .streamOpen p) :
    ∃ u, s.ringRow h c eff = .next u ∧ Completes s u h op .invalidField 8 [] :=
  hop ▸ ringRow_wireFault ht (State.wireFault_component hpf ((hrange _).trans (firstFault_component h2 h3))
    (rowReserved_none hflags hclasp hm ho))

/-- The work that a command of its own step begins. -/
theorem State.beginWork_backTo (op : Byte) (k : WorkKind) : (s.coming.beginWork h op none k).backTo s.clk =
    { s with host := { s.host with works := s.host.works ++ [begun s h op k] } } := rfl

/-- A command that is refused, or begins work that changes nothing yet. -/
theorem ringRow_refuses_or_begins {c : RingCmd} {eff : CmdEffect} {op : Byte} {k : WorkKind} {bad : Bool} (ha : Admissible s h c)
    (hop : opcodeOf c = op)
    (he : eff s.coming = if bad then refuse s.coming .invalidState else (s.coming.beginWork h op none k, none)) :
    (bad = true → ∃ u, s.ringRow h c eff = .next u ∧ Completes s u h op .invalidState 0xFFFF []) ∧
    (bad = false → s.ringRow h c eff =
      .next { s with host := { s.host with works := s.host.works ++ [begun s h op k] } }) := by
  subst hop
  refine ⟨fun hb => ringRow_refuses ha (by rw [he, if_pos hb]), fun hb => ?_⟩
  rw [ringRow_works ha (v := s.coming.beginWork h (opcodeOf c) none k) (by rw [he, if_neg (by simp [hb])]), State.beginWork_backTo]

/-- What a chunk at offset 0 makes of the component (R634, R635). -/
theorem exec_fwDownloadChunk_starts {p : FwChunkP} (ha : Admissible s h (.fwDownloadChunk p))
    (hsize : p.offset.toNat + p.bytes.toNat ≤ slotSize p.component.toNat)
    (hbarred : (s.fw p.component.toNat).downloadBarred .ring = false) (hoff : p.offset = 0) (hchunk : chunkSizeOk p.bytes.toNat = true) :
    ∃ u y, exec (.fwDownloadChunk h p) s = .next u ∧
      y = (s.fw p.component.toNat).idleSlot.put 0 (fit p.bytes.toNat p.data) ∧
      u.fw p.component.toNat = { (s.fw p.component.toNat).setSlot (s.fw p.component.toNat).idle (fun _ => y) with holder := some .ring } ∧
      u = { s with
        host := { s.host with works := s.host.works ++ [begun s h 0x90 (.fwChunk p.component.toNat)] }
        nor := u.nor } := by
  have hoff0 : p.offset.toNat = 0 := by rw [hoff]; rfl
  refine ⟨((s.coming.modFw p.component.toNat (fun x => { x.setSlot x.idle (fun _ => (s.fw p.component.toNat).idleSlot.put 0
    (fit p.bytes.toNat p.data)) with holder := some .ring })).beginWork h 0x90 none (.fwChunk p.component.toNat)).backTo s.clk, _,
    ringRow_works ha ?_, rfl, State.fw_modFw s.coming _ _, ?_⟩
  · have hfw : s.coming.fw p.component.toNat = s.fw p.component.toNat := rfl
    simp only [applyFwDownloadChunk, hfw, hoff0]
    rw [if_neg (by omega), if_neg (by simp [hbarred, hchunk, FwSlot.expects])]
  · rw [State.modFw_eq]
    rfl

end

/-- Settles O31: each command's effect is a guard over its slot's state, a refusal, or the work that it begins. -/
theorem firmwareCommandsFollowTheSlotStates : Obligations.FirmwareCommandsFollowTheSlotStates := by
  unfold Obligations.FirmwareCommandsFollowTheSlotStates
  refine ⟨fun h s ht hpf hflags hclasp => ⟨fun p h2 h3 => ?_, fun p h2 h3 => ⟨?_, ?_, ?_⟩⟩,
    fun h s => ⟨fun p ha => ⟨fun hbig => ?_, fun hsize hbarred => ?_, fun hsize hbarred hoff hchunk => ?_⟩, fun p ha => ?_, fun p ha => ?_,
      fun p ha => ?_⟩⟩
  · exact ringRow_componentFault _ ht hpf hflags hclasp h2 h3 (fun _ => rfl) rfl (by simp) (by simp)
  · exact ringRow_componentFault _ ht hpf hflags hclasp h2 h3 (fun _ => rfl) rfl (by simp) (by simp)
  · exact ringRow_componentFault _ ht hpf hflags hclasp h2 h3 (fun _ => rfl) rfl (by simp) (by simp)
  · exact ringRow_componentFault _ ht hpf hflags hclasp h2 h3 (fun _ => rfl) rfl (by simp) (by simp)
  · exact ringRow_unchanged (eff := applyFwDownloadChunk h none p) ha (if_pos hbig)
  · refine ringRow_refuses ha ?_
    have hfw : s.coming.fw p.component.toNat = s.fw p.component.toNat := rfl
    simp only [applyFwDownloadChunk, hfw]
    rw [if_neg (by omega), if_pos (by simp [hbarred])]
  · obtain ⟨u, y, hexec, rfl, hfw, hu⟩ := exec_fwDownloadChunk_starts ha hsize hbarred hoff hchunk
    have hidle : (u.fw p.component.toNat).idleSlot =
        (s.fw p.component.toNat).idleSlot.put 0 (fit p.bytes.toNat p.data) := by
      rw [hfw]
      exact FwComponent.idleSlot_setSlot _ _
    refine ⟨u, hexec, ?_, ?_, ?_, ?_, ?_, fun hrun => ?_, hu⟩
    · rw [hidle]
      rfl
    · rw [hidle]
      rfl
    · rw [hidle]
      rfl
    · rw [hfw]
    · rw [hfw]
      exact FwComponent.running_setSlot _ _ _
    · rw [hfw]
      exact FwComponent.slot_setSlot_ne _ _ (FwComponent.running_ne_idle hrun)
  · obtain ⟨hrefused, hbegins⟩ := ringRow_refuses_or_begins (c := .fwVerify p) (eff := applyFwVerify h none p) ha rfl rfl
    refine ⟨fun hbad => hrefused ?_, fun hsound => hbegins ?_⟩
    · simp only [Classical.not_and_iff_not_or_not, Classical.not_not] at hbad
      simpa [or_assoc] using hbad
    · simpa [and_assoc] using hsound
  · obtain ⟨hrefused, hbegins⟩ := ringRow_refuses_or_begins (c := .fwActivate p) (eff := applyFwActivate h none p) ha rfl rfl
    refine ⟨fun hbad => hrefused ?_, fun hsound => hbegins ?_⟩
    · simp only [Classical.not_and_iff_not_or_not, Classical.not_not] at hbad
      simpa [or_assoc] using hbad
    · simpa [and_assoc] using hsound
  · obtain ⟨hrefused, hbegins⟩ := ringRow_refuses_or_begins (c := .fwConfirm p) (eff := applyFwConfirm h none p) ha rfl rfl
    refine ⟨fun hbad => hrefused ?_, fun hsound => hbegins ?_⟩
    · simp only [Classical.not_and_iff_not_or_not, Classical.not_not] at hbad
      simpa [or_assoc] using hbad
    · simpa [and_assoc] using hsound

/-! ### The ends of firmware work (R635, R637, R639, R644, R645) -/

theorem State.workOf?_only {s : State} {w : Work} {k : WorkKind} (hw : s.host.works = [w]) (hk : w.kind = k) :
    s.workOf? k = some w := by
  rw [State.workOf?, hw]
  exact List.find?_cons_of_pos (by simpa using hk)

theorem State.finishWork_only {s : State} {w : Work} (hw : s.host.works = [w]) (a : Answer) (k : WorkKind) :
    (s.finishWork w a).workOf? k = none := by
  have hnone : (s.finishWork w a).host.works = [] := by
    change s.host.works.erase w = []
    simp [hw]
  rw [State.workOf?, hnone]
  rfl

/-- Work that ends on a change of a component's flash alone. -/
theorem State.finishWork_modFw_done (s : State) (c : Nat) (g : FwComponent → FwComponent) (w : Work) (a : Answer) :
    let t := (s.modFw c g).finishWork w a
    (Ends s t w a ∧ t.clk = s.clk ∧ t.work = s.work ∧ t.dram = s.dram) ∧ t.fw c = g (s.fw c) := by
  refine ⟨⟨⟨?_, ?_⟩, State.modFw_clk s c g, State.modFw_work s c g, State.modFw_dram s c g⟩, State.fw_modFw s c g⟩
  · exact congrArg (·.works.erase w) (State.modFw_host s c g)
  · exact congrArg (·.ending ++ [(w, a)]) (State.modFw_host s c g)

theorem State.modFw_finishWork (s : State) (c : Nat) (g : FwComponent → FwComponent) (w : Work) (a : Answer) :
    (s.finishWork w a).modFw c g = (s.modFw c g).finishWork w a := by
  unfold State.modFw
  split <;> rfl

section
variable {c : Byte} {s : State} {w : Work} (hdead : s.dead = false) (hwrite : s.fwWritable c.toNat = true) (hw : s.host.works = [w])
include hdead hwrite hw

/-- The download of the last byte closes the slot (R635). -/
theorem exec_fwChunkWritten (hk : w.kind = .fwChunk c.toNat) (hst : (s.fw c.toNat).idleSlot.state = .downloading)
    (hwhole : (s.fw c.toNat).idleSlot.whole = true) : exec (.fwChunkWritten ⟨c⟩) s =
      .next ((s.modFw c.toNat (fun x => x.setSlot x.idle FwSlot.close)).finishWork w ok) := by
  rw [← State.modFw_finishWork]
  have hfw : (s.finishWork w ok).fw c.toNat = s.fw c.toNat := rfl
  change execFwChunkWritten ⟨c⟩ s = _
  unfold execFwChunkWritten
  simp only [hwrite, State.workOf?_only hw hk, hdead, State.finishWork_only hw, State.closeDownload, hfw, hst, hwhole]
  rfl

theorem exec_fwActivateDone (hk : w.kind = .fwActivate c.toNat) (hst : (s.fw c.toNat).idleSlot.state = .verified) :
    exec (.fwActivateDone ⟨c⟩) s = .next ((s.activateFw c.toNat).finishWork w ok) := by
  change execFwActivateDone ⟨c⟩ s = _
  unfold execFwActivateDone
  simp only [hwrite, State.workOf?_only hw hk, hdead, hst]
  rfl

theorem exec_fwConfirmDone (hk : w.kind = .fwConfirm c.toNat)
    (hst : ((s.fw c.toNat).slot (s.fw c.toNat).running).state = .trial) :
    exec (.fwConfirmDone ⟨c⟩) s = .next ((s.modFw c.toNat FwComponent.confirm).finishWork w ok) := by
  change execFwConfirmDone ⟨c⟩ s = _
  unfold execFwConfirmDone
  simp only [hwrite, State.workOf?_only hw hk, hdead, hst]
  rfl

omit hwrite in
theorem exec_fwVerifyDone (hk : w.kind = .fwVerify c.toNat) (hst : (s.fw c.toNat).idleSlot.state = .downloaded) :
    exec (.fwVerifyDone ⟨c⟩) s = .next ((s.modFw c.toNat FwComponent.judge).finishWork w
      (if signatureOk (s.fw c.toNat).idleSlot.image then ok else failWith .signatureInvalid)) := by
  change execFwVerifyDone ⟨c⟩ s = _
  unfold execFwVerifyDone
  simp only [State.workOf?_only hw hk, hdead, hst]
  rfl

end

/-- R639: both copies of the record name the slot that will run and the one that runs. -/
theorem FwComponent.activate_spec {x : FwComponent} (hrun : x.running = 1 ∨ x.running = 2) :
    x.activate.idleSlot.state = .pending ∧ (x.activate.slot x.running).state = .standby ∧ x.activate.running = x.running ∧
      ∃ r, x.activate.ptr0 = some r ∧ x.activate.ptr1 = some r ∧ r.active = x.idle ∧ r.previous = x.running ∧
        r.confirmed = false ∧ r.trials = 0 := by
  have hrunning : x.activate.running = x.running := by
    unfold FwComponent.activate
    simp only [FwComponent.running_setSlot]
    rfl
  have hslot (n : Nat) : x.activate.slot n = FwComponent.slot (((x.write _).setSlot x.idle _).setSlot x.running _) n := rfl
  refine ⟨?_, ?_, hrunning, ?_⟩
  · rw [FwComponent.idleSlot, FwComponent.idle, hrunning, ← FwComponent.idle, hslot,
      FwComponent.slot_setSlot_ne _ _ (FwComponent.idle_ne_running hrun), FwComponent.slot_setSlot]
  · rw [hslot, FwComponent.slot_setSlot]
  · unfold FwComponent.activate
    simp only [FwComponent.ptr0_setSlot, FwComponent.ptr1_setSlot]
    exact ⟨_, rfl, rfl, rfl, rfl, rfl, rfl⟩

/-- R640: what an activation does beside the component's. -/
theorem State.activateFw_eq (s : State) (c : Nat) :
    ∃ m, s.activateFw c = { s.modFw c FwComponent.activate with mmc := m } ∧ (c = 3 → m.restartDue = true) := by
  unfold State.activateFw
  dsimp only
  split
  · exact ⟨_, rfl, fun _ => rfl⟩
  · next h => exact ⟨_, rfl, fun h3 => absurd h3 h⟩

/-- R644: the running trial is CONFIRMED, under a record that says so. -/
theorem FwComponent.confirm_spec (x : FwComponent) : (x.confirm.slot x.running).state = .confirmed ∧
    ∀ r, x.record = some r → ∃ r', x.confirm.ptr0 = some r' ∧ x.confirm.ptr1 = some r' ∧ r'.confirmed = true ∧ r'.active = r.active := by
  have hslot (y : FwComponent) (h : y.running = x.running) (g : FwSlot → FwSlot) :
      FwComponent.slot { y.setSlot y.running g with trialReady := none } x.running = g (y.slot x.running) := by
    rw [← h]
    exact FwComponent.slot_setSlot _ _ _
  unfold FwComponent.confirm
  cases hrec : x.record with
  | none => exact ⟨congrArg FwSlot.state (hslot x rfl _), fun r hr => by simp at hr⟩
  | some r0 =>
    refine ⟨congrArg FwSlot.state (hslot (x.write _) rfl _), fun r hr => ?_⟩
    obtain rfl := Option.some.inj hr
    simp only [FwComponent.ptr0_setSlot, FwComponent.ptr1_setSlot]
    exact ⟨_, rfl, rfl, rfl, rfl⟩

theorem FwComponent.judge_spec (x : FwComponent) :
    (signatureOk x.idleSlot.image = true → x.judge.idleSlot = { x.idleSlot with state := .verified }) ∧
    (signatureOk x.idleSlot.image = false → x.judge.idleSlot = { x.idleSlot with state := .rejected }) := by
  unfold FwComponent.judge
  refine ⟨fun h => ?_, fun h => ?_⟩
  · rw [if_pos h]
    exact FwComponent.idleSlot_setSlot x _
  · rw [if_neg (by simp [h])]
    exact FwComponent.idleSlot_setSlot x _

theorem FwSlot.close_state (x : FwSlot) : (headerOk x.image = true → x.close.state = .downloaded) ∧
    (headerOk x.image = false → x.close.state = .empty) := by
  unfold FwSlot.close
  refine ⟨fun h => ?_, fun h => ?_⟩ <;> rw [h] <;> rfl

theorem State.fw_congr {s t : State} (h : t.nor = s.nor) (c : Nat) : t.fw c = s.fw c := by
  unfold State.fw
  rw [h]

theorem OnlyRaises.works {s t : State} (h : OnlyRaises s t) : t.host.works = s.host.works := by rw [h.rest]

/-- What is raised is seen against the functions' states alone. -/
theorem Raised.of_host {s s' t : State} {f : Fn} {code tick : Nat} (k : Raised s' t f code tick) (h : s'.host = s.host) :
    Raised s t f code tick := by
  unfold Raised State.fnSt at *
  rwa [h] at k

/-- R645: AUTO_CONFIRM's time has passed. -/
theorem exec_fwAutoConfirmed {c : Byte} {s : State} (hc : c = 2 ∨ c = 3) (hwrite : s.fwWritable c.toNat = true)
    (hready : s.isReady = true) (hdue : (s.fw c.toNat).autoDue (s.clk.tick + 1) = true) :
    ∃ t, exec (.fwAutoConfirmed ⟨c⟩) s = .next t ∧
      ((t.fw c.toNat).slot (s.fw c.toNat).running).state = .confirmed ∧
      Raised s t pfFn 0x0702 (s.clk.tick + 1) ∧ t.clk = s.clk ∧ t.work = s.work ∧ t.host.works = s.host.works := by
  have hcomp : (c.toNat == 2 || c.toNat == 3) = true := by rcases hc with rfl | rfl <;> rfl
  have hexec : exec (.fwAutoConfirmed ⟨c⟩) s = execFwAutoConfirmed ⟨c⟩ s := rfl
  rw [hexec]
  unfold execFwAutoConfirmed
  dsimp only
  rw [if_neg (by simp only [hready, hcomp, hwrite, hdue]; decide)]
  have hraises := State.raise_onlyRaises (s.coming.modFw c.toNat FwComponent.confirm) pfFn 0x0702
    (le 1 c.toNat ++ le 1 (s.coming.fw c.toNat).running)
  have hraised := State.raise_raised (s.coming.modFw c.toNat FwComponent.confirm) pfFn 0x0702
    (le 1 c.toNat ++ le 1 (s.coming.fw c.toNat).running)
  obtain ⟨hclk, hwork, -, -, -⟩ := hraises.leaves
  rw [State.modFw_clk] at hclk hraised
  have hfw := State.fw_congr hraises.nor_boot.1 c.toNat
  rw [State.fw_modFw] at hfw
  refine ⟨_, rfl, ?_, hraised.of_host (State.modFw_host s.coming _ _), State.clk_backTo hclk,
    hwork.trans (State.modFw_work s.coming _ _), hraises.works.trans (congrArg HostSide.works (State.modFw_host s.coming _ _))⟩
  exact (congrArg (fun y => (FwComponent.slot y _).state) hfw).trans (FwComponent.confirm_spec _).1

/-- R207, R225: the coming commit completes the one command whose work has ended. -/
theorem State.endWorks_one {s : State} {w : Work} {a : Answer} (h : s.host.ending = [(w, a)]) : ∃ (b : Completion) (qs : List Queue),
    s.endWorks = { s with host := { s.host with
      ending := [], queues := qs, clasps := signalled w.head s.host.clasps
      completions := s.host.completions ++ (match w.pos with
        | some p => [{ fn := w.head.fn, ring := p.done, body := b, clasp := a.clasp }]
        | none => answers s w.head b a.clasp) } } ∧
    b.opcode = w.opcode ∧ b.commandId = w.head.commandId ∧ b.status = statusCode a.status ∧ b.fieldOffset = a.offset ∧
    b.tick = s.clk.tick ∧ b.result = fit 32 a.result := by
  have hone : s.endWorks = (s.withHost { s.host with ending := [] }).complete w.head w.opcode w.pos a := by
    unfold State.endWorks
    rw [h]
    rfl
  rw [hone]
  cases w.pos with
  | none =>
    obtain ⟨b, hb, hop, hid, hst, -, hoff, htick, hres⟩ := complete_spec (s.withHost { s.host with ending := [] }) w.head w.opcode a
    exact ⟨b, s.host.queues, hb, hop, hid, hst, hoff, htick, hres⟩
  | some p =>
    obtain ⟨b, qs, hb, r⟩ := complete_ring (s.withHost { s.host with ending := [] }) w.head w.opcode p a
    exact ⟨b, qs, hb, r⟩

/-- Settles O32: each end is one change of the component beside the work's end; the commit's completion is that of one command. -/
theorem firmwareWorkEnds : Obligations.FirmwareWorkEnds := by
  unfold Obligations.FirmwareWorkEnds
  refine ⟨fun c s w hc hdead hwrite hw => ⟨fun hk hst hwhole => ?_, fun hk hst hrun => ⟨fun hsig => ?_, fun hsig => ?_⟩,
    fun hk hst hrun => ?_, fun hk hst => ?_, fun hready hdue => ?_⟩, fun s w a h => State.endWorks_one h⟩
  · obtain ⟨hdone, hfw⟩ := State.finishWork_modFw_done s c.toNat (fun x => x.setSlot x.idle FwSlot.close) w ok
    refine ⟨_, exec_fwChunkWritten hdead hwrite hw hk hst hwhole, hdone, ?_⟩
    rw [hfw, FwComponent.idleSlot_setSlot]
    exact FwSlot.close_state _
  · obtain ⟨hdone, hfw⟩ := State.finishWork_modFw_done s c.toNat FwComponent.judge w ok
    refine ⟨_, by rw [exec_fwVerifyDone hdead hw hk hst, hsig, if_pos rfl], hdone, ?_⟩
    rw [hfw, (FwComponent.judge_spec _).1 hsig]
    exact ⟨rfl, rfl⟩
  · obtain ⟨hdone, hfw⟩ := State.finishWork_modFw_done s c.toNat FwComponent.judge w (failWith .signatureInvalid)
    refine ⟨_, by rw [exec_fwVerifyDone hdead hw hk hst, hsig, if_neg Bool.false_ne_true], hdone, ?_⟩
    rw [hfw, (FwComponent.judge_spec _).2 hsig]
  · obtain ⟨hdone, hfw⟩ := State.finishWork_modFw_done s c.toNat FwComponent.activate w ok
    refine ⟨_, exec_fwActivateDone hdead hwrite hw hk hst, ?_⟩
    obtain ⟨m, hm, hrestart⟩ := s.activateFw_eq c.toNat
    rw [hm]
    obtain ⟨hidle, hstandby, hrunning, hrecord⟩ := FwComponent.activate_spec hrun
    rw [← hfw] at hidle hstandby hrunning hrecord
    exact ⟨hdone, hidle, hstandby, hrunning, hrecord, fun h3 => hrestart (by rw [h3]; rfl)⟩
  · obtain ⟨hdone, hfw⟩ := State.finishWork_modFw_done s c.toNat FwComponent.confirm w ok
    refine ⟨_, exec_fwConfirmDone hdead hwrite hw hk hst, hdone, ?_⟩
    rw [hfw]
    exact FwComponent.confirm_spec _
  · exact exec_fwAutoConfirmed hc hwrite hready hdue

end Sys2Proof.Machine
end


section
/-! A firmware update over PLDM (O60). -/

namespace Sys2Proof.Machine

/-- A request served with code 0: its one response, and nothing of the commands, the clock or the ledger moved. -/
def Answered (s t : State) (cmd : Nat) : Prop :=
  (∃ r, t.mmc.response = some r ∧ r.msgType = 1 ∧ r.command = cmd ∧ r.code = 0) ∧
    t.clk = s.clk ∧ t.host = s.host ∧ t.work = s.work ∧ t.nor.ledger0 = s.nor.ledger0

theorem answered_respond {s u : State} {p : MgmtPath} {cmd : Nat} {data : List Byte} (hclk : u.clk = s.clk) (hhost : u.host = s.host)
    (hwork : u.work = s.work) (hled : u.nor.ledger0 = s.nor.ledger0) : Answered s (u.respond p 1 cmd 0 data) cmd :=
  ⟨⟨_, rfl, rfl, rfl, rfl⟩, hclk, hhost, hwork, hled⟩

theorem isComponent_iff (c : U16) : isComponent c = true ↔ c = 2 ∨ c = 3 := by simp [isComponent]

theorem component_toNat {c : U16} (h : c = 2 ∨ c = 3) : c.toNat = 2 ∨ c.toNat = 3 := by
  rcases h with rfl | rfl
  · exact .inl rfl
  · exact .inr rfl

@[simp] theorem State.modFw_mmc (s : State) (c : Nat) (g : FwComponent → FwComponent) : (s.modFw c g).mmc = s.mmc := by
  unfold State.modFw
  split <;> rfl

/-- A change of one component is no change of the other. -/
theorem State.fw_modFw_ne (s : State) {c d : Nat} (h : c = 3 ↔ d ≠ 3) (g : FwComponent → FwComponent) :
    (s.modFw c g).fw d = s.fw d := by
  unfold State.modFw State.fw
  by_cases hd : d = 3 <;> simp [hd, h]

/-- An MMC that serves can write its own flash while the supply stands. -/
theorem State.fwWritable_of_serve {s : State} {p : MgmtPath} (h : s.access p = .serve) (hw : s.nor.writesStopped = false) (c : Nat) :
    s.fwWritable c = true := by
  have hserving : s.mmc.state = .serving := by
    unfold State.access at h
    cases hm : s.mmc.state with
    | serving => rfl
    | absent => cases p <;> simp only [hm] at h <;> split at h <;> simp at h
    | rebuilding => cases p <;> simp only [hm] at h <;> split at h <;> simp at h
  simp [State.fwWritable, hw, hserving]

/-- A cancelled update leaves a component's record and running slot, and gives the component back. -/
theorem FwComponent.abandon_spec (x : FwComponent) (p : UpdatePath) :
    (x.abandon p).holder ≠ some p ∧ (x.abandon p).running = x.running ∧ (x.abandon p).ptr0 = x.ptr0 := by
  unfold FwComponent.abandon
  dsimp only
  split
  · exact ⟨by simp, rfl, rfl⟩
  · next h => exact ⟨by simpa using h, rfl, rfl⟩

section
variable {p : MgmtPath} {s : State} (h : s.access p = .serve)
include h

theorem exec_requestUpdate_taken {c : U16} (hc : c = 2 ∨ c = 3) (hidle : s.mmc.update = none) (hfree : (s.fw c.toNat).holder = none) :
    ∃ t, exec (.requestUpdate ⟨p, c⟩) s = .next t ∧ Answered s t 0x510 ∧
      t.mmc.update = some { passed := [], component := none, activating := false } ∧ (t.fw c.toNat).holder = some .pldm ∧
      (t.fw c.toNat).slotA = (s.fw c.toNat).slotA ∧ (t.fw c.toNat).slotB = (s.fw c.toNat).slotB := by
  refine ⟨_, served h rfl, ?_⟩
  dsimp only
  rw [if_neg (by simp [(isComponent_iff c).2 hc]), if_neg (by simp [hidle, hfree])]
  refine ⟨answered_respond (State.modFw_clk _ _ _) (State.modFw_host _ _ _) (State.modFw_work _ _ _) (State.modFw_ledger0 _ _ _), rfl, ?_⟩
  have hfw := State.fw_modFw s c.toNat (fun x => { x with holder := some .pldm })
  exact ⟨congrArg FwComponent.holder hfw, (congrArg FwComponent.slotA hfw).trans rfl, (congrArg FwComponent.slotB hfw).trans rfl⟩

section
variable {u : PldmUpdate} (hu : s.mmc.update = some u)
include hu

theorem exec_passComponentTable {c : U16} (hc : c = 2 ∨ c = 3) : ∃ t, exec (.passComponentTable ⟨p, c⟩) s = .next t ∧
    Answered s t 0x513 ∧ t.mmc.update = some { u with passed := c.toNat :: u.passed } ∧ t.nor = s.nor := by
  refine ⟨_, served h rfl, ?_⟩
  dsimp only
  rw [hu]
  dsimp only
  rw [if_pos ((isComponent_iff c).2 hc)]
  exact ⟨answered_respond rfl rfl rfl rfl, rfl, rfl⟩

theorem exec_updateComponent_refused {c : U16} {d : List Byte} (hbad : c.toNat ∉ u.passed ∨ (s.fw c.toNat).downloadBarred .pldm = true ∨
    d = [] ∨ slotSize c.toNat < d.length) : exec (.updateComponent ⟨p, c, d⟩) s = .next (s.respond p 1 0x514 0x84 []) := by
  refine served_reports h ?_ rfl
  dsimp only
  rw [hu]
  dsimp only
  rw [if_pos]
  simpa [or_assoc] using hbad

/-- The download goes to the idle slot (R634, R635). -/
theorem exec_updateComponent {c : U16} {d : List Byte} (hpassed : c.toNat ∈ u.passed)
    (hbarred : (s.fw c.toNat).downloadBarred .pldm = false) (hd : d ≠ []) (hlen : d.length ≤ slotSize c.toNat)
    (hw : s.nor.writesStopped = false) : ∃ t, exec (.updateComponent ⟨p, c, d⟩) s = .next t ∧ Answered s t 0x514 ∧
      t.mmc.update = some { u with component := some c.toNat } ∧ (t.fw c.toNat).holder = some .pldm ∧
      (t.fw c.toNat).idleSlot.state = .downloading ∧ (t.fw c.toNat).idleSlot.image = d ∧
      ((s.fw c.toNat).running = 1 ∨ (s.fw c.toNat).running = 2 →
        (t.fw c.toNat).slot (s.fw c.toNat).running = (s.fw c.toNat).slot (s.fw c.toNat).running) := by
  refine ⟨_, served h rfl, ?_⟩
  dsimp only
  rw [hu]
  dsimp only
  rw [if_neg (by simp [hpassed, hbarred, hd, hlen]), if_neg (by simp [State.fwWritable_of_serve h hw])]
  refine ⟨answered_respond (State.modFw_clk _ _ _) (State.modFw_host _ _ _) (State.modFw_work _ _ _) (State.modFw_ledger0 _ _ _), rfl, ?_⟩
  have hfw := State.fw_modFw s c.toNat (fun x => { x.setSlot x.idle (fun y => y.put 0 d) with holder := some .pldm })
  have hidle : FwComponent.idleSlot { (s.fw c.toNat).setSlot (s.fw c.toNat).idle (fun y => y.put 0 d) with holder := some .pldm } =
      (s.fw c.toNat).idleSlot.put 0 d := FwComponent.idleSlot_setSlot _ _
  rw [← hfw] at hidle
  refine ⟨congrArg FwComponent.holder hfw, congrArg FwSlot.state hidle, congrArg FwSlot.image hidle, fun hrun => ?_⟩
  exact (congrArg (FwComponent.slot · _) hfw).trans (FwComponent.slot_setSlot_ne _ _ (FwComponent.running_ne_idle hrun))

theorem exec_activateFirmware {c : Nat} (hc : u.component = some c) (hst : (s.fw c).idleSlot.state = .verified) :
    ∃ t, exec (.activateFirmware ⟨p⟩) s = .next t ∧ Answered s t 0x51A ∧
      t.mmc.update = some { u with activating := true } ∧ t.nor = s.nor := by
  refine ⟨_, served h rfl, ?_⟩
  rw [hu]
  dsimp only
  rw [if_pos (by simp [hc, hst])]
  exact ⟨answered_respond rfl rfl rfl rfl, rfl, rfl⟩

theorem exec_activateFirmware_refused (hno : ∀ c, u.component = some c → (s.fw c).idleSlot.state ≠ .verified) :
    exec (.activateFirmware ⟨p⟩) s = .next (s.respond p 1 0x51A 0x84 []) := by
  refine served_reports h ?_ rfl
  rw [hu]
  dsimp only
  rw [if_neg]
  simpa [Option.any_eq_true] using hno

theorem exec_cancelUpdateComponent {c : Nat} (hc : u.component = some c) : ∃ t, exec (.cancelUpdateComponent ⟨p⟩) s = .next t ∧
    Answered s t 0x51C ∧ t.mmc.update = some { u with component := none, activating := false } := by
  refine ⟨_, served h rfl, ?_⟩
  rw [hu]
  dsimp only
  rw [hc]
  exact ⟨answered_respond (State.modFw_clk _ _ _) (State.modFw_host _ _ _) (State.modFw_work _ _ _) (State.modFw_ledger0 _ _ _), rfl⟩

theorem exec_cancelUpdate : ∃ t, exec (.cancelUpdate ⟨p⟩) s = .next t ∧ Answered s t 0x51D ∧ t.mmc.update = none ∧
    ∀ c, c = 2 ∨ c = 3 → (t.fw c).holder ≠ some .pldm ∧ (t.fw c).running = (s.fw c).running ∧ (t.fw c).ptr0 = (s.fw c).ptr0 := by
  refine ⟨_, served h rfl, ?_⟩
  dsimp only
  rw [hu]
  dsimp only
  refine ⟨answered_respond (by simp [withUpdate, withMmc]) (by simp [withUpdate, withMmc]) (by simp [withUpdate, withMmc])
    (by simp [withUpdate, withMmc]), rfl, fun c hc => ?_⟩
  have hfw : State.fw ((s.modFw 2 (fun x => x.abandon .pldm)).modFw 3 (fun x => x.abandon .pldm)) c = (s.fw c).abandon .pldm := by
    rcases hc with rfl | rfl
    · rw [State.fw_modFw_ne _ (by decide), State.fw_modFw]
    · rw [State.fw_modFw, State.fw_modFw_ne _ (by decide)]
  have habandon := (s.fw c).abandon_spec .pldm
  rw [← hfw] at habandon
  exact habandon

end
end

/-- Settles O60: each command is one reply of the MMC, by the update it has under way and the component's idle slot. -/
theorem pldmUpdate : Obligations.PldmUpdate := by
  unfold Obligations.PldmUpdate
  intro p s h reports answered
  refine ⟨served_reports h rfl rfl, fun c h2 h3 => ?_, fun hidle => ?_, fun c hc => ⟨fun hbusy => ?_, fun hidle hfree =>
    exec_requestUpdate_taken h hc hidle hfree⟩, fun u hu => ?_⟩
  · exact served_reports h (if_pos (by simpa [isComponent] using And.intro h2 h3)) rfl
  · refine ⟨fun c => ?_, fun c d => ?_, ?_, ?_, ?_⟩ <;> exact served_reports h (by simp only [hidle]) rfl
  · refine served_reports h ?_ rfl
    dsimp only
    rw [if_neg (by simp [(isComponent_iff c).2 hc]), if_pos]
    simpa [Option.isSome_iff_ne_none] using hbusy
  · refine ⟨fun c hc => exec_passComponentTable h hu hc, fun c d hc => ⟨exec_updateComponent_refused h hu,
      exec_updateComponent h hu⟩, fun c hc => ⟨exec_activateFirmware h hu hc, fun hst => exec_activateFirmware_refused h hu ?_,
      exec_cancelUpdateComponent h hu hc⟩, fun hnone => ⟨exec_activateFirmware_refused h hu ?_, ?_⟩, exec_cancelUpdate h hu⟩
    · intro d hd
      obtain rfl := Option.some.inj (hc.symm.trans hd)
      exact hst
    · intro d hd
      simp [hnone] at hd
    · exact served_reports h (by simp only [hu, hnone]) rfl

end Sys2Proof.Machine
end


section
/-! Buffer pools (O39, O40). -/

namespace Sys2Proof.Machine

/-! ### Raising any event -/

theorem State.raiseFull_onlyRaises (s : State) (f : Fn) (code sev slot stream node : Nat) (d : List Byte) :
    OnlyRaises s (s.raiseFull f code sev slot stream node d) := by
  obtain ⟨e, -, -, he⟩ := State.fnSt_raiseFull s f code sev slot stream node d
  refine ⟨rfl, fun k => ?_, fun k => ?_⟩ <;> by_cases hk : k = f
  · rw [hk, he]; rfl
  · rw [State.fnSt_raiseFull_ne s hk]
  · exact ⟨_, by rw [hk, he]; rfl⟩
  · exact ⟨[], by rw [State.fnSt_raiseFull_ne s hk, List.append_nil]⟩

theorem State.raiseFull_raised (s : State) (f : Fn) (code sev slot stream node : Nat) (d : List Byte) :
    Raised s (s.raiseFull f code sev slot stream node d) f code s.clk.tick := by
  obtain ⟨e, hcode, htick, he⟩ := State.fnSt_raiseFull s f code sev slot stream node d
  exact ⟨_, congrArg FnState.eventHeld he, _, List.mem_singleton_self _, hcode, htick⟩

/-- What a row that raises one event as of the coming commit leaves. -/
theorem State.atNext_raiseFull (s : State) (f : Fn) (code sev slot stream node : Nat) (d : State → List Byte) :
    OnlyRaises s (s.atNext (fun s => s.raiseFull f code sev slot stream node (d s))) ∧
      Raised s (s.atNext (fun s => s.raiseFull f code sev slot stream node (d s))) f code (s.clk.tick + 1) :=
  ⟨(State.raiseFull_onlyRaises _ _ _ _ _ _ _ _).backTo, State.raiseFull_raised _ _ _ _ _ _ _ _⟩

theorem OnlyRaises.pools_eq {s t : State} (h : OnlyRaises s t) : t.pools = s.pools := by rw [h.rest]

/-! ### Classes and free buffers (R412, R416) -/

/-- R412: the class found is the smallest that holds the request. -/
theorem classFor_spec {n c : Nat} (h : classFor n = some c) : n ≤ bufferBytes c ∧ ∀ k, k < c → bufferBytes k < n := by
  obtain ⟨hle, -, hbelow⟩ := List.find?_range_eq_some.1 h
  exact ⟨by simpa using hle, fun k hk => by simpa using hbelow k hk⟩

theorem classFor_none {n : Nat} (h : 33554432 < n) : classFor n = none := by
  refine List.find?_eq_none.2 fun c hc => ?_
  have : bufferBytes c ≤ 33554432 := by
    have : ∀ c ∈ List.range 6, bufferBytes c ≤ 33554432 := by decide
    exact this c hc
  simp only [decide_eq_true_eq]
  omega

theorem lowestFree_spec {used : Nat → Bool} {lo fuel k : Nat} (h : lowestFree used lo fuel = some k) :
    lo ≤ k ∧ k < lo + fuel ∧ used k = false ∧ ∀ j, lo ≤ j → j < k → used j = true := by
  induction fuel generalizing lo with
  | zero => simp [lowestFree] at h
  | succ fuel ih =>
    unfold lowestFree at h
    split at h
    next hused =>
      obtain ⟨hlo, hhi, hfree, hbelow⟩ := ih h
      refine ⟨by omega, by omega, hfree, fun j hj hjk => ?_⟩
      rcases Nat.eq_or_lt_of_le hj with rfl | hj
      · exact hused
      · exact hbelow j hj hjk
    next hfree =>
      obtain rfl := Option.some.inj h
      exact ⟨Nat.le_refl _, by omega, by simpa using hfree, fun j hj hjk => by omega⟩

/-- The lowest free index of a class in a row: below its end, used by none, and all below it in use. -/
theorem State.freeInRow_spec {s : State} {row : Row} {cls k : Nat} (h : s.freeInRow row cls = some k) :
    k < poolBuffers cls ∧ (∀ x ∈ s.pools.bufs, bufKey x ≠ (row.val, cls, k)) ∧
      ∀ j, j < k → ∃ x ∈ s.pools.bufs, bufKey x = (row.val, cls, j) := by
  unfold State.freeInRow at h
  split at h
  · obtain ⟨-, hhi, hfree, hbelow⟩ := lowestFree_spec h
    refine ⟨by omega, fun x hx hkey => ?_, fun j hj => ?_⟩
    · simp only [bufKey, Prod.mk.injEq] at hkey
      rw [List.any_eq_false] at hfree
      exact hfree x hx (by simp [Fin.ext_iff, hkey])
    · obtain ⟨x, hx, hkey⟩ := List.any_eq_true.1 (hbelow j (Nat.zero_le _) hj)
      simp only [Bool.and_eq_true, beq_iff_eq] at hkey
      exact ⟨x, hx, by simp [bufKey, hkey]⟩
  · simp at h

/-! ### The rows an allocation tries (R416) -/

section
variable {α : Type} {before : α → α → Bool} {a : α}

theorem mem_insertAhead {x y : α} {l : List α} : y ∈ sortBy.insertAhead before x l ↔ y = x ∨ y ∈ l := by
  induction l with
  | nil => simp [sortBy.insertAhead]
  | cons z l ih =>
    unfold sortBy.insertAhead
    split
    · simp only [List.mem_cons, ih]
      exact or_left_comm
    · simp

theorem mem_sortBy {y : α} {l : List α} : y ∈ sortBy before l ↔ y ∈ l := by
  induction l with
  | nil => simp [sortBy]
  | cons x l ih => simp only [sortBy, mem_insertAhead, ih, List.mem_cons]

/-- What nothing stands before, and what stands before everything else, is first once sorted. -/
theorem head?_sortBy [DecidableEq α] (hlow : ∀ x, before x a = false) (hfirst : ∀ x, x ≠ a → before a x = true) {l : List α}
    (h : a ∈ l) : (sortBy before l).head? = some a := by
  induction l with
  | nil => simp at h
  | cons x l ih =>
    unfold sortBy
    by_cases hx : x = a
    · subst hx
      cases hs : sortBy before l with
      | nil => rfl
      | cons y ys =>
        unfold sortBy.insertAhead
        rw [hlow y]
        rfl
    · have hl := ih ((List.mem_cons.1 h).resolve_left (Ne.symm hx))
      cases hs : sortBy before l with
      | nil => simp [hs] at hl
      | cons y ys =>
        rw [hs] at hl
        obtain rfl := Option.some.inj hl
        unfold sortBy.insertAhead
        rw [hfirst x hx]
        rfl

end

section
variable {s : State} {row : Row}

theorem State.mem_allocRows {r : Row} : r ∈ s.allocRows row ↔
    partOfRow s.work.startMask r.val = partOfRow s.work.startMask row.val := by
  unfold State.allocRows
  simp [mem_sortBy]

/-- R416: the requester's own row is tried first. -/
theorem State.head?_allocRows : (s.allocRows row).head? = some row := by
  unfold State.allocRows
  refine head?_sortBy (fun x => ?_) (fun x hx => ?_) (by simp)
  · simp
  · have : x.val ≠ row.val := fun h => hx (Fin.ext h)
    simp only [decide_eq_true_eq]
    omega

/-- The row and index an allocation takes, by the order of R416. -/
def State.allocPlace (s : State) (row : Row) (cls : Nat) : Option (Row × Nat) :=
  (s.allocRows row).findSome? (fun r => (s.freeInRow r cls).map (fun i => (r, i)))

theorem State.allocPlace_none {cls : Nat} (h : ∀ r, s.freeInRow r cls = none) : s.allocPlace row cls = none :=
  List.findSome?_eq_none_iff.2 fun r _ => by rw [h r]; rfl

/-- A place is taken in the requester's partition, where one is free there. -/
theorem State.allocPlace_some {cls : Nat} {r : Row} (hr : partOfRow s.work.startMask r.val = partOfRow s.work.startMask row.val)
    (hfree : s.freeInRow r cls ≠ none) : ∃ r' k, s.allocPlace row cls = some (r', k) ∧ s.freeInRow r' cls = some k ∧
      partOfRow s.work.startMask r'.val = partOfRow s.work.startMask row.val := by
  cases hp : s.allocPlace row cls with
  | none =>
    have := List.findSome?_eq_none_iff.1 hp r (State.mem_allocRows.2 hr)
    exact absurd (by simpa using this) hfree
  | some x =>
    obtain ⟨r', hmem, hx⟩ := List.exists_of_findSome?_eq_some hp
    obtain ⟨k, hk, rfl⟩ := Option.map_eq_some_iff.1 hx
    exact ⟨r', k, rfl, hk, State.mem_allocRows.1 hmem⟩

/-- R416: the requester's own row, when it has a free buffer. -/
theorem State.allocPlace_own {cls k : Nat} (h : s.freeInRow row cls = some k) : s.allocPlace row cls = some (row, k) := by
  have hhead := State.head?_allocRows (s := s) (row := row)
  unfold State.allocPlace
  cases hl : s.allocRows row with
  | nil => simp [hl] at hhead
  | cons y ys =>
    rw [hl] at hhead
    obtain rfl := Option.some.inj hhead
    rw [List.findSome?_cons, h]
    rfl

end

/-! ### BUFFER_ALLOCATE -/

/-- The buffer that an allocation takes. -/
def takenBuffer (i : AllocIn) (c : Nat) (r : Row) (k : Nat) : Buffer :=
  { row := r, cls := c, index := k, owner := i.owner, since := none, releasing := false, releaser := none, suspect := false,
    unreferenced := 0, job := i.job, session := i.session.map (fun x => (x.1, x.2.toNat)) }

section
variable {i : AllocIn} {s : State} (hd : s.dead = false)
include hd

theorem exec_bufferAllocate_noClass (h : classFor i.bytes.toNat = none) : exec (.bufferAllocate i) s = .next s := by
  change execBufferAllocate i s = _
  simp only [execBufferAllocate, hd, State.alloc, h]
  rfl

theorem exec_bufferAllocate {c : Nat} (h : classFor i.bytes.toNat = some c) : exec (.bufferAllocate i) s = .next
    (if poolAllows (s.level (partOfRow s.work.startMask i.row.val) c) i.owner i.cls i.job then
      match s.allocPlace i.row c with
      | some (r, k) => { s with pools := { s.pools with bufs := takenBuffer i c r k :: s.pools.bufs } }
      | none => s
    else s) := by
  change execBufferAllocate i s = _
  simp only [execBufferAllocate, hd, State.alloc, h, State.allocPlace, Bool.false_eq_true, if_false]
  cases (s.allocRows i.row).findSome? (fun r => (s.freeInRow r c).map (fun k => (r, k))) <;> split <;> rfl

/-- What an allocation that finds a free buffer takes. -/
theorem exec_bufferAllocate_takes {c : Nat} (h : classFor i.bytes.toNat = some c)
    (hallowed : poolAllows (s.level (partOfRow s.work.startMask i.row.val) c) i.owner i.cls i.job = true)
    (hfree : ∃ r : Row, partOfRow s.work.startMask r.val = partOfRow s.work.startMask i.row.val ∧ s.freeInRow r c ≠ none) :
    ∃ b : Buffer, exec (.bufferAllocate i) s = .next { s with pools := { s.pools with bufs := b :: s.pools.bufs } } ∧
      b.cls = c ∧ b.index < poolBuffers c ∧ partOfRow s.work.startMask b.row.val = partOfRow s.work.startMask i.row.val ∧
      b.owner = i.owner ∧ b.since = none ∧ b.releasing = false ∧ b.job = i.job ∧ (∀ x ∈ s.pools.bufs, bufKey x ≠ bufKey b) ∧
      ∀ k, s.freeInRow i.row c = some k → b.row = i.row ∧ b.index = k ∧
        ∀ j, j < k → ∃ x ∈ s.pools.bufs, bufKey x = (i.row.val, c, j) := by
  obtain ⟨r, hr, hne⟩ := hfree
  obtain ⟨r', k, hplace, hk, hpart⟩ := State.allocPlace_some hr hne
  obtain ⟨hlt, hunused, -⟩ := State.freeInRow_spec hk
  refine ⟨takenBuffer i c r' k, ?_, rfl, hlt, hpart, rfl, rfl, rfl, rfl, hunused, fun k' hk' => ?_⟩
  · rw [exec_bufferAllocate hd h, if_pos hallowed, hplace]
  · have hown := (State.allocPlace_own hk').symm.trans hplace
    obtain ⟨rfl, rfl⟩ := Prod.mk.injEq .. ▸ Option.some.inj hown
    exact ⟨rfl, rfl, (State.freeInRow_spec hk').2.2⟩

end

/-! ### BUFFER_RELEASE (R420-R422) -/

/-- The buffer test of the pool's updates names a buffer by its key. -/
theorem bufKey_beq {x b : Buffer} : (x.row == b.row && x.cls == b.cls && x.index == b.index) = true ↔ bufKey x = bufKey b := by
  simp [bufKey, Fin.ext_iff, and_assoc]

/-- Marking the buffers of a key keeps the list's keys and every other buffer. -/
theorem updWhere_key {b : Buffer} {g : Buffer → Buffer} (hg : ∀ x, bufKey (g x) = bufKey x) (bs : List Buffer) :
    let cs := updWhere (fun x => x.row == b.row && x.cls == b.cls && x.index == b.index) g bs
    cs.map bufKey = bs.map bufKey ∧ (∀ x ∈ cs, bufKey x = bufKey b → ∃ y ∈ bs, x = g y) ∧
      ∀ x ∈ bs, bufKey x ≠ bufKey b → x ∈ cs := by
  refine ⟨?_, fun x hx hkey => ?_, fun x hx hkey => ?_⟩
  · simp only [updWhere, List.map_map]
    refine List.map_congr_left fun x _ => ?_
    simp only [Function.comp_apply]
    split
    · exact hg x
    · rfl
  · obtain ⟨y, hy, rfl⟩ := List.mem_map.1 hx
    split at hkey
    next hyes => exact ⟨y, hy, if_pos hyes⟩
    next hno => exact absurd (bufKey_beq.2 hkey) hno
  · exact List.mem_map.2 ⟨x, hx, if_neg (mt bufKey_beq.1 hkey)⟩

/-- A release that passes its checks marks the buffer it names. -/
theorem exec_bufferRelease_marks {i : ReleaseIn} {s : State} {b : Buffer} (hd : s.dead = false) (hcheck : s.releaseCheck i = 0)
    (hb : s.namedBuffer (partOfRow s.work.startMask i.row.val) i.handle.toNat = some b) : exec (.bufferRelease i) s =
    .next { s with pools := { s.pools with
      bufs := updWhere (fun x => x.row == b.row && x.cls == b.cls && x.index == b.index)
        (fun x => { x with releasing := true, releaser := i.job }) s.pools.bufs } } := by
  change execBufferRelease i s = _
  simp only [execBufferRelease, hd, hb, hcheck]
  rfl

/-- A release that fails a check changes nothing but what it tells. -/
theorem exec_bufferRelease_rejected {i : ReleaseIn} {s : State} (hd : s.dead = false) (hcheck : s.releaseCheck i ≠ 0) :
    ∃ rest, exec (.bufferRelease i) s = .next ((s.atNext (fun u => u.raiseNode pfFn 0x0303 (9 * i.row.val + 7)
      (le 1 (s.releaseCheck i) ++ rest))).jobFault i.job none ⟨.poolNode, i.row.val⟩) := by
  have hexec : exec (.bufferRelease i) s = execBufferRelease i s := rfl
  rw [hexec]
  unfold execBufferRelease
  rw [if_neg (by simp [hd])]
  dsimp only
  split
  · rw [if_neg hcheck]
    exact ⟨_, rfl⟩
  · exact ⟨_, rfl⟩

/-- A fault of a job is one note for the decision point. -/
theorem State.jobFault_eq (s : State) (job : Option FrameRef) (cls : Option FaultClass) (unit : UnitRef) :
    ∃ n, s.jobFault job cls unit = { s with safety := { s.safety with faults := s.safety.faults ++ [n] } } := ⟨_, rfl⟩

/-- The first byte of an event's detail is the first byte given. -/
theorem State.raiseNode_detail (s : State) (f : Fn) (code node v : Nat) (rest : List Byte) : ∃ e : Event,
    ((s.raiseNode f code node (le 1 v ++ rest)).fnSt f).eventHeld = (s.fnSt f).eventHeld ++ [e] ∧ e.code = code ∧
      e.tick = s.clk.tick ∧ e.detail.head? = some (BitVec.ofNat 8 v) := by
  refine ⟨_, congrArg FnState.eventHeld (State.fnSt_modFn s f _), rfl, rfl, ?_⟩
  rfl

/-! ### The commit (R418, R422, R414) -/

theorem Pools.bumpGen_genOf (x : Pools) (row : Row) (cls index : Nat) :
    (x.bumpGen row cls index).genOf row cls index = (x.genOf row cls index + 1) % 256 := by
  unfold Pools.bumpGen
  generalize hg : (x.genOf row cls index + 1) % 256 = g
  dsimp only
  have hrest : (x.gens.filter (fun y => !(y.row == row && y.cls == cls && y.index == index))).find?
      (fun y => y.row == row && y.cls == cls && y.index == index) = none := by
    rw [List.find?_eq_none]
    intro y hy
    simpa only [Bool.not_eq_true', Bool.not_eq_true] using (List.mem_filter.1 hy).2
  unfold Pools.genOf
  by_cases h : g = 0
  · rw [if_pos h, hrest, h]
  · rw [if_neg h, List.find?_cons_of_pos (by simp)]

/-- A commit frees the buffer whose release it takes in, and advances its generation. -/
theorem Pools.commit_frees {x : Pools} {tick : Nat} {discarded : Buffer → Bool} {withdrawn : FrameRef → Bool} {b : Buffer}
    (hb : x.bufs = [b]) (hrel : b.releasing = true) (hown : b.owner ≠ .scrub) (hjob : ∀ j, b.releaser = some j → withdrawn j = false) :
    (x.commit tick discarded withdrawn).bufs = [] ∧
    (x.commit tick discarded withdrawn).genOf b.row b.cls b.index = (x.genOf b.row b.cls b.index + 1) % 256 := by
  have hfrees : (b.releasing && !b.releaser.any withdrawn) = true := by
    rw [hrel, Bool.true_and, Bool.not_eq_true', ← Bool.not_eq_true, Option.any_eq_true]
    rintro ⟨j, hj, hw⟩
    exact absurd hw (by simp [hjob j hj])
  have hscrub : (b.owner != .scrub) = true := by simpa using hown
  have hcommit : x.commit tick discarded withdrawn = Pools.bumpGen { x with bufs := [] } b.row b.cls b.index := by
    unfold Pools.commit
    simp only [hb, List.filter_cons, hfrees, hscrub]
    rfl
  rw [hcommit]
  exact ⟨rfl, Pools.bumpGen_genOf _ _ _ _⟩

/-- Settles O39: an allocation takes the first place of R416's order; a release is one mark, or one event and one fault; the commit frees
what is marked. -/
theorem buffersAreAllocatedAndReleased : Obligations.BuffersAreAllocatedAndReleased := by
  unfold Obligations.BuffersAreAllocatedAndReleased
  refine ⟨fun i s hd => ⟨fun hbig => exec_bufferAllocate_noClass hd (classFor_none hbig), fun c hc => ?_⟩,
    fun i s hd => ⟨fun b hcheck hb => ?_, fun code hcheck hcode => ?_⟩,
    fun x tick discarded withdrawn b hb hrel hown hjob => Pools.commit_frees hb hrel hown hjob⟩
  · refine ⟨(classFor_spec hc).1, (classFor_spec hc).2, fun hno => ?_, fun hallowed hfree => exec_bufferAllocate_takes hd hc hallowed hfree⟩
    rw [exec_bufferAllocate hd hc]
    rcases hno with hno | hno
    · rw [if_neg (by simp [hno])]
    · rw [State.allocPlace_none hno]
      split <;> rfl
  · refine ⟨_, exec_bufferRelease_marks hd hcheck hb, ?_⟩
    obtain ⟨hkeys, hmarked, hkept⟩ := updWhere_key (b := b) (g := fun x => { x with releasing := true, releaser := i.job })
      (fun _ => rfl) s.pools.bufs
    refine ⟨hkeys, fun x hx hkey => ?_, hkept⟩
    obtain ⟨y, -, rfl⟩ := hmarked x hx hkey
    exact ⟨rfl, rfl⟩
  · obtain ⟨rest, hexec⟩ := exec_bufferRelease_rejected hd (hcheck ▸ hcode)
    obtain ⟨e, hheld, hecode, hetick, hdetail⟩ := State.raiseNode_detail s.coming pfFn 0x0303 (9 * i.row.val + 7) (s.releaseCheck i) rest
    rw [hcheck] at hdetail
    exact ⟨_, hexec, rfl, rfl, rfl, rfl, ⟨[e], hheld, e, List.mem_singleton_self e, hecode, hetick, hdetail⟩, _, rfl⟩

/-! ### The leak audit and reclaim (R431, R432) -/

theorem State.bufByHandle_mem {s : State} {p handle : Nat} {b : Buffer} (h : s.bufByHandle p handle = some b) : b ∈ s.pools.bufs :=
  List.mem_of_find?_eq_some h

section
variable {i : PoolBufIn} {s : State} {b : Buffer} (hb : s.bufByHandle i.partition i.handle.toNat = some b)
include hb

theorem exec_poolLeakSuspect_idle (h : b.unreferenced < 5 ∨ b.suspect = true) : exec (.poolLeakSuspect i) s = .next s := by
  change execPoolLeakSuspect i s = _
  simp only [execPoolLeakSuspect, hb]
  rw [if_neg]
  rcases h with h | h
  · simp [Nat.not_le.2 h]
  · simp [h]

theorem exec_poolLeakSuspect (hr : s.isReady = true) (ho : isStreamOwner b.owner = true) (h5 : 5 ≤ b.unreferenced)
    (hs : b.suspect = false) : ∃ d : State → List Byte, exec (.poolLeakSuspect i) s = .next (State.atNext
      { s with pools := { s.pools with
        bufs := updWhere (fun x => x.row == b.row && x.cls == b.cls && x.index == b.index) (fun x => { x with suspect := true })
          s.pools.bufs } }
      (fun s => s.raiseFull pfFn 0x0301 (severityOf 0x0301) 0xFFFF 0xFFFF (9 * b.row.val + 7) (d s))) := by
  have hexec : exec (.poolLeakSuspect i) s = execPoolLeakSuspect i s := rfl
  rw [hexec]
  simp only [execPoolLeakSuspect, hb]
  rw [if_pos (by simp [hr, ho, h5, hs])]
  exact ⟨_, rfl⟩

end

theorem exec_poolForcedReclaim {i : ReclaimIn} {s : State} {c : ClosedOwner} (hd : s.dead = false) (hc : s.pools.closed = [c])
    (hp : c.partition = i.partition) (ho : c.owner = i.owner) : exec (.poolForcedReclaim i) s =
    .next (if s.clk.tick + 1 < c.commit + 5 then s else s.atNext (fun s => s.reclaim c)) := by
  change execPoolForcedReclaim i s = _
  simp only [execPoolForcedReclaim, hc]
  rw [List.find?_cons_of_pos (by simp [hp, ho])]
  simp only [hd, Bool.false_or, decide_eq_true_eq]

end Sys2Proof.Machine
end


section
/-! The leak audit, forced reclaim and zeroing (O40). -/

namespace Sys2Proof.Machine

/-! ### Zeroing (R192, R432) -/

theorem bitOf_eight (v : Nat) : bitOf v 8 = decide (v / 256 % 2 = 1) := Nat.testBit_eq_decide_div_mod_eq

theorem State.rowChannels_nodup (s : State) (row : Row) : (s.rowChannels row).Nodup := (List.nodup_finRange 16).filter _

section
variable {s : State} {row : Row} {off : Nat} {k : Channel} {a : Nat} (hmap : s.mapOffset row off = some (k, a))
include hmap

theorem State.mem_rowChannels_of_mapOffset : k ∈ s.rowChannels row := by
  unfold State.mapOffset at hmap
  split at hmap
  · simp at hmap
  · next hc =>
    simp only [Option.some.injEq, Prod.mk.injEq] at hmap
    simp [hc, hmap.1]
  · next c0 c1 _ hc =>
    simp only [Option.some.injEq, Prod.mk.injEq] at hmap
    obtain ⟨rfl, -⟩ := hmap
    rw [hc]
    split <;> simp

/-- A row offset lies in a range exactly when its channel address does (R441, R443). -/
theorem State.withinRow_of_mapOffset (lo n : Nat) : s.withinRow row lo n k a = (decide (lo ≤ off) && decide (off < lo + n)) := by
  have hnodup := s.rowChannels_nodup row
  unfold State.mapOffset at hmap
  unfold State.withinRow
  split at hmap
  · simp at hmap
  · next hc =>
    simp only [Option.some.injEq, Prod.mk.injEq] at hmap
    simp [hmap.1, hmap.2]
  · next c0 c1 _ hc =>
    rw [hc] at hnodup
    have hne : c0 ≠ c1 := by
      rintro rfl
      simp at hnodup
    simp only [Option.some.injEq, Prod.mk.injEq] at hmap
    obtain ⟨rfl, rfl⟩ := hmap
    have hback : (off / 512 * 256 + off % 256) / 256 * 512 + (off / 512 * 256 + off % 256) % 256 = off - off / 256 % 2 * 256 := by
      omega
    dsimp only
    rw [bitOf_eight]
    by_cases hbit : off / 256 % 2 = 1
    · have hoff : off - 256 + 256 = off := by omega
      simp only [hback, hbit, decide_true, if_true, beq_self_eq_true, Bool.or_true, Bool.true_and, Nat.one_mul, hoff]
    · have hoff : off / 256 % 2 = 0 := by omega
      rw [hback, hoff]
      simp [hne]

/-- The granule of a row offset begins at its channel's granule. -/
theorem State.mapOffset_granule : s.mapOffset row (32 * (off / 32)) = some (k, 32 * (a / 32)) := by
  unfold State.mapOffset at hmap ⊢
  split at hmap
  · simp at hmap
  · simp only [Option.some.injEq, Prod.mk.injEq] at hmap ⊢
    exact ⟨hmap.1, by rw [hmap.2]⟩
  · simp only [Option.some.injEq, Prod.mk.injEq] at hmap ⊢
    obtain ⟨rfl, rfl⟩ := hmap
    rw [bitOf_eight, bitOf_eight, show 32 * (off / 32) / 256 = off / 256 by omega]
    exact ⟨rfl, by omega⟩

end

/-- Updating each of a list of channels once. -/
theorem State.foldl_modChannel (g : Channel → ChannelSt → ChannelSt) {cs : List Channel} (hcs : cs.Nodup) (s : State) (c : Channel) :
    (cs.foldl (fun s c => s.modChannel c (g c)) s).channel c = if c ∈ cs then g c (s.channel c) else s.channel c := by
  induction cs generalizing s with
  | nil => rfl
  | cons d cs ih =>
    obtain ⟨hd, hcs⟩ := List.nodup_cons.1 hcs
    rw [List.foldl_cons, ih hcs]
    by_cases hc : c = d
    · subst hc
      simp [hd, State.channel_modChannel]
    · simp [hc, State.channel_modChannel_ne]

theorem State.foldl_modChannel_kept (g : Channel → ChannelSt → ChannelSt) (cs : List Channel) (s : State) :
    (cs.foldl (fun s c => s.modChannel c (g c)) s).dram.mem = s.dram.mem ∧
      (cs.foldl (fun s c => s.modChannel c (g c)) s).dram.sram = s.dram.sram :=
  List.foldlRecOn (motive := fun t : State => t.dram.mem = s.dram.mem ∧ t.dram.sram = s.dram.sram) cs _ ⟨rfl, rfl⟩ fun _ h _ _ => h

theorem keyChannel_dramKey (c : Channel) {a : Nat} (ha : a < 2 ^ 32) : keyChannel (dramKey c a) = c ∧ keyAddr (dramKey c a) = a := by
  unfold keyChannel keyAddr dramKey
  exact ⟨Fin.ext (by simp only; omega), by omega⟩

section
variable (s : State) (row : Row) (lo n : Nat)

/-- A channel with nothing queued for a range of its row. -/
def State.unqueue (c : Channel) (x : ChannelSt) : ChannelSt :=
  { x with wq := x.wq.filter (fun e => !s.withinRow row lo n c (32 * e.granule)) }

/-- Each channel in turn sees the same row, since a row's channels do not depend on what DRAM holds. -/
theorem State.foldl_unqueue (cs : List Channel) (d : Dram) :
    cs.foldl (fun u c => u.modChannel c (u.unqueue row lo n c)) { s with dram := d } =
      cs.foldl (fun u c => u.modChannel c (s.unqueue row lo n c)) { s with dram := d } := by
  induction cs generalizing d with
  | nil => rfl
  | cons c cs ih => exact ih _

theorem State.zeroRow_eq : s.zeroRow row lo n = (s.rowChannels row).foldl (fun u c => u.modChannel c (s.unqueue row lo n c))
    { s with dram := { s.dram with
      mem := s.dram.mem.filter (fun b => !s.withinRow row lo n (keyChannel b.1) (keyAddr b.1))
      poison := s.dram.poison.filter (fun k => !s.withinRow row lo n (keyChannel k) (keyAddr k)) } } :=
  State.foldl_unqueue s row lo n _ _

theorem State.zeroRow_mem : (s.zeroRow row lo n).dram.mem =
    s.dram.mem.filter (fun b => !s.withinRow row lo n (keyChannel b.1) (keyAddr b.1)) := by
  rw [State.zeroRow_eq, (State.foldl_modChannel_kept _ _ _).1]

theorem State.zeroRow_sram : (s.zeroRow row lo n).dram.sram = s.dram.sram := by
  rw [State.zeroRow_eq, (State.foldl_modChannel_kept _ _ _).2]

theorem State.channel_zeroRow (c : Channel) : (s.zeroRow row lo n).channel c =
    if c ∈ s.rowChannels row then s.unqueue row lo n c (s.channel c) else s.channel c := by
  rw [State.zeroRow_eq, State.foldl_modChannel _ (s.rowChannels_nodup row)]
  rfl

end

/-- A zeroed range reads 0 where it begins and ends at granules. -/
theorem State.dramByte_zeroRow {s : State} {row : Row} {lo n off a : Nat} {k : Channel} (hmap : s.mapOffset row off = some (k, a))
    (hsize : off < s.rowSize row) (hlo : lo ≤ off) (hhi : off < lo + n) (h32 : 32 ∣ lo) : (s.zeroRow row lo n).dramByte k a = 0 := by
  have ha : a < 2 ^ 32 := by
    have := State.mapOffset_bound (n := 1) hmap hsize (by omega)
    omega
  have hin : s.withinRow row lo n k a = true := by
    rw [State.withinRow_of_mapOffset hmap]
    simp [hlo, hhi]
  have hgranule : s.withinRow row lo n k (32 * (a / 32)) = true := by
    rw [State.withinRow_of_mapOffset (State.mapOffset_granule hmap)]
    have h1 : lo ≤ 32 * (off / 32) := by omega
    have h2 : 32 * (off / 32) < lo + n := by omega
    simp [h1, h2]
  unfold State.dramByte
  rw [State.zeroRow_mem, State.channel_zeroRow, if_pos (State.mem_rowChannels_of_mapOffset hmap)]
  have hfind : wqFind (s.unqueue row lo n k (s.channel k)).wq (a / 32) = none := by
    refine List.find?_eq_none.2 fun e he => ?_
    have := (List.mem_filter.1 he).2
    simp only [beq_iff_eq]
    rintro h
    rw [h, hgranule] at this
    simp at this
  have hmem : Memory.get (s.dram.mem.filter (fun b => !s.withinRow row lo n (keyChannel b.1) (keyAddr b.1))) (dramKey k a) = 0 := by
    rw [Memory.get_filter (fun x => !s.withinRow row lo n (keyChannel x) (keyAddr x)), (keyChannel_dramKey k ha).1,
      (keyChannel_dramKey k ha).2, hin]
    rfl
  unfold readByte
  rw [hfind]
  exact hmem

theorem dvd_bufferBytes (cls : Nat) : 32 ∣ bufferBytes cls := by
  by_cases h : cls < 6
  · revert cls
    decide
  · have : bufferBytes cls = 0 := by
      unfold bufferBytes nth
      rw [List.getD_eq_getElem?_getD, List.getElem?_eq_none (by simpa using h), Option.getD_none]
    simp [this]

theorem dvd_foldl_add {d : Nat} {xs : List Nat} (hxs : ∀ x ∈ xs, d ∣ x) : ∀ {a : Nat}, d ∣ a → d ∣ xs.foldl (· + ·) a := by
  induction xs with
  | nil => exact id
  | cons x xs ih =>
    intro a ha
    exact ih (fun y hy => hxs y (List.mem_cons_of_mem _ hy)) (Nat.dvd_add ha (hxs x List.mem_cons_self))

theorem dvd_poolBase (cls : Nat) : 32 ∣ poolBase cls := by
  unfold poolBase sumOf
  refine dvd_foldl_add (fun x hx => ?_) (Nat.dvd_zero _)
  obtain ⟨c, -, rfl⟩ := List.mem_map.1 hx
  exact Nat.dvd_mul_left_of_dvd (dvd_bufferBytes c) _

/-- ZEROING_COMPLETE of a buffer of the scrub owner. -/
theorem exec_zeroingComplete {i : PoolBufIn} {s : State} {b : Buffer} (hd : s.dead = false)
    (hb : s.bufByHandle i.partition i.handle.toNat = some b) (hown : b.owner = .scrub) : exec (.zeroingComplete i) s =
    .next { s.zeroBuffer b with pools := { s.pools with
      bufs := updWhere (fun x => x.row == b.row && x.cls == b.cls && x.index == b.index) (fun x => { x with releasing := true })
        s.pools.bufs } } := by
  obtain ⟨d, hz⟩ := s.zeroBuffer_eq b
  change execZeroingComplete i s = _
  simp only [execZeroingComplete, hb]
  rw [if_pos (by simp [hd, hown]), hz]

/-! ### Reclaim (R432) -/

/-- What a reclaim makes of a buffer. -/
def reclaimed (s : State) (c : ClosedOwner) (b : Buffer) : Buffer :=
  if b.heldBy s.work.startMask c.partition c.owner c.session && !b.releasing then { b with owner := .scrub, session := none } else b

/-- A reclaim hands buffers to the scrub owner, and tells of it when there are any. -/
theorem State.reclaim_spec (s : State) (c : ClosedOwner) :
    OnlyRaises { s with pools := { s.pools with bufs := s.pools.bufs.map (reclaimed s c), closed := s.pools.closed.erase c } }
      (s.reclaim c) ∧
    ((∃ b ∈ s.pools.bufs, b.heldBy s.work.startMask c.partition c.owner c.session = true ∧ b.releasing = false) →
      Raised s (s.reclaim c) pfFn 0x0302 s.clk.tick) := by
  unfold State.reclaim
  dsimp only
  split
  next hempty =>
    refine ⟨.refl _, fun ⟨b, hb, hheld, hrel⟩ => ?_⟩
    rw [List.isEmpty_iff, List.filter_eq_nil_iff] at hempty
    exact absurd (by simp [hheld, hrel]) (hempty b hb)
  next => exact ⟨State.raiseFull_onlyRaises _ _ _ _ _ _ _ _, fun _ => State.raiseFull_raised _ _ _ _ _ _ _ _⟩

/-- Settles O40: a suspect is one mark and one event, a reclaim changes owners alone, and zeroing leaves no byte in DRAM or in a write
queue. -/
theorem poolsAuditAndReclaim : Obligations.PoolsAuditAndReclaim := by
  unfold Obligations.PoolsAuditAndReclaim
  refine ⟨fun i s b hb hr ho => ⟨exec_poolLeakSuspect_idle hb, fun h5 hs => ?_⟩, fun i s c hd hc hp ho => ⟨fun hearly => ?_, fun hdue => ?_⟩,
    fun i s b hd hb hown => ?_⟩
  · obtain ⟨d, hexec⟩ := exec_poolLeakSuspect hb hr ho h5 hs
    refine ⟨_, hexec, ?_⟩
    obtain ⟨honly, hraised⟩ := State.atNext_raiseFull { s with pools := { s.pools with
        bufs := updWhere (fun x => x.row == b.row && x.cls == b.cls && x.index == b.index) (fun x => { x with suspect := true })
          s.pools.bufs } } pfFn 0x0301 (severityOf 0x0301) 0xFFFF 0xFFFF (9 * b.row.val + 7) d
    obtain ⟨-, hmarked, -⟩ := updWhere_key (b := b) (g := fun x => { x with suspect := true }) (fun _ => rfl) s.pools.bufs
    obtain ⟨hclk, hwork, -, hdram, -⟩ := honly.leaves
    rw [honly.pools_eq]
    refine ⟨fun x hx hkey => ?_, ?_, hraised, hclk, hwork, hdram⟩
    · obtain ⟨y, -, rfl⟩ := hmarked x hx hkey
      rfl
    · simp only [updWhere, List.map_map]
      exact List.map_congr_left fun x _ => by
        simp only [Function.comp_apply]
        split <;> rfl
  · rw [exec_poolForcedReclaim hd hc hp ho, if_pos hearly]
  · rw [exec_poolForcedReclaim hd hc hp ho, if_neg (by omega)]
    refine ⟨_, rfl, ?_⟩
    obtain ⟨honly, hraised⟩ := s.coming.reclaim_spec c
    have hback : OnlyRaises { s with pools := { s.pools with
        bufs := s.pools.bufs.map (reclaimed s c), closed := s.pools.closed.erase c } } (s.atNext (fun s => s.reclaim c)) :=
      OnlyRaises.backTo honly
    obtain ⟨hclk, hwork, -, hdram, -⟩ := hback.leaves
    rw [hback.pools_eq]
    refine ⟨by rw [hc]; exact List.erase_cons_head .., ?_, fun k b b' hb hb' => ?_, hraised, hclk, hwork, hdram⟩
    · simp only [List.map_map]
      exact List.map_congr_left fun x _ => by
        simp only [Function.comp_apply, reclaimed]
        split <;> rfl
    · rw [List.getElem?_map, hb] at hb'
      exact (Option.some.inj hb').symm
  · refine ⟨_, exec_zeroingComplete hd hb hown, fun x hx hkey => ?_, fun k a off hmap hsize hlo hhi => ?_, ?_⟩
    · obtain ⟨-, hmarked, -⟩ := updWhere_key (b := b) (g := fun x => { x with releasing := true }) (fun _ => rfl) s.pools.bufs
      obtain ⟨y, -, rfl⟩ := hmarked x hx hkey
      rfl
    · have hz := State.dramByte_zeroRow hmap hsize hlo (n := bufferBytes b.cls) (by rw [Nat.add_mul, Nat.one_mul] at hhi; omega)
        (Nat.dvd_add (dvd_poolBase _) (Nat.dvd_mul_left_of_dvd (dvd_bufferBytes _) _))
      exact hz
    · obtain ⟨d, hz⟩ := s.zeroBuffer_eq b
      exact ⟨by rw [hz], by rw [hz], by rw [hz], State.zeroRow_sram _ _ _ _⟩

end Sys2Proof.Machine
end


section
/-! Requests to the memory nodes (O41). -/

namespace Sys2Proof.Machine

section
variable {i : DramReqIn} {s : State}

theorem exec_dramRequest (hd : s.dead = false) : exec (.dramRequest i) s = .next (s.memRequest i) := by
  change Host.Outcome.next (if s.dead then s else s.memRequest i) = _
  rw [hd]
  rfl

/-- R440, R85: a refused request is counted, and its job's unit reports one fault. -/
theorem State.refuseRequest_spec (s : State) (i : DramReqIn) : ∃ n : FaultNote, n.cls = none ∧ s.refuseRequest i = { s with
    dram := { s.dram with refused := s.dram.refused + 1 }, safety := { s.safety with faults := s.safety.faults ++ [n] } } :=
  ⟨_, by cases i.job <;> rfl, rfl⟩

/-- Whether a request may go to a row: port 7 may go to each, another port to those of its partition. -/
theorem mayReach_iff {row : Nat} : (i.port.val == 7 || partOfRow s.work.startMask row == i.partition) = true ↔
    (i.port = 7 ∨ partOfRow s.work.startMask row = i.partition) := by
  rw [Bool.or_eq_true, beq_iff_eq, beq_iff_eq, Fin.ext_iff]
  rfl

/-- The conditions under which a row takes a request (R438, R440, R507). -/
theorem State.memRequest_dram {row off : Nat} (hopen : s.portOpen i = true) (ht : s.devTarget i.address = .dram row off) :
    s.memRequest i = if row = i.row.val ∧ (i.port = 7 ∨ partOfRow s.work.startMask row = i.partition) ∧
        off + reqSize i ≤ s.rowSize i.row ∧ off < s.rowSize i.row then
      if i.write && !s.writeFits i (pieces (reqSize i) off (reqSize i)) then s
      else (pieces (reqSize i) off (reqSize i)).foldl (fun s p => s.requestPiece i off p) s
    else s.refuseRequest i := by
  unfold State.memRequest
  dsimp only
  rw [if_neg (by simp [hopen]), ht]
  dsimp only
  by_cases h : row = i.row.val ∧ (i.port = 7 ∨ partOfRow s.work.startMask row = i.partition) ∧
      off + reqSize i ≤ s.rowSize i.row ∧ off < s.rowSize i.row
  · rw [if_pos h, if_neg]
    obtain ⟨hrow, hpart, hend, hoff⟩ := h
    simp only [← hrow, mayReach_iff.2 hpart, bne_self_eq_false, Bool.not_true, Bool.or_false, Bool.false_or, Bool.or_eq_true, decide_eq_true_eq]
    omega
  · rw [if_neg h, if_pos]
    refine Classical.byContradiction fun hno => ?_
    simp only [Bool.or_eq_true, decide_eq_true_eq, bne_iff_ne, Bool.not_eq_true', not_or, Bool.not_eq_false, ne_eq, Classical.not_not] at hno
    obtain ⟨⟨⟨hrow, hpart⟩, hend⟩, hoff⟩ := hno
    exact h ⟨hrow, mayReach_iff.1 (by simpa using hpart), by omega, by omega⟩

/-- A request that lies within one 256 B block is one piece (R441). -/
theorem pieces_within {off n : Nat} (hpos : 0 < n) (hblock : off % 256 + n ≤ 256) : pieces n off n = [(off, n)] := by
  obtain ⟨k, rfl⟩ : ∃ k, n = k + 1 := ⟨n - 1, by omega⟩
  have hmin : min (k + 1) (256 - off % 256) = k + 1 := by omega
  have hrest : pieces k (off + (k + 1)) 0 = [] := by cases k <;> rfl
  unfold pieces
  dsimp only
  rw [if_neg (by omega), hmin, Nat.sub_self, hrest]

/-- A read within one block is one read of its channel. -/
theorem State.memRequest_read {off a : Nat} {c : Channel} (hopen : s.portOpen i = true) (hw : i.write = false)
    (ht : s.devTarget i.address = .dram i.row.val off) (hpart : i.port = 7 ∨ partOfRow s.work.startMask i.row.val = i.partition)
    (hsize : off + i.bytes ≤ s.rowSize i.row) (hmap : s.mapOffset i.row off = some (c, a)) (hpos : 0 < i.bytes)
    (hblock : off % 256 + i.bytes ≤ 256) : s.memRequest i = s.requestRead i c a i.bytes := by
  have hn : reqSize i = i.bytes := by simp [reqSize, hw]
  rw [State.memRequest_dram hopen ht, hn, if_pos ⟨rfl, hpart, hsize, by omega⟩, pieces_within hpos hblock]
  simp only [hw, Bool.false_and, Bool.false_eq_true, if_false, List.foldl_cons, List.foldl_nil, State.requestPiece, hmap]

end

/-! ### Tile SRAM (R480) -/

theorem nth_of_le {α : Type} (d : α) {xs : List α} {k : Nat} (h : xs.length ≤ k) : nth d xs k = d := by
  rw [nth, List.getD_eq_getElem?_getD, List.getElem?_eq_none h, Option.getD_none]

/-- Enables beyond those given are set. -/
theorem getD_enables {es : List Bool} {n k : Nat} (hk : k < n) : (es ++ List.replicate (n - es.length) true).getD k false = nth true es k := by
  rw [List.getD_eq_getElem?_getD]
  by_cases h : k < es.length
  · rw [List.getElem?_append_left h, nth, List.getD_eq_getElem?_getD, List.getElem?_eq_getElem h, Option.getD_some, Option.getD_some]
  · rw [nth_of_le _ (by omega), List.getElem?_append_right (by omega), List.getElem?_replicate, if_pos (by omega), Option.getD_some]

section
variable {i : DramReqIn} {s : State} {tile addr : Nat} (hopen : s.portOpen i = true) (ht : s.devTarget i.address = .sram tile addr)
include hopen ht

theorem State.memRequest_sram (hpart : i.port = 7 ∨ partOfRow s.work.startMask (tile / 2) = i.partition)
    (havail : s.available .facetTile tile = true) (hend : addr + reqSize i ≤ 2 ^ 23) : s.memRequest i = s.requestSram i tile addr := by
  unfold State.memRequest
  dsimp only
  rw [if_neg (by simp [hopen]), ht]
  dsimp only
  rw [if_pos]
  rw [mayReach_iff.2 hpart, havail]
  simpa using hend

theorem State.memRequest_sram_refused (havail : s.available .facetTile tile = false) : s.memRequest i = s.refuseRequest i := by
  unfold State.memRequest
  dsimp only
  rw [if_neg (by simp [hopen]), ht]
  dsimp only
  rw [havail, if_neg (by simp)]

end

/-- Settles O41: a refusal is one counter and one fault; a read within a block is one piece; SRAM is read and written as a memory. -/
theorem requestsAreRefusedOrServed : Obligations.RequestsAreRefusedOrServed := by
  unfold Obligations.RequestsAreRefusedOrServed
  refine ⟨fun i s hd hbad => ?_, fun i s off c a hd hopen hw ht hpart hsize hmap hpos hblock => ⟨fun hcov => ?_, fun hcov => ?_⟩,
    fun i s tile addr hd hok hopen ht hpart => ⟨fun havail hend => ⟨fun hw => ?_, fun hw => ?_⟩, fun havail => ?_⟩⟩
  · obtain ⟨n, hcls, hn⟩ := s.refuseRequest_spec i
    suffices h : s.memRequest i = s.refuseRequest i from ⟨n, by rw [exec_dramRequest hd, h, hn], hcls⟩
    by_cases hopen : s.portOpen i = true
    · rcases hbad with h | h | ⟨row, off, ht, h⟩
      · simp [h] at hopen
      · unfold State.memRequest
        dsimp only
        rw [if_neg (by simp [hopen]), h]
      · rw [State.memRequest_dram hopen ht, if_neg]
        rintro ⟨hrow, hpart, hend, hoff⟩
        rcases h with h | ⟨h7, hp⟩ | h | h
        · exact h hrow
        · exact hpart.elim h7 hp
        · omega
        · omega
    · unfold State.memRequest
      dsimp only
      rw [if_pos (by simpa using hopen)]
  · rw [exec_dramRequest hd, State.memRequest_read hopen hw ht hpart hsize hmap hpos hblock]
    unfold State.requestRead
    dsimp only
    rw [if_pos hcov]
    exact ⟨_, rfl, rfl, vget_set_self _ _ _⟩
  · rw [exec_dramRequest hd, State.memRequest_read hopen hw ht hpart hsize hmap hpos hblock]
    unfold State.requestRead
    dsimp only
    rw [if_neg (by simp [hcov])]
  · rw [exec_dramRequest hd, State.memRequest_sram hopen ht hpart havail hend]
    unfold State.requestSram
    dsimp only
    rw [hw]
    rfl
  · rw [exec_dramRequest hd, State.memRequest_sram hopen ht hpart havail hend]
    unfold State.requestSram
    dsimp only
    rw [if_pos hw]
    refine ⟨_, rfl, fun k hk => ?_, fun k hk => ?_⟩
    · rw [Memory.get_writeEn hok.2.1, Nat.add_sub_cancel_left, getD_enables hk]
      simp [hk, nth]
    · rw [Memory.get_writeEn hok.2.1, if_neg (by omega)]
  · obtain ⟨n, -, hn⟩ := s.refuseRequest_spec i
    rw [exec_dramRequest hd, State.memRequest_sram_refused hopen ht havail, hn]
    exact ⟨_, n, rfl, rfl, rfl⟩

end Sys2Proof.Machine
end


section
/-! Writes to the memory nodes (O42). -/

namespace Sys2Proof.Machine

/-! ### One granule in the write queue (R451, R452) -/

/-- The byte that a queue's entry gives at a channel address, if any. -/
def queuedByte (wq : List WqEntry) (a : Nat) : Option Byte :=
  (wqFind wq (a / 32)).bind (fun e => if nth false e.enables (a % 32) then some (nth 0 e.data (a % 32)) else none)

theorem readByte_eq (mem : Memory) (wq : List WqEntry) (c : Channel) (a : Nat) :
    readByte mem wq c a = (queuedByte wq a).getD (mem.get (dramKey c a)) := by
  unfold readByte queuedByte
  cases wqFind wq (a / 32) with
  | none => rfl
  | some e =>
    simp only [Option.bind_some]
    split <;> rfl

theorem nth_mergeBytes {os ns : List Byte} {es : List Bool} (hn : os.length ≤ ns.length) (he : os.length ≤ es.length) (k : Nat) :
    nth 0 (mergeBytes os ns es) k = if k < os.length ∧ nth false es k = true then nth 0 ns k else nth 0 os k := by
  induction os generalizing ns es k with
  | nil => simp [mergeBytes, nth]
  | cons o os ih =>
    obtain ⟨n, ns, rfl⟩ := List.exists_cons_of_length_pos (by simp only [List.length_cons] at hn; omega : 0 < ns.length)
    obtain ⟨e, es, rfl⟩ := List.exists_cons_of_length_pos (by simp only [List.length_cons] at he; omega : 0 < es.length)
    cases k with
    | zero => cases e <;> simp [mergeBytes, nth]
    | succ k =>
      have := ih (ns := ns) (es := es) (by simpa using hn) (by simpa using he) k
      simpa [mergeBytes, nth] using this

theorem nth_zipWith_or {xs ys : List Bool} (h : xs.length = ys.length) (k : Nat) :
    nth false (List.zipWith (· || ·) xs ys) k = (nth false xs k || nth false ys k) := by
  induction xs generalizing ys k with
  | nil =>
    obtain rfl := List.eq_nil_of_length_eq_zero h.symm
    rfl
  | cons x xs ih =>
    obtain ⟨y, ys, rfl⟩ := List.exists_cons_of_length_pos (by simp only [List.length_cons] at h; omega : 0 < ys.length)
    cases k with
    | zero => rfl
    | succ k => simpa [nth] using ih (by simpa using h) k

/-- An entry with a granule's write merged into it. -/
def WqEntry.merged (x : WqEntry) (d : List Byte) (e : List Bool) : WqEntry :=
  { x with data := mergeBytes x.data d e, enables := List.zipWith (· || ·) x.enables e }

/-- R451: the granule written has an entry, with the write merged into what it had; every other granule's is as before. -/
theorem wqFind_wqMerge (wq : List WqEntry) (g : Nat) (d : List Byte) (e : List Bool) (g' : Nat) : wqFind (wqMerge wq g d e) g' =
    if g' = g then some (match wqFind wq g with
      | some x => x.merged d e
      | none => { granule := g, data := d, enables := e }) else wqFind wq g' := by
  unfold wqMerge
  split
  next hany =>
    have hmerge : wqFind (updWhere (fun x : WqEntry => x.granule == g) (fun x => x.merged d e) wq) g' =
        (wqFind wq g').map (fun x => if x.granule == g then x.merged d e else x) :=
      find?_updWhere_unseen (r := fun x : WqEntry => x.granule == g') (g := fun x : WqEntry => x.merged d e) (fun _ => rfl) wq
    refine hmerge.trans ?_
    by_cases hg : g' = g
    · subst hg
      rw [if_pos rfl]
      cases hf : wqFind wq g' with
      | none =>
        obtain ⟨x, hx, hgx⟩ := List.any_eq_true.1 hany
        exact absurd hgx (List.find?_eq_none.1 hf x hx)
      | some x =>
        rw [Option.map_some, if_pos (List.find?_some hf :)]
    · rw [if_neg hg]
      cases hf : wqFind wq g' with
      | none => rfl
      | some x =>
        have hx : x.granule = g' := by simpa using List.find?_some hf
        rw [Option.map_some, if_neg (by simp [hx, hg])]
  next hnone =>
    have hfind : wqFind wq g = none := by
      simpa [wqFind] using hnone
    unfold wqFind at hfind ⊢
    rw [List.find?_append]
    by_cases hg : g' = g
    · subst hg
      simp [hfind]
    · simp [hg, Ne.symm hg]

/-- R452: a byte of the granule written that is enabled is the one written, any other byte as before. -/
theorem queuedByte_wqMerge {wq : List WqEntry} (hq : queueOk wq) {g : Nat} {d : List Byte} {e : List Bool} (hd : d.length = 32)
    (he : e.length = 32) (a : Nat) : queuedByte (wqMerge wq g d e) a =
      if a / 32 = g ∧ nth false e (a % 32) = true then some (nth 0 d (a % 32)) else queuedByte wq a := by
  unfold queuedByte
  rw [wqFind_wqMerge]
  by_cases hg : a / 32 = g
  · rw [if_pos hg, ← hg, Option.bind_some]
    cases hf : wqFind wq (a / 32) with
    | none =>
      by_cases hen : nth false e (a % 32) = true <;> simp [hen]
    | some x =>
      obtain ⟨hxd, hxe, -⟩ := hq x (List.mem_of_find?_eq_some hf)
      have hk : a % 32 < 32 := Nat.mod_lt _ (by decide)
      simp only [WqEntry.merged, nth_zipWith_or (hxe.trans he.symm), Option.bind_some,
        nth_mergeBytes (Nat.le_of_eq (hxd.trans hd.symm)) (Nat.le_of_eq (hxd.trans he.symm)), hxd, hk, true_and]
      by_cases hen : nth false e (a % 32) = true <;> simp [hen]
  · rw [if_neg hg, if_neg (fun h => hg h.1)]

/-! ### A run of bytes (R451) -/

/-- The granule-wide bytes of a run that begins `lead` bytes into its granule, and its enables. -/
theorem nth_padded {α : Type} (z : α) {xs : List α} {lead n k : Nat} (hn : n ≤ xs.length) :
    nth z (List.replicate lead z ++ xs.take n ++ List.replicate (32 - lead - n) z) k =
      if lead ≤ k ∧ k < lead + n then nth z xs (k - lead) else z := by
  have htake : (xs.take n).length = n := by simp [hn]
  simp only [nth, List.getD_eq_getElem?_getD, List.getElem?_append, List.length_append, List.length_replicate, htake,
    List.getElem?_replicate, List.getElem?_take]
  by_cases h1 : k < lead
  · rw [if_pos (by omega), if_pos h1, if_pos h1, if_neg (by omega)]
    rfl
  · by_cases h2 : k < lead + n
    · rw [if_pos h2, if_neg h1, if_pos (by omega), if_pos (by omega)]
    · rw [if_neg h2, if_neg (c := lead ≤ k ∧ k < lead + n) (by omega)]
      split <;> rfl

/-- R451: after a write, the bytes it enables are those written, every other byte is as before. -/
theorem queuedByte_wqWrite (fuel : Nat) {wq : List WqEntry} (hq : queueOk wq) {a : Nat} {d : List Byte} {e : List Bool}
    (hfuel : d.length ≤ fuel) (ha : a + d.length ≤ 2 ^ 32) (he : d.length ≤ e.length) (x : Nat) : queuedByte (wqWrite fuel wq a d e) x =
      if a ≤ x ∧ x < a + d.length ∧ nth false e (x - a) = true then some (nth 0 d (x - a)) else queuedByte wq x := by
  induction fuel generalizing wq a d e with
  | zero => rw [wqWrite, if_neg (by omega)]
  | succ fuel ih =>
    unfold wqWrite
    split
    next hnil =>
      obtain rfl := List.isEmpty_iff.1 hnil
      rw [if_neg (by simp only [List.length_nil]; omega)]
    next hne =>
      have hpos : 0 < d.length := List.length_pos_iff.2 (by simpa using hne)
      dsimp only
      generalize hn : min (32 - a % 32) d.length = n
      have hln : a % 32 + n ≤ 32 := by omega
      have hd : (List.replicate (a % 32) (0 : Byte) ++ d.take n ++ List.replicate (32 - a % 32 - n) 0).length = 32 := by
        simp only [List.length_append, List.length_replicate, List.length_take]
        omega
      have hen : (List.replicate (a % 32) false ++ e.take n ++ List.replicate (32 - a % 32 - n) false).length = 32 := by
        simp only [List.length_append, List.length_replicate, List.length_take]
        omega
      have hgran : a / 32 < 2 ^ 27 := by omega
      have hlen : (d.drop n).length = d.length - n := List.length_drop ..
      rw [ih (queueOk_wqMerge hq hgran hd hen) (by omega) (by omega) (by rw [hlen, List.length_drop]; omega), queuedByte_wqMerge hq hd hen,
        nth_padded _ (by omega), nth_padded _ (by omega), hlen]
      have hdrop {α : Type} (z : α) (l : List α) (k : Nat) : nth z (l.drop n) k = nth z l (n + k) := by
        simp only [nth, List.getD_eq_getElem?_getD, List.getElem?_drop]
      rw [hdrop, hdrop]
      have hin : (x / 32 = a / 32 ∧ a % 32 ≤ x % 32 ∧ x % 32 < a % 32 + n) ↔ a ≤ x ∧ x < a + n := by omega
      by_cases hhere : a ≤ x ∧ x < a + n
      · obtain ⟨hg, hk⟩ := hin.2 hhere
        obtain ⟨hlow, hhigh⟩ := hhere
        have hend : x < a + d.length := by omega
        rw [if_neg (by omega), if_pos hk, if_pos hk, show x % 32 - a % 32 = x - a by omega]
        simp only [hg, hlow, hend, true_and]
      · have hout : ¬ (x / 32 = a / 32 ∧ (if a % 32 ≤ x % 32 ∧ x % 32 < a % 32 + n then nth false e (x % 32 - a % 32) else false) = true) := by
          rintro ⟨hg, hen⟩
          split at hen
          next hk => exact hhere (hin.1 ⟨hg, hk⟩)
          next => simp at hen
        have hlater : a + n ≤ x ↔ a ≤ x := by omega
        have hend : x < a + n + (d.length - n) ↔ x < a + d.length := by omega
        rw [if_neg hout]
        by_cases hlow : a ≤ x
        · rw [show n + (x - (a + n)) = x - a by omega]
          simp only [hlater, hend]
        · rw [if_neg (fun h => hlow (hlater.1 h.1)), if_neg (fun h => hlow h.1)]

/-! ### The pieces of a write (R441, R443) -/

/-- Different row offsets have different places in the row's channels. -/
theorem State.mapOffset_inj {s : State} {row : Row} {o o' : Nat} {x : Channel × Nat} (h : s.mapOffset row o = some x)
    (h' : s.mapOffset row o' = some x) : o = o' := by
  have hnodup := s.rowChannels_nodup row
  unfold State.mapOffset at h h'
  split at h
  · simp at h
  · next hc =>
    simp only [hc, Option.some.injEq] at h'
    exact congrArg Prod.snd ((Option.some.inj h).trans h'.symm)
  · next c0 c1 _ hc =>
    simp only [hc, Option.some.injEq] at h'
    rw [hc] at hnodup
    have hne : c0 ≠ c1 := by
      rintro rfl
      simp at hnodup
    have heq := (Option.some.inj h).trans h'.symm
    simp only [Prod.mk.injEq, bitOf_eight] at heq
    have hbit : o / 256 % 2 = o' / 256 % 2 := by
      obtain ⟨hch, -⟩ := heq
      by_cases h1 : o / 256 % 2 = 1 <;> by_cases h2 : o' / 256 % 2 = 1
      · omega
      · simp [h1, h2, hne.symm] at hch
      · simp [h1, h2, hne] at hch
      · omega
    omega

/-- Within a 256 B block channel addresses follow row offsets. -/
theorem State.mapOffset_add {s : State} {row : Row} {o a k : Nat} {c : Channel} (h : s.mapOffset row o = some (c, a))
    (hk : o % 256 + k < 256) : s.mapOffset row (o + k) = some (c, a + k) := by
  unfold State.mapOffset at h ⊢
  split at h
  · simp at h
  · simp only [Option.some.injEq, Prod.mk.injEq] at h ⊢
    exact ⟨h.1, by rw [h.2]⟩
  · simp only [Option.some.injEq, Prod.mk.injEq, bitOf_eight] at h ⊢
    obtain ⟨rfl, rfl⟩ := h
    rw [show (o + k) / 256 = o / 256 by omega]
    exact ⟨rfl, by omega⟩

section
variable {s : State} {i : DramReqIn}

theorem State.dramByte_eq (s : State) (c : Channel) (a : Nat) : s.dramByte c a =
    (queuedByte (s.channel c).wq a).getD (Memory.get s.dram.mem (dramKey c a)) := readByte_eq _ _ _ _

/-- What one piece of a write leaves: the bytes it enables, at its channel, read as written; every other byte as before. -/
theorem State.dramByte_requestWrite (hq : ∀ c, queueOk (s.channel c).wq) {c : Channel} {a : Nat} {d : List Byte} {e : List Bool}
    (ha : a + d.length ≤ 2 ^ 32) (he : d.length ≤ e.length) (c' : Channel) (x : Nat) : (s.requestWrite i c a d e).dramByte c' x =
      if c' = c ∧ a ≤ x ∧ x < a + d.length ∧ nth false e (x - a) = true then nth 0 d (x - a) else s.dramByte c' x := by
  unfold State.requestWrite
  rw [State.dramByte_eq, State.dramByte_eq, State.channel_modPort, State.modPort_mem, State.modChannel_mem]
  by_cases hc : c' = c
  · subst hc
    rw [State.channel_modChannel]
    dsimp only
    rw [queuedByte_wqWrite _ (hq c') (by omega) ha he]
    simp only [true_and]
    split <;> rfl
  · rw [State.channel_modChannel_ne _ _ hc, if_neg (fun h => hc h.1)]

/-- What is written into the run of row offsets `[o, o + n)` of a request that begins at `off`: each of its bytes that the request enables
reads as the request gives it, and every other byte of every channel as before. -/
def WritesRun (s t : State) (i : DramReqIn) (off o n : Nat) : Prop :=
  (∀ k c a, k < n → s.mapOffset i.row (o + k) = some (c, a) →
    t.dramByte c a = if nth true i.enables (o - off + k) then nth 0 i.data (o - off + k) else s.dramByte c a) ∧
  ∀ c a, (∀ k, k < n → s.mapOffset i.row (o + k) ≠ some (c, a)) → t.dramByte c a = s.dramByte c a

/-- The same state but for the channels and the ports of the memory nodes. -/
def SameButQueues (s t : State) : Prop := ∃ chs ps, t = { s with dram := { s.dram with channels := chs, ports := ps } }

theorem SameButQueues.trans {s t u : State} (h : SameButQueues s t) (h' : SameButQueues t u) : SameButQueues s u := by
  obtain ⟨_, _, rfl⟩ := h
  obtain ⟨_, _, rfl⟩ := h'
  exact ⟨_, _, rfl⟩

theorem SameButQueues.mapOffset {s t : State} (h : SameButQueues s t) : t.mapOffset = s.mapOffset := by
  obtain ⟨_, _, rfl⟩ := h
  rfl

theorem SameButQueues.rowSize {s t : State} (h : SameButQueues s t) : t.rowSize = s.rowSize := by
  obtain ⟨_, _, rfl⟩ := h
  rfl

theorem State.mapOffset_none {row : Row} {o : Nat} (h : s.mapOffset row o = none) (o' : Nat) : s.mapOffset row o' = none := by
  unfold State.mapOffset at h ⊢
  split at h
  · rfl
  · simp at h
  · simp at h

theorem State.requestPiece_sameButQueues (hw : i.write = true) (off : Nat) (p : Nat × Nat) : SameButQueues s (s.requestPiece i off p) := by
  unfold State.requestPiece
  split
  · rw [if_pos hw]
    exact ⟨_, _, rfl⟩
  · exact ⟨_, _, rfl⟩

/-- The enables of a piece are those of the request. -/
theorem nth_fitBool {es : List Bool} {k j n : Nat} (hj : j < n) :
    nth false (State.requestPiece.fitBool n ((es.drop k).take n)) j = nth true es (k + j) := by
  unfold State.requestPiece.fitBool
  rw [nth, getD_enables hj]
  simp only [nth, List.getD_eq_getElem?_getD, List.getElem?_take, hj, if_true, List.getElem?_drop]

/-- One piece writes its own run (R441, R451). -/
theorem State.requestPiece_writes (hw : i.write = true) (hq : ∀ c, queueOk (s.channel c).wq) {off : Nat} {p : Nat × Nat}
    (hsize : p.1 + p.2 ≤ s.rowSize i.row) (hblock : p.1 % 256 + p.2 ≤ 256) (hdata : p.1 - off + p.2 ≤ i.data.length) :
    WritesRun s (s.requestPiece i off p) i off p.1 p.2 := by
  obtain ⟨o, n⟩ := p
  dsimp only at hsize hblock hdata ⊢
  unfold State.requestPiece
  split
  next c a hmap =>
    rw [if_pos hw]
    have hlen : ((i.data.drop (o - off)).take n).length = n := by
      rw [List.length_take, List.length_drop]
      omega
    have hbound : a + ((i.data.drop (o - off)).take n).length ≤ 2 ^ 32 := hlen.symm ▸ State.mapOffset_bound hmap hsize hblock
    have hbyte := State.dramByte_requestWrite (i := i) hq (c := c) hbound (Nat.le_trans (Nat.le_of_eq hlen) (length_fitBool n ((i.enables.drop (o - off)).take n)))
    rw [hlen] at hbyte
    refine ⟨fun k c' x hk hx => ?_, fun c' x hno => ?_⟩
    · obtain ⟨rfl, rfl⟩ := Prod.mk.inj (Option.some.inj ((State.mapOffset_add hmap (by omega)).symm.trans hx))
      have hlt : a + k < a + n := by omega
      rw [hbyte, Nat.add_sub_cancel_left, nth_fitBool hk]
      simp only [Nat.le_add_right, hlt, true_and, nth, List.getD_eq_getElem?_getD, List.getElem?_take, hk, if_true, List.getElem?_drop]
    · rw [hbyte, if_neg]
      rintro ⟨rfl, hlo, hhi, -⟩
      refine hno (x - a) (by omega) ?_
      rw [State.mapOffset_add hmap (by omega), show a + (x - a) = x by omega]
  next hnone =>
    refine ⟨fun k c a _ hx => ?_, fun _ _ _ => rfl⟩
    rw [State.mapOffset_none hnone] at hx
    simp at hx

/-- Two runs, one behind the other, are one: neither touches the other's bytes. -/
theorem WritesRun.append {s t u : State} {off o n m : Nat} (h : WritesRun s t i off o n) (h' : WritesRun t u i off (o + n) m)
    (hst : SameButQueues s t) (hoff : off ≤ o) : WritesRun s u i off o (n + m) := by
  obtain ⟨hw, hkeep⟩ := h
  obtain ⟨hw', hkeep'⟩ := h'
  rw [hst.mapOffset] at hw' hkeep'
  refine ⟨fun k c a hk hx => ?_, fun c a hno => ?_⟩
  · by_cases hkn : k < n
    · rw [hkeep' c a fun j hj hj' => by have := State.mapOffset_inj hx hj'; omega]
      exact hw k c a hkn hx
    · rw [hw' (k - n) c a (by omega) (by rw [show o + n + (k - n) = o + k by omega]; exact hx),
        hkeep c a fun j hj hj' => by have := State.mapOffset_inj hx hj'; omega,
        show o + n - off + (k - n) = o - off + k by omega]
  · rw [hkeep' c a fun j hj => by rw [Nat.add_assoc]; exact hno (n + j) (by omega)]
    exact hkeep c a fun j hj => hno j (by omega)

/-- The pieces of a write together write its whole run. -/
theorem State.requestPieces_write (hw : i.write = true) {off : Nat} (fuel : Nat) (hok : s.memoryOk) {o n : Nat}
    (hn : n ≤ fuel) (hoff : off ≤ o) (hsize : o + n ≤ s.rowSize i.row) (hdata : o - off + n ≤ i.data.length) :
    SameButQueues s ((pieces fuel o n).foldl (fun s p => s.requestPiece i off p) s) ∧
      WritesRun s ((pieces fuel o n).foldl (fun s p => s.requestPiece i off p) s) i off o n := by
  induction fuel generalizing s o n with
  | zero =>
    obtain rfl := Nat.le_zero.1 hn
    exact ⟨⟨_, _, rfl⟩, fun k c a hk => absurd hk (by omega), fun _ _ _ => rfl⟩
  | succ fuel ih =>
    unfold pieces
    split
    next h0 =>
      subst h0
      exact ⟨⟨_, _, rfl⟩, fun k c a hk => absurd hk (by omega), fun _ _ _ => rfl⟩
    next hpos =>
      dsimp only
      generalize hk : min n (256 - o % 256) = k
      rw [List.foldl_cons]
      have hsame := State.requestPiece_sameButQueues (s := s) hw off (o, k)
      have hfirst : WritesRun s (s.requestPiece i off (o, k)) i off o k :=
        State.requestPiece_writes hw hok.2.2 (p := (o, k)) (by dsimp only; omega) (by dsimp only; omega) (by dsimp only; omega)
      have hkeep := (s.requestPiece_keeps i off (p := (o, k)) (by dsimp only; omega) (by dsimp only; omega)).memory hok
      obtain ⟨hrest, hrun⟩ := ih hkeep (o := o + k) (n := n - k) (by omega) (by omega) (by rw [hsame.rowSize]; omega) (by omega)
      refine ⟨hsame.trans hrest, ?_⟩
      have := hfirst.append hrun hsame hoff
      rwa [show k + (n - k) = n by omega] at this

end

/-- Settles O42: a write is a run of pieces, each one a run of bytes in one channel's write queue. -/
theorem acceptedWritesAreRead : Obligations.AcceptedWritesAreRead := by
  unfold Obligations.AcceptedWritesAreRead
  intro i s off hd hok hopen hw ht hpart hoff hsize
  have hn : reqSize i = i.data.length := by simp [reqSize, hw]
  have hexec : exec (.dramRequest i) s = .next (if !s.writeFits i (pieces i.data.length off i.data.length) then s
      else (pieces i.data.length off i.data.length).foldl (fun s p => s.requestPiece i off p) s) := by
    rw [exec_dramRequest hd, State.memRequest_dram hopen ht, hn, if_pos ⟨rfl, hpart, hsize, hoff⟩, hw, Bool.true_and]
  refine ⟨fun hfull => ?_, fun hfits => ?_⟩
  · rw [hexec, hfull]
    rfl
  · rw [hexec, if_neg (by simp [hfits])]
    obtain ⟨⟨chs, ps, hsame⟩, hwritten, hkept⟩ := State.requestPieces_write hw (off := off) (o := off) i.data.length hok (Nat.le_refl _)
      (Nat.le_refl _) hsize (by omega)
    refine ⟨_, rfl, ?_, fun k c a hk hx => ?_, hkept⟩
    · rw [hsame]
    · rw [hwritten k c a hk hx, Nat.sub_self, Nat.zero_add]

end Sys2Proof.Machine
end


section
/-! Scheduling decisions of the memory nodes (O43). -/

namespace Sys2Proof.Machine

/-! ### What a drain changes (R447, R452, R454) -/

/-- Keys of channel addresses below 2^32 tell channels and addresses apart. -/
theorem dramKey_inj {c d : Channel} {a b : Nat} (ha : a < 2 ^ 32) (hb : b < 2 ^ 32) (h : dramKey c a = dramKey d b) : c = d ∧ a = b := by
  have hc := (keyChannel_dramKey c ha).1
  have hk := (keyChannel_dramKey c ha).2
  rw [h] at hc hk
  exact ⟨hc.symm.trans (keyChannel_dramKey d hb).1, hk.symm.trans (keyChannel_dramKey d hb).2⟩

/-- The entry a drain takes is the one that a read of its granule finds. -/
theorem wqFind_drainChoice {wq : List WqEntry} {blocked : List (Fin 16)} {e : WqEntry} (h : drainChoice wq blocked = some e) :
    wqFind wq e.granule = some e := by
  unfold drainChoice at h
  obtain ⟨hfree, as, bs, rfl, hbefore⟩ := List.find?_eq_some_iff_append.1 h
  refine List.find?_eq_some_iff_append.2 ⟨by simp, as, bs, rfl, fun x hx => ?_⟩
  have := hbefore x hx
  refine Classical.byContradiction fun hsame => ?_
  have hg : x.granule = e.granule := by simpa using hsame
  rw [hg, hfree] at this
  simp at this

theorem wqFind_filter_ne {wq : List WqEntry} {g g' : Nat} (h : g' ≠ g) :
    wqFind (wq.filter (fun x => x.granule != g)) g' = wqFind wq g' := by
  unfold wqFind
  rw [List.find?_filter]
  congr 1
  funext x
  by_cases hx : x.granule = g'
  · simp [hx, h]
  · simp [hx]

theorem wqFind_filter_self (wq : List WqEntry) (g : Nat) : wqFind (wq.filter (fun x => x.granule != g)) g = none := by
  unfold wqFind
  rw [List.find?_filter, List.find?_eq_none]
  intro x _
  by_cases hx : x.granule = g <;> simp [hx]

section
variable {s : State} {c : Channel} {e : WqEntry}

theorem State.channel_drainEntry : (s.drainEntry c e).channel c =
    { s.channel c with wq := (s.channel c).wq.filter (fun y => y.granule != e.granule) } :=
  s.channel_modChannel c (fun x => { x with wq := x.wq.filter (fun y => y.granule != e.granule) })

theorem State.channel_drainEntry_ne {d : Channel} (h : d ≠ c) : (s.drainEntry c e).channel d = s.channel d :=
  s.channel_modChannel_ne (fun x => { x with wq := x.wq.filter (fun y => y.granule != e.granule) }) h

/-- R454: the entry drained goes to DRAM, which no read can see. -/
theorem State.dramByte_drainEntry (hok : s.memoryOk) (hfind : wqFind (s.channel c).wq e.granule = some e) {d : Channel} {a : Nat}
    (ha : a < 2 ^ 32) : (s.drainEntry c e).dramByte d a = s.dramByte d a := by
  obtain ⟨hmem, -, hq⟩ := hok
  obtain ⟨hdata, hen, hgran⟩ := hq c e (List.mem_of_find?_eq_some hfind)
  have hget := Memory.get_writeEn hmem (dramKey c (32 * e.granule)) e.data e.enables (dramKey d a)
  rw [State.dramByte_eq, State.dramByte_eq, drainEntry_mem, hget, hdata]
  by_cases hhere : d = c ∧ a / 32 = e.granule
  · obtain ⟨rfl, hg⟩ := hhere
    rw [State.channel_drainEntry]
    have hkey : dramKey d a = dramKey d (32 * e.granule) + a % 32 := by
      unfold dramKey
      omega
    have hlt : dramKey d (32 * e.granule) + a % 32 < dramKey d (32 * e.granule) + 32 := by omega
    unfold queuedByte
    rw [hg, wqFind_filter_self, hfind, hkey, Nat.add_sub_cancel_left, Option.bind_some, Option.bind_none, Option.getD_none]
    simp only [Nat.le_add_right, hlt, true_and]
    change (if nth false e.enables (a % 32) = true then nth 0 e.data (a % 32) else _) = _
    cases nth false e.enables (a % 32) <;> rfl
  · rw [if_neg]
    · by_cases hd : d = c
      · subst hd
        rw [State.channel_drainEntry]
        unfold queuedByte
        rw [wqFind_filter_ne fun h => hhere ⟨rfl, h⟩]
      · rw [State.channel_drainEntry_ne hd]
    · rintro ⟨hlo, hhi, -⟩
      refine hhere ?_
      obtain ⟨j, hj⟩ := Nat.exists_eq_add_of_le hlo
      have hkey : dramKey d a = dramKey c (32 * e.granule + j) := by
        rw [hj]
        unfold dramKey
        omega
      obtain ⟨hdc, haj⟩ := dramKey_inj ha (by omega) hkey
      exact ⟨hdc, by omega⟩

end

/-! ### What a grant changes (R444, R447, R452) -/

/-- The granules of a read that DRAM is read for. -/
def dramGranules (wq : List WqEntry) (r : DramReq) : List Nat :=
  (granulesOf r.addr r.bytes).filter (fun g => match wqFind wq g with
    | some e => !(e.enables.all (· == true))
    | none => true)

/-- Those of them that the code finds uncorrectable. -/
def lostGranules (wq : List WqEntry) (c : Channel) (r : DramReq) (d : PageDamage) : List Nat :=
  (dramGranules wq r).filter (fun g => eccFind d c g == .uncorrectable)

/-- The first of them that is, or was before, uncorrectable. -/
def poisonHit (s : State) (c : Channel) (r : DramReq) (d : PageDamage) : Option Nat :=
  (dramGranules (s.channel c).wq r).find?
    (fun g => (lostGranules (s.channel c).wq c r d).contains g || s.dram.poison.contains (dramKey c (32 * g)))

/-- What a granted read is answered with: what the write queue and DRAM hold. -/
def readReply (s : State) (c : Channel) (r : DramReq) (d : PageDamage) : DramReply :=
  { seq := r.seq, port := r.port, poisoned := (poisonHit s c r d).isSome,
    data := readBytes (eccLeaves s.dram.mem d c (dramGranules (s.channel c).wq r)) (s.channel c).wq c r.addr r.bytes }

/-- R85: an uncorrectable granule is one fault of its job. -/
theorem State.eccReport_eq (s : State) (c : Channel) (addr : Nat) (job : Option FrameRef) : ∃ n : FaultNote,
    n.cls = some .eccUncorrectable ∧ s.eccReport c addr job = { s with safety := { s.safety with faults := s.safety.faults ++ [n] } } :=
  ⟨_, rfl, rfl⟩

section
variable (s : State) (c : Channel) (r : DramReq) (d : PageDamage) (slot64 : Nat)

/-- The port of a granted read, charged. -/
def State.chargeRead : State :=
  match State.grantRead.portFin c r.port with
  | some i => s.modPort i (fun p => (p.charge r.raw).lateness slot64 r.deadline)
  | none => s

/-- The read leaves its channel's queue, and what the code corrects in it is counted. -/
def ChannelSt.serve (x : ChannelSt) : ChannelSt :=
  { x with reqs := x.reqs.filter (fun y => y.seq != r.seq),
           corrected := x.corrected + ((dramGranules x.wq r).filter (fun g => eccFind d c g == .correctable)).length }

/-- A granted read, but for its report. -/
def State.answerRead : State :=
  let wq := (s.channel c).wq
  let u := ((s.chargeRead c r slot64).modChannel c (fun x => { x with
    reqs := x.reqs.filter (fun y => y.seq != r.seq),
    corrected := x.corrected + ((dramGranules wq r).filter (fun g => eccFind d c g == .correctable)).length })).chargeBackground c
      (64 * (((dramGranules wq r).filter (fun g => eccFind d c g == .correctable)).length + (lostGranules wq c r d).length))
  { u with dram := { u.dram with
    mem := eccLeaves s.dram.mem d c (dramGranules wq r)
    poison := addPoison u.dram.poison ((lostGranules wq c r d).map (fun g => dramKey c (32 * g)))
    replies := readReply s c r d :: u.dram.replies } }

theorem State.grantRead_report : s.grantRead c r d slot64 = match poisonHit s c r d with
    | some g => (s.answerRead c r d slot64).eccReport c (32 * g) r.job
    | none => s.answerRead c r d slot64 := rfl

theorem State.answerRead_eq : ∃ (ps : Vector PortSt 72) (poison : List Nat), s.answerRead c r d slot64 = { s with
    dram := { s.dram with
      mem := eccLeaves s.dram.mem d c (dramGranules (s.channel c).wq r), poison := poison, ports := ps,
      channels := s.dram.channels.set c.val (ChannelSt.serve c r d (s.channel c)),
      replies := readReply s c r d :: s.dram.replies } } := by
  have hport : ∃ ps, s.chargeRead c r slot64 = { s with dram := { s.dram with ports := ps } } := by
    unfold State.chargeRead
    split <;> exact ⟨_, rfl⟩
  obtain ⟨ps, hps⟩ := hport
  unfold State.answerRead
  rw [hps]
  exact ⟨_, _, rfl⟩

theorem State.grantRead_eq : ∃ (ps : Vector PortSt 72) (poison : List Nat) (safety : Safety), s.grantRead c r d slot64 = { s with
    dram := { s.dram with
      mem := eccLeaves s.dram.mem d c (dramGranules (s.channel c).wq r), poison := poison, ports := ps,
      channels := s.dram.channels.set c.val (ChannelSt.serve c r d (s.channel c)),
      replies := readReply s c r d :: s.dram.replies },
    safety := safety } ∧
    ((poisonHit s c r d).isSome = true → ∃ n : FaultNote, safety = { s.safety with faults := s.safety.faults ++ [n] } ∧
      n.cls = some .eccUncorrectable) ∧ ((poisonHit s c r d).isSome = false → safety = s.safety) := by
  obtain ⟨ps, poison, heq⟩ := s.answerRead_eq c r d slot64
  rw [State.grantRead_report, heq]
  cases poisonHit s c r d with
  | none => exact ⟨ps, poison, _, rfl, fun h => by simp at h, fun _ => rfl⟩
  | some g =>
    refine ⟨ps, poison, _, rfl, fun _ => ?_, fun h => by simp at h⟩
    exact ⟨_, rfl, rfl⟩

end

section
variable {d : PageDamage} (c : Channel)

theorem eccFind_uncorrectable {g : Nat} (h : d.misplaced = true ∨ (damagedIn d g).length = 2) : eccFind d c g = .uncorrectable := by
  unfold eccFind
  split
  · rfl
  next hplace =>
    have htwo := h.resolve_left hplace
    match hxy : damagedIn d g, htwo with
    | [_, _], _ => rfl

theorem eccFind_correctable {g : Nat} (hplace : d.misplaced = false) (h : (damagedIn d g).length = 1) : eccFind d c g = .correctable := by
  obtain ⟨x, hx⟩ := List.length_eq_one_iff.1 h
  unfold eccFind
  rw [if_neg (by simp [hplace]), hx]

theorem eccFind_clean {g : Nat} (hplace : d.misplaced = false) (h : (damagedIn d g).length = 0) : eccFind d c g = .clean := by
  unfold eccFind
  rw [if_neg (by simp [hplace]), List.length_eq_zero_iff.1 h]

/-- R444: with at most two damaged bytes a granule, the code leaves DRAM as it was. -/
theorem eccLeaves_eq (mem : Memory) {gs : List Nat} (h : ∀ g ∈ gs, (damagedIn d g).length ≤ 2) : eccLeaves mem d c gs = mem := by
  have hnone : gs.filter (eccWrong d c) = [] := by
    refine List.filter_eq_nil_iff.2 fun g hg => ?_
    have := h g hg
    simp only [eccWrong, Bool.and_eq_true, decide_eq_true_eq]
    omega
  unfold eccLeaves
  rw [hnone, List.foldl_nil]

end

section
variable {s : State} {c : Channel} {r : DramReq} {d : PageDamage}

/-- A granule that only DRAM holds and the code cannot correct poisons the answer. -/
theorem poisonHit_of_uncorrectable {g : Nat} (hg : g ∈ granulesOf r.addr r.bytes) (hq : wqFind (s.channel c).wq g = none)
    (h : d.misplaced = true ∨ (damagedIn d g).length = 2) : (poisonHit s c r d).isSome = true := by
  have hread : g ∈ dramGranules (s.channel c).wq r := List.mem_filter.2 ⟨hg, by rw [hq]⟩
  have hlost : g ∈ lostGranules (s.channel c).wq c r d := List.mem_filter.2 ⟨hread, by rw [eccFind_uncorrectable c h]; rfl⟩
  exact List.find?_isSome.2 ⟨g, hread, by simp [hlost]⟩

theorem poisonHit_of_sound (hplace : d.misplaced = false) (hd : ∀ g, (damagedIn d g).length ≤ 1) (hp : s.dram.poison = []) :
    poisonHit s c r d = none := by
  have hlost : lostGranules (s.channel c).wq c r d = [] := by
    refine List.filter_eq_nil_iff.2 fun g _ => ?_
    rcases Nat.le_one_iff_eq_zero_or_eq_one.1 (hd g) with h | h
    · rw [eccFind_clean c hplace h]
      decide
    · rw [eccFind_correctable c hplace h]
      decide
  refine List.find?_eq_none.2 fun g _ => ?_
  simp [hlost, hp]

end

/-! ### A decision (R454, R461) -/

/-- A channel that has decided whether it drains. -/
def State.noteDrain (s : State) (c : Channel) : State := s.modChannel c (fun x => { x with draining := (s.channel c).drains })

section
variable {s : State} {c : Channel}

theorem State.channel_noteDrain : (s.noteDrain c).channel c = { s.channel c with draining := (s.channel c).drains } :=
  s.channel_modChannel c _

theorem State.channel_noteDrain_ne {d : Channel} (h : d ≠ c) : (s.noteDrain c).channel d = s.channel d := s.channel_modChannel_ne _ h

theorem State.dramChoice_noteDrain (blocked : List (Fin 16)) : (s.noteDrain c).dramChoice c blocked = s.dramChoice c blocked := by
  unfold State.dramChoice State.dramOrder
  rw [State.channel_noteDrain]
  rfl

theorem State.noteDrain_memoryOk (h : s.memoryOk) : (s.noteDrain c).memoryOk :=
  (s.modChannel_keeps c (g := fun x => { x with draining := (s.channel c).drains }) fun _ h => h).memory h

theorem State.dramByte_noteDrain (d : Channel) (a : Nat) : (s.noteDrain c).dramByte d a = s.dramByte d a := by
  rw [State.dramByte_eq, State.dramByte_eq]
  by_cases hd : d = c
  · subst hd
    rw [State.channel_noteDrain]
    rfl
  · rw [State.channel_noteDrain_ne hd]
    rfl

theorem exec_schedulingDecision {i : SchedIn} (hd : s.dead = false) (ha : s.available .dramChannel i.channel.val = true) :
    exec (.schedulingDecision i) s = .next (match s.dramChoice i.channel i.blocked, drainChoice (s.channel i.channel).wq i.blocked with
      | some r, some e =>
        if (s.channel i.channel).drains && !((s.channel i.channel).wq.length < 56 && (s.portOf i.channel r.port).below r.raw) then
          (s.noteDrain i.channel).drainEntry i.channel e
        else (s.noteDrain i.channel).grantRead i.channel r i.ecc i.slot64.toNat
      | some r, none => (s.noteDrain i.channel).grantRead i.channel r i.ecc i.slot64.toNat
      | none, some e => (s.noteDrain i.channel).drainEntry i.channel e
      | none, none => s.noteDrain i.channel) := by
  have hexec : exec (.schedulingDecision i) s =
      .next (if s.dead || !s.available .dramChannel i.channel.val then s else s.schedule i) := rfl
  rw [hexec, if_neg (by simp [hd, ha])]
  generalize hr : s.dramChoice i.channel i.blocked = read
  generalize he : drainChoice (s.channel i.channel).wq i.blocked = entry
  rw [← State.dramChoice_noteDrain i.blocked] at hr
  unfold State.noteDrain at hr
  unfold State.schedule
  dsimp only
  rw [hr, he]
  cases read <;> cases entry <;> rfl

end

/-- What a decision that grants a read leaves. -/
structure Grants (i : SchedIn) (s t : State) (r : DramReq) : Prop where
  mem : (∀ g, (damagedIn i.ecc g).length ≤ 2) → t.dram.mem = s.dram.mem
  own : ∃ n, t.channel i.channel = { s.channel i.channel with
    draining := (s.channel i.channel).drains
    reqs := (s.channel i.channel).reqs.filter (fun y => y.seq != r.seq)
    corrected := n }
  others : ∀ d, d ≠ i.channel → t.channel d = s.channel d
  rest : ∃ (dram : Dram) (safety : Safety), t = { s with dram := dram, safety := safety } ∧ dram.sram = s.dram.sram
  reply : ∃ y, t.dram.replies = y :: s.dram.replies ∧ y.seq = r.seq ∧ y.port = r.port ∧
    y.data = (List.range r.bytes).map (fun k => t.dramByte i.channel (r.addr + k)) ∧
    y.poisoned = (poisonHit s i.channel r i.ecc).isSome
  poisons : (poisonHit s i.channel r i.ecc).isSome = true →
    ∃ n, t.safety = { s.safety with faults := s.safety.faults ++ [n] } ∧ n.cls = some .eccUncorrectable
  quiet : (poisonHit s i.channel r i.ecc).isSome = false → t.safety = s.safety

theorem grantRead_grants (i : SchedIn) (s : State) (r : DramReq) (slot64 : Nat) :
    Grants i s ((s.noteDrain i.channel).grantRead i.channel r i.ecc slot64) r := by
  generalize hu : s.noteDrain i.channel = u
  have hhit : poisonHit u i.channel r i.ecc = poisonHit s i.channel r i.ecc := by
    rw [← hu]
    unfold poisonHit
    rw [State.channel_noteDrain]
    rfl
  have hown : u.channel i.channel = { s.channel i.channel with draining := (s.channel i.channel).drains } :=
    hu ▸ State.channel_noteDrain
  have hothers : ∀ d, d ≠ i.channel → u.channel d = s.channel d := fun d h => hu ▸ State.channel_noteDrain_ne h
  have hdram : ∃ chs, u = { s with dram := { s.dram with channels := chs } } := ⟨_, hu.symm⟩
  obtain ⟨ps, poison, safety, hsafety, hpoisons, hquiet⟩ := u.grantRead_eq i.channel r i.ecc slot64
  generalize u.grantRead i.channel r i.ecc slot64 = t at hsafety ⊢
  rw [hhit] at hpoisons hquiet
  obtain ⟨chs, hdram⟩ := hdram
  have hch : ∀ d, t.channel d = if d = i.channel then ChannelSt.serve i.channel r i.ecc (u.channel i.channel) else u.channel d := by
    intro d
    rw [hsafety]
    split
    next h =>
      subst h
      exact vget_set_self _ _ _
    next h => exact vget_set_ne _ _ h
  constructor
  case mem =>
    intro h
    rw [hsafety, hdram]
    exact eccLeaves_eq _ _ fun g _ => h g
  case own =>
    rw [hch, if_pos rfl, hown]
    exact ⟨_, rfl⟩
  case others =>
    intro d hd
    rw [hch, if_neg hd, hothers d hd]
  case rest =>
    rw [hsafety, hdram]
    exact ⟨_, _, rfl, rfl⟩
  case reply =>
    refine ⟨readReply u i.channel r i.ecc, by rw [hsafety, hdram], rfl, rfl, ?_, congrArg Option.isSome hhit⟩
    have hwq : (t.channel i.channel).wq = (u.channel i.channel).wq := by
      rw [hch, if_pos rfl]
      rfl
    have hm : t.dram.mem = eccLeaves u.dram.mem i.ecc i.channel (dramGranules (u.channel i.channel).wq r) := by rw [hsafety]
    simp only [State.dramByte, hwq, hm]
    rfl
  case poisons =>
    intro h
    obtain ⟨n, hn, hcls⟩ := hpoisons h
    exact ⟨n, by rw [hsafety, hn, hdram], hcls⟩
  case quiet =>
    intro h
    rw [hsafety, hquiet h, hdram]

/-- Settles O43: a grant leaves the write queue and DRAM as they are and answers from both; a drain moves one entry from the one to the
other. -/
theorem decisionsGrantOrDrain : Obligations.DecisionsGrantOrDrain := by
  unfold Obligations.DecisionsGrantOrDrain
  intro i s hd ha c x drains granted drained
  have hgranted (r : DramReq) (h : exec (.schedulingDecision i) s = .next ((s.noteDrain c).grantRead c r i.ecc i.slot64.toNat)) :
      granted r := by
    obtain ⟨hmem, ⟨n, hown⟩, hothers, ⟨dram, safety, hrest, hsram⟩, ⟨y, hy, hseq, hport, hdata, hpois⟩, hpoisons, hquiet⟩ :=
      grantRead_grants i s r i.slot64.toNat
    refine ⟨_, h, hmem, ?_, ?_, ?_, ?_, hothers, ?_, ?_, ?_, ?_, y, hy, hseq, hport, hdata, fun g hg hq hbad => ?_, fun hplace hd hp => ?_,
      fun hp => hpoisons (hpois ▸ hp), fun hp => hquiet (hpois ▸ hp)⟩
    · rw [hrest]
      exact hsram
    · rw [hown]
    · rw [hown]
      rfl
    · rw [hown]
    · rw [hrest]
    · rw [hrest]
    · rw [hrest]
    · rw [hrest]
    · rw [hpois]
      exact poisonHit_of_uncorrectable hg hq hbad
    · rw [hpois, poisonHit_of_sound hplace hd hp]
      rfl
  have hdrained (e : WqEntry) (he : drainChoice x.wq i.blocked = some e)
      (h : exec (.schedulingDecision i) s = .next ((s.noteDrain c).drainEntry c e)) : drained e := by
    have hown : ((s.noteDrain c).drainEntry c e).channel c = { s.channel c with
        draining := (s.channel c).drains, wq := (s.channel c).wq.filter (fun y => y.granule != e.granule) } := by
      rw [State.channel_drainEntry, State.channel_noteDrain]
    refine ⟨_, h, ?_, ?_, ?_, fun hok d a hlt => ?_, rfl⟩
    · rw [hown]
    · rw [hown]
    · rw [hown]
      rfl
    · rw [State.dramByte_drainEntry (State.noteDrain_memoryOk hok) ?_ hlt, State.dramByte_noteDrain]
      rw [State.channel_noteDrain]
      exact wqFind_drainChoice he
  have hexec := exec_schedulingDecision hd ha
  refine ⟨fun r hr he => ?_, fun r e hr he => ⟨fun hno => ?_, fun hdr hlen hbelow => ?_, fun hdr hfull => ?_⟩, fun e hr he => ?_, fun hr he => ?_⟩
  · rw [hr, he] at hexec
    exact hgranted r hexec
  · rw [hr, he] at hexec
    dsimp only at hexec
    rw [if_neg] at hexec
    · exact hgranted r hexec
    · change ¬ ((drains && _) = true)
      simp [hno]
  · rw [hr, he] at hexec
    dsimp only at hexec
    rw [if_neg] at hexec
    · exact hgranted r hexec
    · have hb : (s.portOf i.channel r.port).below r.raw = true := decide_eq_true hbelow
      simp [hb, show (s.channel i.channel).wq.length < 56 from hlen]
  · rw [hr, he] at hexec
    dsimp only at hexec
    rw [if_pos] at hexec
    · exact hdrained e he hexec
    · have hdr' : (s.channel i.channel).drains = true := hdr
      rw [hdr', Bool.true_and, Bool.not_eq_true', Bool.and_eq_false_iff, decide_eq_false_iff_not]
      exact hfull.imp Nat.not_lt.2 fun h => decide_eq_false (Nat.not_le.2 h)
  · rw [hr, he] at hexec
    exact hdrained e he hexec
  · rw [hr, he] at hexec
    exact hexec

end Sys2Proof.Machine
end


section
/-! The memory nodes' own work (O44). -/

namespace Sys2Proof.Machine

/-! ### Regulators (R459) -/

theorem portIndex_inj {r r' : Row} {p p' : Fin 9} (h : portIndex r p = portIndex r' p') : r = r' ∧ p = p' := by
  have := congrArg Fin.val h
  unfold portIndex at this
  simp only at this
  exact ⟨Fin.ext (by omega), Fin.ext (by omega)⟩

theorem State.foldl_modPort (g : PortSt → PortSt) (row : Row) {ps : List (Fin 9)} (hps : ps.Nodup) (s : State) :
    ∃ v, ps.foldl (fun s p => s.modPort (portIndex row p) g) s = { s with dram := { s.dram with ports := v } } ∧
      (∀ p, v.get (portIndex row p) = if p ∈ ps then g (s.dram.ports.get (portIndex row p)) else s.dram.ports.get (portIndex row p)) ∧
      ∀ r p, r ≠ row → v.get (portIndex r p) = s.dram.ports.get (portIndex r p) := by
  induction ps generalizing s with
  | nil => exact ⟨_, rfl, fun _ => rfl, fun _ _ _ => rfl⟩
  | cons q ps ih =>
    obtain ⟨hq, hps⟩ := List.nodup_cons.1 hps
    obtain ⟨v, hv, hrow, hother⟩ := ih hps (s.modPort (portIndex row q) g)
    refine ⟨v, hv, fun p => ?_, fun r p hr => ?_⟩
    · rw [hrow]
      by_cases hp : p = q
      · subst hp
        rw [if_neg hq, if_pos (List.mem_cons_self ..)]
        exact vget_set_self _ _ _
      · have hne : portIndex row p ≠ portIndex row q := fun h => hp (portIndex_inj h).2
        have hsame : (s.modPort (portIndex row q) g).dram.ports.get (portIndex row p) = s.dram.ports.get (portIndex row p) :=
          vget_set_ne _ _ hne
        simp [hsame, hp]
    · rw [hother r p hr]
      exact vget_set_ne _ _ fun h => hr (portIndex_inj h).1

/-! ### Refresh and temperature (R448-R450) -/

theorem otherChannel_ne (c : Channel) : otherChannel c ≠ c := by
  revert c
  decide

/-- R449: at 85 C and less the interval depends on how long the channel has been cool. -/
theorem ChannelSt.readTemp_wanted {x : ChannelSt} {t : Int} (h : t ≤ 85) : (x.readTemp t).wanted =
    if 96 ≤ (x.readTemp t).coolReads then 3900 else if x.wanted = 975 then 1950 else x.wanted := by
  have h105 : ¬ 105 < t := by omega
  have h85 : ¬ 85 < t := by omega
  simp only [ChannelSt.readTemp, h105, h85, if_false, beq_iff_eq]

theorem ChannelSt.readTemp_cool {x : ChannelSt} {t : Int} (h : t ≤ 80) : (x.readTemp t).coolReads = x.coolReads + 1 := if_pos h

theorem ChannelSt.readTemp_warm {x : ChannelSt} {t : Int} (h : 80 < t) : (x.readTemp t).coolReads = 0 := if_neg (by omega)

/-- The interval in force on a node once one of its channels asks for `wanted`. -/
def State.nodeInterval (s : State) (c : Channel) (wanted : Nat) : Nat :=
  if s.available .dramChannel (otherChannel c).val then min wanted (s.channel (otherChannel c)).wanted else wanted

/-- What a temperature read leaves, but for the event. -/
def State.takeTemp (s : State) (c : Channel) (t : Int) : State :=
  ((s.modChannel c (fun x => x.readTemp t)).setRefresh c).chargeBackground c (stallBytes 20)

section
variable (s : State) (c : Channel) (t : Int)

theorem State.channel_takeTemp : (s.takeTemp c t).channel c =
    { (s.channel c).readTemp t with interval := s.nodeInterval c ((s.channel c).readTemp t).wanted } := by
  unfold State.takeTemp State.setRefresh State.chargeBackground
  dsimp only
  rw [State.channel_modPort, State.channel_modChannel_ne _ _ (otherChannel_ne c).symm, State.channel_modChannel, State.channel_modChannel,
    State.channel_modChannel_ne _ _ (otherChannel_ne c)]
  rfl

theorem State.channel_takeTemp_other : (s.takeTemp c t).channel (otherChannel c) =
    { s.channel (otherChannel c) with interval := s.nodeInterval c ((s.channel c).readTemp t).wanted } := by
  unfold State.takeTemp State.setRefresh State.chargeBackground
  dsimp only
  rw [State.channel_modPort, State.channel_modChannel, State.channel_modChannel_ne _ _ (otherChannel_ne c), State.channel_modChannel,
    State.channel_modChannel_ne _ _ (otherChannel_ne c)]
  rfl

theorem State.takeTemp_sameButQueues : SameButQueues s (s.takeTemp c t) := ⟨_, _, rfl⟩

end

theorem exec_temperatureRead {s : State} {c : Channel} {t : Int} (hd : s.dead = false) (ha : s.available .dramChannel c.val = true) :
    exec (.temperatureRead ⟨c, t⟩) s = .next (if 105 < t && (s.channel c).wanted != 975 then
      (s.takeTemp c t).atNext (fun s => s.raiseNode pfFn 0x0305 (nodeOfUnit ⟨.dramChannel, c.val⟩) (le 1 c.val ++ leS 1 t))
    else s.takeTemp c t) := by
  have hexec : exec (.temperatureRead ⟨c, t⟩) s = execTemperatureRead ⟨c, t⟩ s := rfl
  rw [hexec]
  unfold execTemperatureRead
  rw [if_neg (by simp [hd, ha])]
  rfl

/-- A temperature read sets the channel's and its node's interval, and tells when it first passes 105 C. -/
theorem exec_temperatureRead_spec {s : State} {c : Channel} {t : Int} (hd : s.dead = false) (ha : s.available .dramChannel c.val = true) :
    ∃ u, exec (.temperatureRead ⟨c, t⟩) s = .next u ∧ OnlyRaises (s.takeTemp c t) u ∧
      (105 < t → (s.channel c).wanted ≠ 975 → Raised s u pfFn 0x0305 (s.clk.tick + 1)) ∧ (t ≤ 105 → u = s.takeTemp c t) := by
  rw [exec_temperatureRead hd ha]
  split
  next h =>
    simp only [Bool.and_eq_true, decide_eq_true_eq] at h
    obtain ⟨honly, hraised⟩ := State.atNext_raiseFull (s.takeTemp c t) pfFn 0x0305 (severityOf 0x0305) 0xFFFF 0xFFFF
      (nodeOfUnit ⟨.dramChannel, c.val⟩) (fun _ => le 1 c.val ++ leS 1 t)
    exact ⟨_, rfl, honly, fun _ _ => hraised, fun hle => absurd h.1 (by omega)⟩
  next h => exact ⟨_, rfl, .refl _, fun h1 h2 => absurd (by simp [h1, h2]) h, fun _ => rfl⟩

/-! ### ZQ calibration (R466) -/

section
variable {s : State} {c : Channel} (hd : s.dead = false) (ha : s.available .dramChannel c.val = true)
include hd ha

theorem exec_refresh : exec (.refresh ⟨c⟩) s = .next (s.modChannel c
    (fun x => { x with refreshes := x.refreshes + 1, stagger := staggerOf c x.interval })) := by
  have hexec : exec (.refresh ⟨c⟩) s = execRefresh ⟨c⟩ s := rfl
  rw [hexec]
  unfold execRefresh
  rw [if_neg (by simp [hd, ha])]

theorem exec_zqCalibration (hdue : ∀ t, (s.channel c).zqTick = some t → t + 18 ≤ s.clk.tick) : exec (.zqCalibration ⟨c⟩) s =
    .next ((s.modChannel c (fun y => { y with zqs := y.zqs + 1, zqTick := some s.clk.tick })).chargeBackground c (stallBytes 32)) := by
  have hexec : exec (.zqCalibration ⟨c⟩) s = execZqCalibration ⟨c⟩ s := rfl
  rw [hexec]
  unfold execZqCalibration
  rw [if_neg (by simp [hd, ha])]
  dsimp only
  cases hz : (s.channel c).zqTick with
  | none => rfl
  | some t =>
    dsimp only
    rw [if_neg (Nat.not_lt.2 (hdue t hz))]
    rfl

theorem exec_zqCalibration_early {t : Nat} (hz : (s.channel c).zqTick = some t) (hearly : s.clk.tick < t + 18) :
    exec (.zqCalibration ⟨c⟩) s = .next s := by
  have hexec : exec (.zqCalibration ⟨c⟩) s = execZqCalibration ⟨c⟩ s := rfl
  rw [hexec]
  unfold execZqCalibration
  rw [if_neg (by simp [hd, ha]), hz]
  dsimp only
  rw [if_pos hearly]

end

/-! ### Patrol scrub (R446, R465) -/

/-- A ledger entry, or the event that there is no room for one, leaves the memory nodes, the time and the work as they are. -/
theorem State.addLedger_leaves (s : State) (type kind unit source : Nat) (d : List Byte) :
    (s.addLedger type kind unit source d).dram = s.dram ∧ (s.addLedger type kind unit source d).clk = s.clk ∧
      (s.addLedger type kind unit source d).work = s.work := by
  unfold State.addLedger
  dsimp only
  split
  · exact ⟨rfl, rfl, rfl⟩
  · split <;> exact ⟨rfl, rfl, rfl⟩

/-- A correctable error is counted at its channel, with its page noted; no byte and no other channel changes. -/
theorem State.scrubCorrected_spec (s : State) (c : Channel) (g : Nat) : ∃ pages,
    (s.scrubCorrected c g).dram = (s.modChannel c (fun x => { x with corrected := x.corrected + 1, suspectPages := pages })).dram ∧
      (s.scrubCorrected c g).clk = s.clk ∧ (s.scrubCorrected c g).work = s.work := by
  unfold State.scrubCorrected
  dsimp only
  split
  · refine ⟨_, (State.addLedger_leaves _ _ _ _ _ _).1, ?_, (State.addLedger_leaves _ _ _ _ _ _).2.2⟩
    exact State.clk_backTo (State.addLedger_leaves _ _ _ _ _ _).2.1
  · exact ⟨_, rfl, rfl, rfl⟩

/-- The scrub of a granule, before what it finds. -/
def State.scrubRead (s : State) (c : Channel) (g : Nat) (e : PageDamage) (raw : Nat) : State :=
  State.chargeBackground { s.modChannel c (fun x => { x with
      scrubBytes := x.scrubBytes + 64, scrubPos := g, scrubPass := if g < x.scrubPos then x.scrubPass + 1 else x.scrubPass }) with
    dram := { (s.modChannel c (fun x => { x with
      scrubBytes := x.scrubBytes + 64, scrubPos := g,
      scrubPass := if g < x.scrubPos then x.scrubPass + 1 else x.scrubPass })).dram with mem := eccLeaves s.dram.mem e c [g] } } c raw

/-- What a scrub finds in a granule. -/
def State.scrubFinds (s : State) (c : Channel) (g : Nat) (e : PageDamage) : EccFind :=
  if s.dram.poison.contains (dramKey c (32 * g)) then .uncorrectable else eccFind e c g

/-- What a scrub does with what it finds. -/
def State.scrubResult (u : State) (c : Channel) (g : Nat) (found : EccFind) : State :=
  match found with
  | .clean => u
  | .correctable => u.scrubCorrected c g
  | .uncorrectable => State.eccReport { u with dram := { u.dram with poison := addPoison u.dram.poison [dramKey c (32 * g)] } } c
      (32 * g) none

theorem exec_patrolScrub {s : State} {c : Channel} {g : U32} {e : PageDamage} (hd : s.dead = false)
    (ha : s.available .dramChannel c.val = true) (hshare : (s.channel c).scrubBytes + 64 ≤ 121089) (hg : 32 * g.toNat < 0xE0000000) :
    ∃ raw, exec (.patrolScrub ⟨c, g, e⟩) s = .next ((s.scrubRead c g.toNat e raw).scrubResult c g.toNat (s.scrubFinds c g.toNat e)) := by
  have hexec : exec (.patrolScrub ⟨c, g, e⟩) s = execPatrolScrub ⟨c, g, e⟩ s := rfl
  rw [hexec]
  unfold execPatrolScrub
  dsimp only
  rw [if_neg (by simp [hd, ha, Nat.not_lt.2 hshare, Nat.not_le.2 hg])]
  exact ⟨_, rfl⟩

section
variable (s : State) (c : Channel) (g : Nat) (e : PageDamage) (raw : Nat)

theorem State.channel_scrubRead : (s.scrubRead c g e raw).channel c = { s.channel c with
    scrubBytes := (s.channel c).scrubBytes + 64, scrubPos := g,
    scrubPass := if g < (s.channel c).scrubPos then (s.channel c).scrubPass + 1 else (s.channel c).scrubPass } := vget_set_self _ _ _

theorem State.scrubRead_leaves : s.scrubRead c g e raw = { s with dram := (s.scrubRead c g e raw).dram } ∧
    (s.scrubRead c g e raw).dram.mem = eccLeaves s.dram.mem e c [g] ∧ (s.scrubRead c g e raw).dram.poison = s.dram.poison := ⟨rfl, rfl, rfl⟩

end

/-- What a patrol scrub leaves, whatever it finds. -/
theorem scrub_spec (s : State) (c : Channel) (g : Nat) (e : PageDamage) (raw : Nat) (found : EccFind) :
    ∃ t, t = (s.scrubRead c g e raw).scrubResult c g found ∧
      t.dram.mem = eccLeaves s.dram.mem e c [g] ∧ (t.channel c).wq = (s.channel c).wq ∧
      (t.channel c).scrubBytes = (s.channel c).scrubBytes + 64 ∧ (t.channel c).scrubPos = g ∧ t.clk = s.clk ∧ t.work = s.work ∧
      (found = .clean → t = { s with dram := t.dram } ∧ t.dram.poison = s.dram.poison ∧ (t.channel c).corrected = (s.channel c).corrected) ∧
      (found = .correctable → (t.channel c).corrected = (s.channel c).corrected + 1 ∧ t.dram.poison = s.dram.poison) ∧
      (found = .uncorrectable → dramKey c (32 * g) ∈ t.dram.poison ∧
        ∃ n, t.safety = { s.safety with faults := s.safety.faults ++ [n] } ∧ n.cls = some .eccUncorrectable) := by
  have hread := State.channel_scrubRead s c g e raw
  refine ⟨_, rfl, ?_⟩
  cases found with
  | clean =>
    unfold State.scrubResult
    dsimp only
    rw [hread]
    exact ⟨rfl, rfl, rfl, rfl, rfl, rfl, fun _ => ⟨rfl, rfl, rfl⟩, fun h => by simp at h, fun h => by simp at h⟩
  | correctable =>
    obtain ⟨pages, hdram, hclk, hwork⟩ := (s.scrubRead c g e raw).scrubCorrected_spec c g
    have hown : ((s.scrubRead c g e raw).scrubCorrected c g).channel c =
        { (s.scrubRead c g e raw).channel c with
          corrected := ((s.scrubRead c g e raw).channel c).corrected + 1, suspectPages := pages } := by
      unfold State.channel
      rw [hdram]
      exact vget_set_self _ _ _
    unfold State.scrubResult
    dsimp only
    rw [hown, hread, hdram, hclk, hwork]
    exact ⟨rfl, rfl, rfl, rfl, rfl, rfl, fun h => by simp at h, fun _ => ⟨rfl, rfl⟩, fun h => by simp at h⟩
  | uncorrectable =>
    have hown : ((s.scrubRead c g e raw).scrubResult c g .uncorrectable).channel c = (s.scrubRead c g e raw).channel c := rfl
    rw [hown, hread]
    refine ⟨rfl, rfl, rfl, rfl, rfl, rfl, fun h => by simp at h, fun h => by simp at h, fun _ => ⟨?_, _, rfl, rfl⟩⟩
    change dramKey c (32 * g) ∈ addPoison s.dram.poison [dramKey c (32 * g)]
    unfold addPoison
    by_cases h : dramKey c (32 * g) ∈ s.dram.poison
    · exact List.mem_append_right _ h
    · exact List.mem_append_left _ (by simp [h])

/-- Settles O44: each of the node's own works is one update of its channels or ports; a scrub's effect follows what it finds. -/
theorem memoryUpkeep : Obligations.MemoryUpkeep := by
  unfold Obligations.MemoryUpkeep
  intro s hd
  refine ⟨fun i => ?_, fun c ha => ?_⟩
  · obtain ⟨v, hv, hrow, hother⟩ := State.foldl_modPort PortSt.refill i.row (List.nodup_finRange 9) s
    have hexec : exec (.regulatorRefill i) s = .next { s with dram := { s.dram with ports := v } } := by
      rw [← hv]
      change Host.Outcome.next (if s.dead then s else _) = _
      rw [hd]
      rfl
    exact ⟨_, hexec, rfl, fun p => (hrow p).trans (if_pos (List.mem_finRange p)), fun r p hr => hother r p hr⟩
  · intro x
    refine ⟨⟨_, exec_refresh hd ha, rfl, rfl, ?_⟩, exec_zqCalibration hd ha, fun t hz hearly => exec_zqCalibration_early hd ha hz hearly,
      fun temp => ?_, fun g e hshare hg => ?_⟩
    · simp only [staggerOf, beq_iff_eq]
    · obtain ⟨u, hu, honly, hraised, hquiet⟩ := exec_temperatureRead_spec (t := temp) hd ha
      have hch : ∀ k, u.channel k = (s.takeTemp c temp).channel k := fun k => by
        unfold State.channel
        rw [honly.leaves.2.2.2.1]
      have hown := (hch c).trans (State.channel_takeTemp s c temp)
      have hother := (hch (otherChannel c)).trans (State.channel_takeTemp_other s c temp)
      refine ⟨u, hu, by rw [hown]; rfl, fun h => ?_, fun h h' => ?_, fun h h' => ?_, fun h h' hx => ?_, fun h h' hx => ?_, fun hav => ?_, hraised,
        fun h => ?_⟩
      · rw [hown]
        exact if_pos h
      · rw [hown]
        exact (if_neg (by omega)).trans (if_pos h)
      · rw [hown]
        exact (ChannelSt.readTemp_wanted (by omega)).trans (if_pos (by
          rw [ChannelSt.readTemp_cool h]
          exact Nat.add_le_add_right h' 1))
      · rw [hown]
        exact (ChannelSt.readTemp_wanted (by omega)).trans (by
          have hx' : (s.channel c).wanted = 1950 := hx
          have hfew : ¬ 96 ≤ (s.channel c).coolReads + 1 := Nat.not_le.2 (Nat.add_lt_add_right h' 1)
          rw [ChannelSt.readTemp_cool h, if_neg hfew, hx']
          rfl)
      · rw [hown]
        exact ⟨(ChannelSt.readTemp_wanted (by omega)).trans (by
          rw [ChannelSt.readTemp_warm h, if_neg (by decide)]
          exact if_neg hx), ChannelSt.readTemp_warm h⟩
      · rw [hother, hown]
        exact ⟨if_pos hav, rfl⟩
      · obtain ⟨chs, ps, hsame⟩ := s.takeTemp_sameButQueues c temp
        rw [hquiet h, hsame]
    · obtain ⟨raw, hexec⟩ := exec_patrolScrub hd ha hshare hg (e := e)
      obtain ⟨t, ht, hmem, hwq, hbytes, hpos, hclk, hwork, hclean, hcorr, hunc⟩ := scrub_spec s c g.toNat e raw (s.scrubFinds c g.toNat e)
      rw [← ht] at hexec
      refine ⟨t, hexec, fun hbad => ?_, hwq, hbytes, hpos, hclk, hwork, fun h0 hplace hkey => hclean ?_, fun h1 hplace hkey => hcorr ?_,
        fun hbad => hunc ?_⟩
      · rw [hmem]
        exact eccLeaves_eq c _ fun y hy => by
          rw [List.mem_singleton.1 hy]
          exact hbad
      · unfold State.scrubFinds
        rw [if_neg (by simpa using hkey), eccFind_clean c hplace h0]
      · unfold State.scrubFinds
        rw [if_neg (by simpa using hkey), eccFind_correctable c hplace h1]
      · unfold State.scrubFinds
        split
        · rfl
        next hkey =>
          have hno : ¬ dramKey c (32 * g.toNat) ∈ s.dram.poison := by simpa using hkey
          exact eccFind_uncorrectable c ((or_assoc.2 hbad).resolve_right hno).symm

end Sys2Proof.Machine
end


section
/-! Filigree packets, credits, acknowledgements and segments (O45). -/

namespace Sys2Proof.Machine

/-! ### Credits (R470) -/

section
variable (x : Fabric) (node : Nat) (port : Port) (vc : Nat)

theorem sameLink_iff {c : LinkCredit} : sameLink node port vc c = true ↔ c.node = node ∧ c.port = port ∧ c.vc = vc := by
  simp [sameLink, and_assoc]

/-- The credits of a link are of that link. -/
theorem Fabric.credit_of_link : (x.credit node port vc).node = node ∧ (x.credit node port vc).port = port ∧ (x.credit node port vc).vc = vc := by
  unfold Fabric.credit
  cases h : x.credits.find? (sameLink node port vc) with
  | none => exact ⟨rfl, rfl, rfl⟩
  | some c => exact (sameLink_iff node port vc).1 (List.find?_some h)

theorem Fabric.credit_setCredit {c : LinkCredit} (hn : c.node = node) (hp : c.port = port) (hv : c.vc = vc) :
    (x.setCredit c).credit node port vc = c := by
  subst hn hp hv
  have hself : sameLink c.node c.port c.vc c = true := (sameLink_iff ..).2 ⟨rfl, rfl, rfl⟩
  unfold Fabric.setCredit Fabric.credit
  dsimp only
  split
  next hidle =>
    have hnone : (x.credits.filter (fun d => !sameLink c.node c.port c.vc d)).find? (sameLink c.node c.port c.vc) = none := by
      refine List.find?_eq_none.2 fun d hd => ?_
      simpa using (List.mem_filter.1 hd).2
    rw [hnone]
    exact (of_decide_eq_true hidle).symm
  next => rw [List.find?_cons_of_pos hself]; rfl

theorem Fabric.credit_spend : ((x.spend node port vc).credit node port vc).held = (x.credit node port vc).held - 1 := by
  obtain ⟨hn, hp, hv⟩ := x.credit_of_link node port vc
  exact congrArg LinkCredit.held (Fabric.credit_setCredit x node port vc
    (c := { x.credit node port vc with held := (x.credit node port vc).held - 1 }) hn hp hv)

end

/-- The same network but for credits and links. -/
def SameButCredits (x y : Fabric) : Prop := ∃ cs ls, y = { x with credits := cs, links := ls }

theorem SameButCredits.trans {x y z : Fabric} (h : SameButCredits x y) (h' : SameButCredits y z) : SameButCredits x z := by
  obtain ⟨_, _, rfl⟩ := h
  obtain ⟨_, _, rfl⟩ := h'
  exact ⟨_, _, rfl⟩

theorem Fabric.leave_sameButCredits (x : Fabric) (f : Flying) : SameButCredits x (x.leave f) := by
  unfold Fabric.leave
  split <;> exact ⟨_, _, rfl⟩

theorem Fabric.leave_injected {x : Fabric} {f : Flying} (h : f.inPort = none) : x.leave f = x := by
  unfold Fabric.leave
  rw [h]

/-! ### A hop (R469, R470, R472) -/

section
variable {x : Fabric} {f : Flying} {p : Port} {idle : Nat}

theorem Fabric.hop_stays (hp : f.next = some p) (h : x.wins f p idle = false) : x.hop f idle = x := by
  unfold Fabric.hop
  rw [hp]
  dsimp only
  rw [if_pos (by rw [h]; rfl)]

theorem Fabric.wins_of_few (h : (x.credit f.at_ p f.pkt.vc.val).held < if f.enters p then 2 else 1) : x.wins f p idle = false := by
  unfold Fabric.wins Fabric.mayHop
  rw [decide_eq_false (Nat.not_le.2 h), Bool.false_and]

/-- R469: system traffic that is ready goes first, so no other VC wins. -/
theorem Fabric.wins_of_system (hvc : f.pkt.vc.val ≠ 3) (hready : 3 ∈ x.readyVcs f.at_ p) (hrecent : some 3 ∉ (x.link f.at_ p idle).recent) :
    x.wins f p idle = false := by
  have hfirst : (x.link f.at_ p idle).systemFirst (f.pkt.vc.val :: x.readyVcs f.at_ p) = true := by
    unfold LinkUse.systemFirst
    simp [hready, hrecent]
  unfold Fabric.wins LinkUse.grant
  rw [if_pos hfirst]
  have : (some 3 == some f.pkt.vc.val) = false := beq_eq_false_iff_ne.2 fun h => hvc (Option.some.inj h).symm
  rw [this, Bool.and_false]

theorem Fabric.wins_of_served (hneed : (if f.enters p then 2 else 1) ≤ (x.credit f.at_ p f.pkt.vc.val).held)
    (hserved : (x.link f.at_ p idle).grant (f.pkt.vc.val :: x.readyVcs f.at_ p) = some f.pkt.vc.val) : x.wins f p idle = true := by
  unfold Fabric.wins Fabric.mayHop
  rw [decide_eq_true hneed, hserved]
  simp

/-- What a hop of a packet without copies does: it spends a credit of its link and moves the packet, or delivers it. -/
theorem Fabric.hop_moves (hp : f.next = some p) (hwins : x.wins f p idle = true) (hm : f.pkt.mcast = none) :
    ∃ y : Fabric, SameButCredits x y ∧ (f.inPort = none → (y.credit f.at_ p f.pkt.vc.val).held = (x.credit f.at_ p f.pkt.vc.val).held - 1) ∧
      x.hop f idle = if ({ f with at_ := stepNode f.at_ p, inPort := some p } : Flying).next.isNone then
        Fabric.arrive { y with packets := x.packets.filter (fun g => !samePacket f.pkt g) } { f with at_ := stepNode f.at_ p, inPort := some p }
      else { y with packets := { f with at_ := stepNode f.at_ p, inPort := some p } :: x.packets.filter (fun g => !samePacket f.pkt g) } := by
  generalize hu : (x.link f.at_ p idle).send (f.pkt.vc.val :: x.readyVcs f.at_ p) f.pkt.vc.val f.pkt.flits = u
  have hsame : SameButCredits x (((x.setLink u).leave f).spend f.at_ p f.pkt.vc.val) :=
    SameButCredits.trans (y := (x.setLink u).leave f) (SameButCredits.trans (y := x.setLink u) ⟨_, _, rfl⟩ (Fabric.leave_sameButCredits _ _)) ⟨_, _, rfl⟩
  refine ⟨_, hsame, fun hin => ?_, ?_⟩
  · rw [Fabric.credit_spend, Fabric.leave_injected hin]
    rfl
  · obtain ⟨cs, ls, hy⟩ := hsame
    unfold Fabric.hop
    rw [hp]
    dsimp only
    rw [if_neg (by rw [hwins]; decide), hu]
    unfold Fabric.passBy
    dsimp only
    rw [hm]
    dsimp only
    rw [hy]

/-- A packet without copies that arrives is delivered, and gone. -/
theorem Fabric.arrive_spec (x : Fabric) {f : Flying} (hm : f.pkt.mcast = none) : (x.arrive f).packets = x.packets ∧
    (x.arrive f).deliveries = (f.pkt.id, f.at_) :: x.deliveries ∧ (x.arrive f).draining = x.draining := by
  obtain ⟨cs, ls, hy⟩ := x.leave_sameButCredits f
  unfold Fabric.arrive
  dsimp only
  rw [hm, hy]
  dsimp only
  split <;> exact ⟨rfl, rfl, rfl⟩

end

section
variable {s : State} {i : HopIn} (hd : s.dead = false)
include hd

theorem exec_filigreePacketHop {f : Flying} (hf : s.fab.packets.find? (samePacket i.packet) = some f) :
    exec (.filigreePacketHop i) s = .next { s with fab := s.fab.hop f i.idle } := by
  change execFiligreePacketHop i s = _
  unfold execFiligreePacketHop
  rw [hd, hf]
  rfl

theorem exec_filigreePacketHop_new (hf : s.fab.packets.find? (samePacket i.packet) = none) :
    exec (.filigreePacketHop i) s = .next (if i.packet.fence && !s.fab.fenceOpen i.packet then s else s.inject i.packet i.idle) := by
  change execFiligreePacketHop i s = _
  unfold execFiligreePacketHop
  rw [hd, hf]
  rfl

theorem exec_fencedInjection (hf : s.fab.packets.find? (samePacket i.packet) = none) (hfence : i.packet.fence = true) :
    exec (.fencedInjection i) s = exec (.filigreePacketHop i) s := by
  have hany : s.fab.packets.any (samePacket i.packet) = false := by
    rw [List.any_eq_false]
    exact fun x hx => List.find?_eq_none.1 hf x hx
  rw [exec_filigreePacketHop_new hd hf]
  change execFencedInjection i s = _
  unfold execFencedInjection
  rw [hd, hany, hfence]
  simp only [Bool.not_true, Bool.or_false, Bool.false_or, Bool.true_and]

end

/-! ### Injection (R472, R482) -/

section
variable {s : State} {q : FilPacket} {p : Port} {idle : Nat} (hp : (s.flyingOf q).next = some p)
include hp

theorem State.inject_waits (h : s.fab.wins (s.flyingOf q) p idle = false) : s.inject q idle = s := by
  unfold State.inject
  dsimp only
  rw [hp, if_neg (by simp [h])]

theorem State.inject_goes (hmay : s.mayInject q = true) (h : s.fab.wins (s.flyingOf q) p idle = true) :
    s.inject q idle = { s with fab := (s.fab.sent q).hop (s.flyingOf q) idle } := by
  unfold State.inject
  dsimp only
  rw [hp, if_pos (by simp [hmay, h])]

end

/-- A request joins those that wait for an acknowledgement. -/
theorem Fabric.sent_request {x : Fabric} {q : FilPacket} (hvc : q.vc ≠ 1) (hre : q ∉ x.resends) :
    x.sent q = { x with unacked := x.unacked ++ [{ pkt := q, trailing := false, missed := 0, gen := 0 }] } := by
  have hvc' : ¬ q.vc.val = 1 := fun h => hvc (Fin.ext h)
  unfold Fabric.sent
  rw [if_neg (by simpa using hre), if_neg hvc']

theorem filter_of_find?_none {α : Type} {p : α → Bool} {l : List α} (h : l.find? p = none) : l.filter (fun x => !p x) = l :=
  List.filter_eq_self.2 fun x hx => by simpa using List.find?_eq_none.1 h x hx

/-! ### Acknowledgements (R485, R486) -/

section
variable {s : State} {i : TrailAckIn} {u : Unacked} {m : Mcast} (hd : s.dead = false) (hu : s.fab.unacked = [u]) (hsrc : u.pkt.src = i.source)
  (hm : u.pkt.mcast = some m) (hseq : m.mseq = i.mseq)
include hd hu hsrc hm hseq

/-- A trailing acknowledgement marks the multicast it names, and asks for the re-sends it owes. -/
theorem exec_trailingAcknowledgement : exec (.trailingAcknowledgement i) s = .next { s with fab := { s.fab with
    unacked := [{ u with trailing := true, missed := i.missed.toNat, gen := u.gen + boolNat (i.missed.toNat != 0) }].filter (fun u => !u.done)
    resends := s.fab.resends ++ u.resends i.missed.toNat (u.gen + 1) } } := by
  have hexec : exec (.trailingAcknowledgement i) s = execTrailingAcknowledgement i s := rfl
  rw [hexec]
  unfold execTrailingAcknowledgement
  dsimp only
  rw [hu, List.find?_cons_of_pos (by rw [hm]; simp [hsrc, hseq])]
  dsimp only
  rw [if_neg (by simp [hd]), updWhere, List.map_cons, if_pos (by rw [hm]; simp [hsrc, hseq])]
  rfl

end

theorem Unacked.resends_eq {u : Unacked} {m : Mcast} (hm : u.pkt.mcast = some m) (missed gen : Nat) : u.resends missed gen =
    ((List.range 16).filter (fun b => missed.testBit b)).map (fun b =>
      { u.pkt with vc := 0, dst := BitVec.ofNat 7 (mcastNode u.pkt.src.toNat m b),
                   mcast := some { m with bitmap := BitVec.ofNat 16 (2 ^ b), missed := 0, gen := BitVec.ofNat 8 gen } }) := by
  unfold Unacked.resends
  rw [hm]

/-! ### Segments (R478, R479) -/

theorem exec_segmentHandover_early {s : State} (h : s.drainAge = 0) : exec .segmentHandover s = .next s := by
  change execSegmentHandover s = _
  unfold execSegmentHandover
  rw [if_pos (by simp [h])]

theorem exec_filigreeDrainFault_idle {s : State} (h : s.drainAge < 2 ∨ s.fab.draining = []) : exec .filigreeDrainFault s = .next s := by
  change execFiligreeDrainFault s = _
  unfold execFiligreeDrainFault
  rw [if_pos (by rcases h with h | h <;> simp [h])]

section
variable {s : State} (hd : s.dead = false)
include hd

theorem exec_segmentHandover (h : 0 < s.drainAge) : exec .segmentHandover s = .next { s with fab := { s.fab with
    draining := s.fab.draining.filter s.fab.rowHolds
    planCommit := if s.fab.draining.filter s.fab.rowHolds = [] then none else s.fab.planCommit } } := by
  have hexec : exec .segmentHandover s = execSegmentHandover s := rfl
  rw [hexec]
  unfold execSegmentHandover
  rw [if_neg (by simp [hd, Nat.ne_of_gt h])]
  simp only [List.isEmpty_iff]

theorem exec_filigreeDrainFault (h2 : 2 ≤ s.drainAge) (hne : s.fab.draining ≠ []) : ∃ fs : List FaultNote, exec .filigreeDrainFault s = .next
    { s with
      fab := { s.fab with draining := [], planCommit := none, unassigned := s.fab.unassigned ++ s.fab.draining },
      safety := { s.safety with faults := s.safety.faults ++ fs } } ∧
    fs.map (fun n => (n.cls, n.unit.num)) = s.fab.draining.map (fun r => (some .filigreeDrainFault, r)) := by
  have hexec : exec .filigreeDrainFault s = execFiligreeDrainFault s := rfl
  rw [hexec]
  unfold execFiligreeDrainFault
  rw [if_neg (by simp [hd, Nat.not_lt.2 h2, hne])]
  refine ⟨_, rfl, ?_⟩
  rw [List.map_map]
  rfl

theorem exec_creditReturn {i : CreditIn} : exec (.creditReturn i) s =
    .next (if (s.fab.credit i.node.toNat i.port i.vc.val).returning = 0 then s
      else { s with fab := s.fab.setCredit { s.fab.credit i.node.toNat i.port i.vc.val with
        held := (s.fab.credit i.node.toNat i.port i.vc.val).held + 1
        returning := (s.fab.credit i.node.toNat i.port i.vc.val).returning - 1 } }) := by
  have hexec : exec (.creditReturn i) s = execCreditReturn i s := rfl
  rw [hexec]
  unfold execCreditReturn
  simp only [hd, Bool.false_or, decide_eq_true_eq]

end

/-- Settles O45: a hop moves its packet only when it wins its link; credits, acknowledgements and segments each follow one equation. -/
theorem filigreePacketsAndCredits : Obligations.FiligreePacketsAndCredits := by
  unfold Obligations.FiligreePacketsAndCredits
  intro s hd
  refine ⟨fun i f p hf hp => ?_, fun i hf hfence => ⟨fun hclosed => ?_, fun hopen => exec_fencedInjection hd hf hfence⟩,
    fun i p => ?_, fun i => ?_, fun i u m hu hsrc hm hseq => ⟨fun h0 => ?_, fun hne => ?_⟩,
    ⟨exec_segmentHandover_early, exec_segmentHandover hd⟩, exec_filigreeDrainFault_idle, exec_filigreeDrainFault hd⟩
  · intro f' vc need served
    have hexec := exec_filigreePacketHop hd hf
    refine ⟨fun hfew => ?_, fun hvc hready hrecent => ?_, fun hneed hserved hm => ?_⟩
    · rw [hexec, Fabric.hop_stays hp (Fabric.wins_of_few hfew)]
    · rw [hexec, Fabric.hop_stays hp (Fabric.wins_of_system hvc hready hrecent)]
    · obtain ⟨y, ⟨cs, ls, hy⟩, hcredit, hhop⟩ := Fabric.hop_moves hp (Fabric.wins_of_served hneed hserved) hm
      refine ⟨_, hexec, ?_⟩
      have hpackets : y.packets = s.fab.packets ∧ y.deliveries = s.fab.deliveries ∧ y.unacked = s.fab.unacked ∧
          y.draining = s.fab.draining := by
        rw [hy]
        exact ⟨rfl, rfl, rfl, rfl⟩
      obtain ⟨-, hdel, hun, hdr⟩ := hpackets
      cases hnext : f'.next with
      | some p' =>
        have hsome : f'.next.isNone = false := by rw [hnext]; rfl
        rw [hhop, if_neg (by rw [hsome]; decide)]
        exact ⟨hdr, fun _ => ⟨rfl, hdel, hun, hcredit⟩, fun h => by simp at h⟩
      | none =>
        have hnone : f'.next.isNone = true := by rw [hnext]; rfl
        obtain ⟨hpk, hdv, hdg⟩ := Fabric.arrive_spec { y with packets := s.fab.packets.filter (fun g => !samePacket f.pkt g) } (f := f') hm
        rw [hhop, if_pos hnone]
        exact ⟨hdg.trans hdr, fun h => absurd rfl h, fun _ => ⟨hpk, hdv.trans (by rw [hdel])⟩⟩
  · rw [exec_fencedInjection hd hf hfence, exec_filigreePacketHop_new hd hf, if_pos (by simp [hfence, hclosed])]
    exact ⟨rfl, rfl⟩
  · intro q f' hf hmay hfence hm hvc hre hp hnext
    have hopen : ¬ (q.fence && !s.fab.fenceOpen q) = true := by
      intro h
      simp only [Bool.and_eq_true, Bool.not_eq_true'] at h
      exact absurd (hfence h.1) (by simp [h.2])
    have hexec : exec (.filigreePacketHop i) s = .next (s.inject q i.idle) := by rw [exec_filigreePacketHop_new hd hf, if_neg hopen]
    refine ⟨fun hfew => ?_, fun hneed hserved => ?_⟩
    · rw [hexec, State.inject_waits hp (Fabric.wins_of_few hfew)]
    · have hwins : s.fab.wins (s.flyingOf q) p i.idle = true := Fabric.wins_of_served hneed hserved
      have hsent := Fabric.sent_request hvc hre
      have hwins' : (s.fab.sent q).wins (s.flyingOf q) p i.idle = true := by
        rw [hsent]
        exact hwins
      obtain ⟨y, ⟨cs, ls, hy⟩, hcredit, hhop⟩ := Fabric.hop_moves hp hwins' hm
      have hhop := hhop.trans (if_neg (mt Option.isNone_iff_eq_none.1 hnext))
      rw [State.inject_goes hp hmay hwins] at hexec
      refine ⟨_, hexec, fun hf' => (exec_fencedInjection hd hf hf').trans hexec, ?_⟩
      rw [hhop]
      refine ⟨?_, ?_, ?_⟩
      · rw [hsent]
        exact congrArg (List.cons f') (filter_of_find?_none hf)
      · rw [hy, hsent]
      · refine (hcredit rfl).trans ?_
        rw [hsent]
        rfl
  · intro c
    obtain ⟨hn, hp, hv⟩ := s.fab.credit_of_link i.node.toNat i.port i.vc.val
    refine ⟨fun h0 => ?_, fun hpos => ?_⟩
    · rw [exec_creditReturn hd, if_pos h0]
    · rw [exec_creditReturn hd, if_neg (Nat.ne_of_gt hpos)]
      exact ⟨_, rfl, s.fab.credit_setCredit _ _ _ (c := { c with held := c.held + 1, returning := c.returning - 1 }) hn hp hv, rfl⟩
  · rw [exec_trailingAcknowledgement hd hu hsrc hm hseq, Unacked.resends_eq hm, h0]
    have hnone : (List.range 16).filter (fun b => (0 : Nat).testBit b) = [] := by decide
    rw [show (0 : U16).toNat = 0 from rfl, hnone, List.map_nil, List.append_nil]
    rfl
  · have hpos : (i.missed.toNat != 0) = true := bne_iff_ne.2 fun h => hne (BitVec.eq_of_toNat_eq h)
    have hkeep : Unacked.done { u with trailing := true, missed := i.missed.toNat, gen := u.gen + boolNat true } = false := by
      simpa [Unacked.done] using hpos
    rw [exec_trailingAcknowledgement hd hu hsrc hm hseq, hpos, List.filter_cons_of_pos (by rw [hkeep]; rfl)]
    refine ⟨u.resends i.missed.toNat (u.gen + 1), rfl, ?_, fun r hr => ?_⟩
    · rw [Unacked.resends_eq hm, List.length_map]
    · rw [Unacked.resends_eq hm] at hr
      obtain ⟨b, -, rfl⟩ := List.mem_map.1 hr
      exact ⟨rfl, rfl, _, rfl, rfl, rfl⟩

end Sys2Proof.Machine
end


section
/-! Chain links (O46). -/

namespace Sys2Proof.Machine

/-- The event that is raised. -/
theorem State.raise_event (s : State) (f : Fn) (code : Nat) (d : List Byte) : ∃ e : Event,
    ((s.raise f code d).fnSt f).eventHeld = (s.fnSt f).eventHeld ++ [e] ∧ e.code = code ∧ e.tick = s.clk.tick ∧ e.detail = detail28 d := by
  refine ⟨_, congrArg FnState.eventHeld (State.fnSt_modFn s f _), rfl, rfl, ?_⟩
  rfl

/-- The event of a row that raises one event as of the coming commit. -/
theorem State.atNext_raise_event (s : State) (f : Fn) (code : Nat) (d : List Byte) : ∃ e : Event,
    ((s.atNext (fun s => s.raise f code d)).fnSt f).eventHeld = (s.fnSt f).eventHeld ++ [e] ∧ e.code = code ∧ e.tick = s.clk.tick + 1 ∧
      e.detail = detail28 d := s.coming.raise_event f code d

/-! ### Updating one link -/

section
variable (s : State) (k : Link)

theorem State.modLink_modLink (g h : LinkSt → LinkSt) : (s.modLink k g).modLink k h = s.modLink k (fun x => h (g x)) := by
  have hget : (s.modLink k g).chain.links.get k = g (s.link k) := vget_set_self _ _ _
  unfold State.modLink State.withChain at hget ⊢
  dsimp only at hget ⊢
  rw [hget, Vector.set_set]
  rfl

theorem State.modLink_eq (g : LinkSt → LinkSt) : s.modLink k g = s.modLink k (fun _ => g (s.link k)) := rfl

theorem State.modLink_self : s.modLink k (fun _ => s.link k) = s := by
  have h : s.chain.links.set k.val (s.chain.links.get k) = s.chain.links := Vector.set_getElem_self ..
  unfold State.modLink State.withChain State.link
  rw [h]

/-- A link goes DOWN with what it held returned, before its event. -/
def State.dropLink : State :=
  if (s.link k).state = .down then s
  else (s.withChain { s.chain with nacks := s.chain.nacks ++ (s.link k).replay ++ (s.link k).queue }).modLink k
    (fun x => { x with state := .down, replay := [], queue := [], noProgress := 0, gotReset := false, gotAck := false })

theorem State.dropLink_leaves : (s.dropLink k).clk = s.clk ∧ (s.dropLink k).host = s.host ∧ (s.dropLink k).work = s.work ∧
    (s.dropLink k).dram = s.dram ∧ (s.dropLink k).boot = s.boot ∧ (s.dropLink k).safety = s.safety := by
  unfold State.dropLink
  split <;> exact ⟨rfl, rfl, rfl, rfl, rfl, rfl⟩

theorem State.link_dropLink_ne {j : Link} (h : j ≠ k) : (s.dropLink k).link j = s.link j := by
  unfold State.dropLink
  split
  · rfl
  · exact State.link_modLink_ne _ _ h

theorem State.link_dropLink_state : ((s.dropLink k).link k).state = .down := by
  unfold State.dropLink
  split
  next h => exact h
  next => rw [State.link_modLink]

variable {s k}

theorem LinkSt.isUp_iff {x : LinkSt} : x.isUp = true ↔ x.state = .up := beq_iff_eq

theorem State.dropLink_up (h : (s.link k).isUp = true) : s.dropLink k =
    (s.withChain { s.chain with nacks := s.chain.nacks ++ (s.link k).replay ++ (s.link k).queue }).modLink k
      (fun x => { x with state := .down, replay := [], queue := [], noProgress := 0, gotReset := false, gotAck := false }) := by
  unfold State.dropLink
  rw [if_neg (by rw [LinkSt.isUp_iff.1 h]; decide)]

theorem State.linkDown_eq (cause : Nat) : s.linkDown k cause = if (s.link k).isUp = true then
    (s.dropLink k).atNext (fun s => s.raise pfFn 0x0500 (le 1 k.val ++ le 1 0 ++ le 1 cause)) else s.dropLink k := by
  unfold State.linkDown
  dsimp only
  by_cases hup : (s.link k).isUp = true
  · rw [State.dropLink_up hup, if_neg (by rw [LinkSt.isUp_iff.1 hup]; decide), if_pos hup]
  · rw [if_neg hup, if_neg hup]
    unfold State.dropLink
    by_cases hdown : (s.link k).state = .down
    · rw [if_pos hdown, if_pos (by rw [hdown]; rfl)]
    · rw [if_neg hdown, if_neg (by simpa using hdown)]

/-- A link down tells of it at most. -/
theorem State.linkDown_onlyRaises (cause : Nat) : OnlyRaises (s.dropLink k) (s.linkDown k cause) := by
  rw [State.linkDown_eq]
  split
  · exact (State.raiseFull_onlyRaises _ _ _ _ _ _ _ _).backTo
  · exact .refl _

/-- R499, R504: the event of a link that was UP. -/
theorem State.linkDown_raises (hup : (s.link k).isUp = true) (cause : Nat) : ∃ e : Event,
    ((s.linkDown k cause).fnSt pfFn).eventHeld = (s.fnSt pfFn).eventHeld ++ [e] ∧ e.code = 0x0500 ∧ e.tick = s.clk.tick + 1 ∧
      e.detail = detail28 (le 1 k.val ++ le 1 0 ++ le 1 cause) := by
  rw [State.linkDown_eq, if_pos hup]
  obtain ⟨e, hheld, hcode, htick, hdetail⟩ := (s.dropLink k).atNext_raise_event pfFn 0x0500 (le 1 k.val ++ le 1 0 ++ le 1 cause)
  obtain ⟨hclk, hhost, -⟩ := s.dropLink_leaves k
  rw [hclk] at htick
  rw [show (s.dropLink k).fnSt pfFn = s.fnSt pfFn by rw [State.fnSt, hhost]; rfl] at hheld
  exact ⟨e, hheld, hcode, htick, hdetail⟩

theorem State.link_linkDown (cause : Nat) (j : Link) : (s.linkDown k cause).link j = (s.dropLink k).link j := by
  unfold State.link
  rw [(State.linkDown_onlyRaises cause).leaves.2.2.1]

end

/-! ### Sending again (R498) -/

theorem LinkSt.emit_keeps (x : LinkSt) (p : ChainPacket) : (x.emit p).noProgress = x.noProgress ∧ (x.emit p).replay = x.replay ∧
    (x.emit p).queue = x.queue ∧ (x.emit p).state = x.state ∧ (x.emit p).txSeq = x.txSeq ∧ (x.emit p).rxExpect = x.rxExpect ∧
    (x.emit p).peer = x.peer ∧ (x.emit p).gotReset = x.gotReset ∧ (x.emit p).gotAck = x.gotAck ∧ (x.emit p).credits = x.credits :=
  ⟨rfl, rfl, rfl, rfl, rfl, rfl, rfl, rfl, rfl, rfl⟩

/-- Type and number of the packets a link has sent, the newest first. -/
def sentBy (x : LinkSt) : List (Nat × Nat) := x.out.map (fun p => (p.type, p.linkSeq))

theorem sentBy_emit (x : LinkSt) (p : ChainPacket) : sentBy (x.emit p) = (p.type, p.linkSeq) :: sentBy x := rfl

/-- A replay sends each packet of the replay buffer again, the oldest first, and changes nothing else but the count of R499. -/
theorem LinkSt.replayAll_spec (x : LinkSt) : x.replayAll.noProgress = x.noProgress + 1 ∧ x.replayAll.replay = x.replay ∧
    x.replayAll.queue = x.queue ∧ x.replayAll.state = x.state ∧ x.replayAll.txSeq = x.txSeq ∧ x.replayAll.rxExpect = x.rxExpect ∧
    sentBy x.replayAll = (x.replay.map (fun r => (1, r.seq))).reverse ++ sentBy x := by
  have hfold : ∀ (rs : List Replay) (y : LinkSt), let z := rs.foldl (fun y r => y.emit r.packet) y
      z.noProgress = y.noProgress ∧ z.replay = y.replay ∧ z.queue = y.queue ∧ z.state = y.state ∧ z.txSeq = y.txSeq ∧
        z.rxExpect = y.rxExpect ∧ sentBy z = (rs.map (fun r => (1, r.seq))).reverse ++ sentBy y := by
    intro rs
    induction rs with
    | nil => exact fun y => ⟨rfl, rfl, rfl, rfl, rfl, rfl, rfl⟩
    | cons r rs ih =>
      intro y
      obtain ⟨h1, h2, h3, h4, h5, h6, h7⟩ := ih (y.emit r.packet)
      refine ⟨h1, h2, h3, h4, h5, h6, h7.trans ?_⟩
      rw [sentBy_emit, List.map_cons, List.reverse_cons, List.append_assoc]
      rfl
  exact hfold x.replay { x with noProgress := x.noProgress + 1 }

section
variable {s : State} {k : Link}

/-- A replay without progress for the eighth time takes the link DOWN. -/
theorem State.replayLink_eq : s.replayLink k = if 7 ≤ (s.link k).noProgress then
    (s.modLink k (fun _ => (s.link k).replayAll)).linkDown k (downCode .replaysNoProgress)
    else s.modLink k (fun _ => (s.link k).replayAll) := by
  unfold State.replayLink
  dsimp only
  rw [(s.link k).replayAll_spec.1]
  simp only [Nat.reduceLeDiff]

end

/-- What a link that was UP leaves when it goes DOWN (R499, R500). -/
theorem State.linkDown_spec {s : State} {k : Link} (hup : (s.link k).isUp = true) (cause : Nat) :
    ((s.linkDown k cause).link k).state = .down ∧ ((s.linkDown k cause).link k).replay = [] ∧ ((s.linkDown k cause).link k).queue = [] ∧
      (∀ j, j ≠ k → (s.linkDown k cause).link j = s.link j) ∧ (s.linkDown k cause).clk = s.clk ∧ (s.linkDown k cause).work = s.work ∧
      (s.linkDown k cause).dram = s.dram ∧ (s.linkDown k cause).chain.nacks = s.chain.nacks ++ (s.link k).replay ++ (s.link k).queue := by
  obtain ⟨hclk, hwork, hchain, hdram, -⟩ := (State.linkDown_onlyRaises (s := s) (k := k) cause).leaves
  rw [State.link_linkDown, hclk, hwork, hdram, hchain]
  refine ⟨s.link_dropLink_state k, ?_, ?_, fun j hj => ?_, (s.dropLink_leaves k).1, (s.dropLink_leaves k).2.2.1, (s.dropLink_leaves k).2.2.2.1, ?_⟩
  · rw [State.dropLink_up hup, State.link_modLink]
  · rw [State.dropLink_up hup, State.link_modLink]
  · rw [State.link_linkDown, State.link_dropLink_ne _ _ hj]
  · rw [State.dropLink_up hup]
    rfl

/-! ### Training and the credit reset (R491, R503, R504) -/

section
variable {s : State} {k : Link} (hd : s.dead = false)
include hd

/-- A miswired peer, or one that names no module, leaves the link DOWN with its event. -/
theorem exec_train_miswired {f : PeerFlit} (ha : s.available .chainLink k.val = true) (hbad : s.miswired ⟨k, f⟩ = true ∨ flitModule f = none) :
    exec (.train ⟨k, f⟩) s = .next (execTrain.miswire ⟨k, f⟩ (s.linkDown k (downCode .peerTrain))) := by
  have hexec : exec (.train ⟨k, f⟩) s = execTrain ⟨k, f⟩ s := rfl
  have hboot : (s.linkDown k (downCode .peerTrain)).miswired ⟨k, f⟩ = s.miswired ⟨k, f⟩ := by
    unfold State.miswired
    rw [(State.linkDown_onlyRaises (s := s) (k := k) _).nor_boot.2, (s.dropLink_leaves k).2.2.2.2.1]
  rw [hexec]
  unfold execTrain
  dsimp only
  rw [if_neg (by simp [hd, ha]), hboot]
  rcases hbad with h | h
  · rw [h]
    split <;> rfl
  · rw [h]

/-- A peer that is wired as it should be begins the handshake. -/
theorem exec_train {f : PeerFlit} {m : ModuleNo} (ha : s.available .chainLink k.val = true) (hgood : s.miswired ⟨k, f⟩ = false)
    (hm : flitModule f = some m) : ∃ (z : LinkSt) (p q : ChainPacket), exec (.train ⟨k, f⟩) s =
      .next (((s.linkDown k (downCode .peerTrain)).modLink k (fun _ => (z.emit p).emit q)).modPeer m
        (fun x => { x with offset := (f.tick.toNat : Int) - s.clk.tick, heard := false })) ∧ z.state = .handshake ∧ z.peer = some m.val ∧
      z.txSeq = 0 ∧ z.rxExpect = 0 ∧ z.gotReset = false ∧ z.gotAck = false ∧ p.type = 7 ∧ q.type = 4 := by
  have hexec : exec (.train ⟨k, f⟩) s = execTrain ⟨k, f⟩ s := rfl
  have hboot : (s.linkDown k (downCode .peerTrain)).miswired ⟨k, f⟩ = s.miswired ⟨k, f⟩ := by
    unfold State.miswired
    rw [(State.linkDown_onlyRaises (s := s) (k := k) _).nor_boot.2, (s.dropLink_leaves k).2.2.2.2.1]
  have hclk : (s.linkDown k (downCode .peerTrain)).clk = s.clk := (State.linkDown_onlyRaises _).clk_eq.trans (s.dropLink_leaves k).1
  rw [hexec]
  unfold execTrain
  dsimp only
  rw [if_neg (by simp [hd, ha]), hboot, hgood, hm]
  dsimp only
  rw [if_neg (by decide), State.modLink_modLink, State.modLink_eq, State.modLink_clk, hclk]
  exact ⟨_, _, _, rfl, rfl, rfl, rfl, rfl, rfl, rfl, rfl, rfl⟩

theorem exec_creditReset {i : CreditResetIn} (hi : i.link = k) (hs : (s.link k).state = .handshake) : ∃ p : ChainPacket, p.type = 5 ∧
    exec (.creditReset i) s = .next (s.modLink k (fun _ => { s.link k with
      credits := i.free, back := (s.link k).sent, gotReset := true, txSeq := 0, rxExpect := 0 }.emit p)) := by
  subst hi
  have hexec : exec (.creditReset i) s = execCreditReset i s := rfl
  rw [hexec]
  unfold execCreditReset
  rw [if_neg (by simp [hd, hs]), State.modLink_eq]
  exact ⟨_, rfl, rfl⟩

theorem exec_creditResetAck (hs : (s.link k).state = .handshake) :
    exec (.creditResetAck ⟨k⟩) s = .next (s.modLink k (fun y => { y with gotAck := true })) := by
  change execCreditResetAck ⟨k⟩ s = _
  unfold execCreditResetAck
  rw [if_neg (by simp [hd, hs])]

theorem exec_chainLinkUp (hs : (s.link k).state = .handshake) (hr : (s.link k).gotReset = true) (hack : (s.link k).gotAck = true) :
    exec (.chainLinkUp ⟨k⟩) s = .next ((s.modLink k (fun x => { x with state := .up })).atNext (fun s =>
      s.raise pfFn 0x0500 (le 1 k.val ++ le 1 1 ++ le 1 0))) := by
  change execChainLinkUp ⟨k⟩ s = _
  unfold execChainLinkUp
  dsimp only
  rw [if_neg (by simp [hd, hs, hr, hack])]

/-! ### NAK, timeout, loss and retuning (R498, R499, R518) -/

theorem exec_nak (hup : (s.link k).isUp = true) (a : U16) :
    exec (.nak ⟨k, a⟩) s = .next ((s.modLink k (fun x => x.acked a.toNat)).replayLink k) := by
  change execNak ⟨k, a⟩ s = _
  unfold execNak
  rw [if_neg (by simp [hd, hup])]

theorem exec_replayTimeout (hup : (s.link k).isUp = true) (hr : (s.link k).replay ≠ []) :
    exec (.replayTimeout ⟨k⟩) s = .next (s.replayLink k) := by
  change execReplayTimeout ⟨k⟩ s = _
  unfold execReplayTimeout
  rw [if_neg (by simp [hd, hup, hr])]

theorem exec_chainLinkState (c : LinkDownCause) : exec (.chainLinkState ⟨k, c⟩) s = .next (s.linkDown k (downCode c)) := by
  change execChainLinkState ⟨k, c⟩ s = _
  unfold execChainLinkState
  rw [if_neg (by simp [hd])]

theorem exec_equalisationRetune (hup : (s.link k).isUp = true) (hdue : ∀ t, (s.link k).eqTick = some t → t + 600 ≤ s.clk.tick) :
    exec (.equalisationRetune ⟨k⟩) s = .next (s.modLink k (fun y => { y with eqTick := some s.clk.tick })) := by
  have hexec : exec (.equalisationRetune ⟨k⟩) s = execEqualisationRetune ⟨k⟩ s := rfl
  rw [hexec]
  unfold execEqualisationRetune
  dsimp only
  rw [if_neg]
  cases ht : (s.link k).eqTick with
  | none => simp [hd, hup]
  | some t => simp [hd, hup, hdue t ht]

end

section
variable {s : State} {k : Link}

theorem exec_creditReset_idle {i : CreditResetIn} (hi : i.link = k) (hs : (s.link k).state ≠ .handshake) : exec (.creditReset i) s = .next s := by
  subst hi
  change execCreditReset i s = _
  unfold execCreditReset
  rw [if_pos (by simp [hs])]

theorem exec_creditResetAck_idle (hs : (s.link k).state ≠ .handshake) : exec (.creditResetAck ⟨k⟩) s = .next s := by
  change execCreditResetAck ⟨k⟩ s = _
  unfold execCreditResetAck
  rw [if_pos (by simp [hs])]

theorem exec_chainLinkUp_idle (h : (s.link k).state ≠ .handshake ∨ (s.link k).gotReset = false ∨ (s.link k).gotAck = false) :
    exec (.chainLinkUp ⟨k⟩) s = .next s := by
  change execChainLinkUp ⟨k⟩ s = _
  unfold execChainLinkUp
  dsimp only
  rw [if_pos (by rcases h with h | h | h <;> simp [h])]

theorem exec_replayTimeout_idle (hr : (s.link k).replay = []) : exec (.replayTimeout ⟨k⟩) s = .next s := by
  change execReplayTimeout ⟨k⟩ s = _
  unfold execReplayTimeout
  rw [if_pos (by simp [hr])]

theorem exec_equalisationRetune_early {t : Nat} (ht : (s.link k).eqTick = some t) (hearly : s.clk.tick < t + 600) :
    exec (.equalisationRetune ⟨k⟩) s = .next s := by
  have hexec : exec (.equalisationRetune ⟨k⟩) s = execEqualisationRetune ⟨k⟩ s := rfl
  rw [hexec]
  unfold execEqualisationRetune
  dsimp only
  rw [ht, if_pos (by simp [hearly])]

end

/-- What a train leaves behind of the state before it (R499, R504). -/
theorem State.linkDown_leaves (s : State) (k : Link) (cause : Nat) : (s.linkDown k cause).clk = s.clk ∧ (s.linkDown k cause).work = s.work ∧
    (∀ j, j ≠ k → (s.linkDown k cause).link j = s.link j) ∧ ((s.linkDown k cause).link k).state = .down := by
  obtain ⟨hclk, hwork, -⟩ := (State.linkDown_onlyRaises (s := s) (k := k) cause).leaves
  obtain ⟨hclk', -, hwork', -⟩ := s.dropLink_leaves k
  refine ⟨hclk.trans hclk', hwork.trans hwork', fun j hj => ?_, ?_⟩
  · rw [State.link_linkDown, State.link_dropLink_ne _ _ hj]
  · rw [State.link_linkDown, State.link_dropLink_state]

/-- Settles O46: a link's own commands are updates of that link; a link down is the same whatever took it down. -/
theorem chainLinksTrainAndReplay : Obligations.ChainLinksTrainAndReplay := by
  unfold Obligations.ChainLinksTrainAndReplay
  intro s k hd x sent goesDown replays
  have hdown {i : Instr} {y z : LinkSt} {code : Nat} (hz : z.isUp = true) (hr : z.replay = y.replay) (hq : z.queue = y.queue)
      (h : exec i s = .next ((s.modLink k (fun _ => z)).linkDown k code)) : goesDown i y code := by
    have hself : (s.modLink k (fun _ => z)).link k = z := State.link_modLink s k _
    have hup : ((s.modLink k (fun _ => z)).link k).isUp = true := by rw [hself, hz]
    obtain ⟨hstate, hreplay, hqueue, hothers, hclk, hwork, hdram, hnacks⟩ := State.linkDown_spec hup code
    obtain ⟨e, hheld, he⟩ := State.linkDown_raises hup code
    rw [hself, hr, hq] at hnacks
    exact ⟨_, h, hstate, hreplay, hqueue, fun j hj => (hothers j hj).trans (State.link_modLink_ne s _ hj), hclk, hwork, hdram, hnacks, [e], hheld,
      e, List.mem_singleton_self e, he⟩
  have hreplays {i : Instr} {y : LinkSt} (hy : y.isUp = true) (hstate : y.state = x.state) (htx : y.txSeq = x.txSeq)
      (hrx : y.rxExpect = x.rxExpect) (h : exec i s = .next ((s.modLink k (fun _ => y)).replayLink k)) :
      (y.noProgress < 7 → replays i y) ∧ (7 ≤ y.noProgress → goesDown i y 3) := by
    obtain ⟨hcount, hreplay, hqueue, hst, htx', hrx', hsent⟩ := y.replayAll_spec
    rw [State.replayLink_eq, State.link_modLink, State.modLink_modLink] at h
    refine ⟨fun hlt => ?_, fun hge => ?_⟩
    · rw [if_neg (Nat.not_le.2 hlt)] at h
      exact ⟨_, h, hcount, hreplay, hqueue, hst.trans hstate, htx'.trans htx, hrx'.trans hrx, hsent⟩
    · rw [if_pos hge] at h
      exact hdown (LinkSt.isUp_iff.2 (hst.trans (LinkSt.isUp_iff.1 hy))) hreplay hqueue h
  refine ⟨fun f ha => ⟨fun hbad => ?_, fun m hgood hm => ?_⟩, fun i hi => ⟨fun hs => exec_creditReset_idle hi hs, fun hs => ?_⟩,
    ⟨exec_creditResetAck hd, fun hs => ⟨exec_creditResetAck_idle hs, exec_chainLinkUp_idle (.inl hs)⟩,
      fun h => exec_chainLinkUp_idle (.inr h), fun hs hr hack => ?_⟩, fun hup => ?_⟩
  · refine ⟨_, exec_train_miswired hd ha hbad, ?_⟩
    obtain ⟨hclk, hwork, hothers, hstate⟩ := s.linkDown_leaves k (downCode .peerTrain)
    obtain ⟨honly, hraised⟩ := State.atNext_raiseFull (s.linkDown k (downCode .peerTrain)) pfFn 0x0501 (severityOf 0x0501) 0xFFFF 0xFFFF 0xFF
      (fun _ => le 1 k.val ++ le 1 f.moduleNo.toNat ++ le 1 f.tray.toNat ++ le 1 f.slot.toNat ++ le 1 f.link.toNat)
    rw [hclk] at hraised
    obtain ⟨hclk', hwork', hchain', -⟩ := honly.leaves
    have hlink : ∀ j, (execTrain.miswire ⟨k, f⟩ (s.linkDown k (downCode .peerTrain))).link j = (s.linkDown k (downCode .peerTrain)).link j :=
      fun j => congrArg (fun c : Chain => c.links.get j) hchain'
    exact ⟨(congrArg LinkSt.state (hlink k)).trans hstate, .of_host (.after (State.linkDown_onlyRaises _) hraised) (s.dropLink_leaves k).2.1,
      fun j hj => (hlink j).trans (hothers j hj), hclk'.trans hclk, hwork'.trans hwork⟩
  · obtain ⟨z, p, q, hexec, hstate, hpeer, htx, hrx, hreset, hack, hp, hq⟩ := exec_train hd ha hgood hm
    obtain ⟨hclk, hwork, hothers, -⟩ := s.linkDown_leaves k (downCode .peerTrain)
    have hself : ((s.linkDown k (downCode .peerTrain)).modLink k (fun _ => (z.emit p).emit q)).link k = (z.emit p).emit q :=
      State.link_modLink _ k _
    refine ⟨_, hexec, ?_⟩
    have hlink : ∀ j, State.link (((s.linkDown k (downCode .peerTrain)).modLink k (fun _ => (z.emit p).emit q)).modPeer m
        (fun x => { x with offset := (f.tick.toNat : Int) - s.clk.tick, heard := false })) j =
      ((s.linkDown k (downCode .peerTrain)).modLink k (fun _ => (z.emit p).emit q)).link j := fun _ => rfl
    rw [hlink, hself]
    refine ⟨hstate, hpeer, htx, hrx, hreset, hack, congrArg Peer.offset (vget_set_self _ m _), ?_,
      fun j hj => (hlink j).trans ((State.link_modLink_ne _ _ hj).trans (hothers j hj)), hclk, hwork, fun hup => ?_⟩
    · change [q.type, p.type] = [4, 7]
      rw [hp, hq]
    · obtain ⟨e, hheld, hcode, htick, -⟩ := State.linkDown_raises hup (downCode .peerTrain)
      exact ⟨[e], hheld, e, List.mem_singleton_self e, hcode, htick⟩
  · obtain ⟨p, hp, hexec⟩ := exec_creditReset hd hi hs
    exact ⟨_, hexec, rfl, rfl, rfl, hs, rfl, rfl, rfl, _, rfl, hp⟩
  · refine ⟨_, exec_chainLinkUp hd hs hr hack, ?_⟩
    obtain ⟨honly, hraised⟩ := State.atNext_raiseFull (s.modLink k (fun x => { x with state := .up })) pfFn 0x0500 (severityOf 0x0500)
      0xFFFF 0xFFFF 0xFF (fun _ => le 1 k.val ++ le 1 1 ++ le 1 0)
    obtain ⟨hclk, hwork, hchain, -⟩ := honly.leaves
    have hlink : ∀ j, State.link ((s.modLink k (fun x => { x with state := .up })).atNext (fun s =>
        s.raise pfFn 0x0500 (le 1 k.val ++ le 1 1 ++ le 1 0))) j = (s.modLink k (fun x => { x with state := .up })).link j :=
      fun j => congrArg (fun c : Chain => c.links.get j) hchain
    refine ⟨?_, ?_, fun j hj => (hlink j).trans (State.link_modLink_ne _ _ hj), .of_host hraised rfl, hclk, hwork⟩
    · rw [hlink, State.link_modLink]
    · rw [hlink, State.link_modLink]
  · refine ⟨fun a => ?_, fun hr hlt => ?_, fun hr hge => ?_, exec_replayTimeout_idle, fun c => ?_,
      fun hnone => exec_equalisationRetune hd hup (by rw [hnone]; simp),
      fun t ht => ⟨exec_equalisationRetune_early ht, fun hdue => exec_equalisationRetune hd hup (by
        rw [show (s.link k).eqTick = some t from ht]
        rintro t' ⟨⟩
        exact hdue)⟩⟩
    · exact hreplays (y := x.acked a.toNat) hup rfl rfl rfl (exec_nak hd hup a)
    · exact (hreplays (y := x) hup rfl rfl rfl (by rw [State.modLink_self]; exact exec_replayTimeout hd hup hr)).1 hlt
    · exact (hreplays (y := x) hup rfl rfl rfl (by rw [State.modLink_self]; exact exec_replayTimeout hd hup hr)).2 hge
    · exact hdown (z := x) hup rfl rfl (by rw [State.modLink_self]; exact exec_chainLinkState hd c)

end Sys2Proof.Machine
end


section
/-! DATA over chain links (O47). -/

namespace Sys2Proof.Machine

/-! ### What sending and acknowledging leave of a link -/

/-- Two links with one peer, one state and one number expected. -/
def SameEnd (x y : LinkSt) : Prop := y.peer = x.peer ∧ y.state = x.state ∧ y.rxExpect = x.rxExpect

theorem SameEnd.trans {x y z : LinkSt} (h : SameEnd x y) (h' : SameEnd y z) : SameEnd x z :=
  ⟨h'.1.trans h.1, h'.2.1.trans h.2.1, h'.2.2.trans h.2.2⟩

theorem LinkSt.pump_sameEnd (fuel : Nat) (x : LinkSt) : SameEnd x (LinkSt.pump fuel x) := by
  induction fuel generalizing x with
  | zero => exact ⟨rfl, rfl, rfl⟩
  | succ fuel ih =>
    unfold LinkSt.pump
    split
    · exact ⟨rfl, rfl, rfl⟩
    · split
      · dsimp only
        split
        · exact ⟨rfl, rfl, rfl⟩
        · exact SameEnd.trans ⟨rfl, rfl, rfl⟩ (ih _)
      · exact SameEnd.trans ⟨rfl, rfl, rfl⟩ (ih _)

theorem LinkSt.send_sameEnd (x : LinkSt) (r : Replay) : SameEnd x (x.send r) :=
  SameEnd.trans (y := { x with queue := x.queue ++ [r] }) ⟨rfl, rfl, rfl⟩ (LinkSt.pump_sameEnd _ _)

theorem LinkSt.takeHeader_sameEnd (x : LinkSt) (ackSeq : Nat) (vc : Fin 4) (n : Nat) : SameEnd x (x.takeHeader ackSeq vc n) := by
  unfold LinkSt.takeHeader
  split
  · exact SameEnd.trans (y := (x.acked ackSeq).credited vc n) ⟨rfl, rfl, rfl⟩ (LinkSt.pump_sameEnd _ _)
  · exact ⟨rfl, rfl, rfl⟩

/-! ### Routes (R505) -/

section
variable {s t : State} (hlinks : ∀ j, (t.link j).peer = (s.link j).peer ∧ (t.link j).state = (s.link j).state)
include hlinks

theorem State.linkOf?_congr (m : Nat) : t.linkOf? m = s.linkOf? m := by
  unfold State.linkOf?
  exact congrArg (fun p => allLinks.find? p) (funext fun k => by rw [(hlinks k).1])

theorem State.primaryLink?_congr (m : Nat) : t.primaryLink? m = s.primaryLink? m := by
  unfold State.primaryLink?
  rw [State.linkOf?_congr hlinks]
  split
  · unfold LinkSt.isUp
    rw [(hlinks _).2]
  · rfl

/-- Routes follow the peers and states of the links, and the table. -/
theorem State.outLink?_congr (hroutes : t.chain.routes = s.chain.routes) (m : Nat) : t.outLink? m = s.outLink? m := by
  unfold State.outLink? State.altLink? State.route?
  rw [State.primaryLink?_congr hlinks, hroutes, show t.linkOf? = s.linkOf? from funext (State.linkOf?_congr hlinks)]
  congr 2
  split
  · unfold LinkSt.isUp
    rw [(hlinks _).2]
  · rfl

end

/-! ### Receiving DATA (R497, R502, R506) -/

section
variable {s : State} {i : ChainDataIn} (hd : s.dead = false) (hup : (s.link i.link).isUp = true)
include hd hup

/-- A packet that is damaged or out of order is answered with a NAK. -/
theorem exec_chainData_nak (hbad : crcOk i = false ∨ i.linkSeq.toNat ≠ (s.link i.link).rxExpect) : exec (.chainData i) s =
    .next (s.modLink i.link (fun x => x.emit (s.linkPacket i.link 3 []))) := by
  change execChainData i s = _
  unfold execChainData
  dsimp only
  rw [if_neg (by simp [hd, hup]), if_pos (by rcases hbad with h | h <;> simp [h])]

/-- The state once a good packet's header has been taken. -/
def State.takenHeader (s : State) (i : ChainDataIn) : State :=
  s.modLink i.link (fun x => ({ x with rxExpect := (x.rxExpect + 1) % 65536 }.freed i.vc).takeHeader i.ackSeq.toNat i.creditVc i.creditCount)

theorem exec_chainData (hcrc : crcOk i = true) (hseq : i.linkSeq.toNat = (s.link i.link).rxExpect) : exec (.chainData i) s =
    .next (if epochFresh (s.peer i.srcModule).epoch i.epoch.toNat = false then s.takenHeader i
      else if i.dstModule.val = s.boot.moduleNo then (s.takenHeader i).takeData i else (s.takenHeader i).forward i) := by
  change execChainData i s = _
  unfold execChainData
  dsimp only
  rw [if_neg (by simp [hd, hup]), if_neg (by simp [hcrc, hseq])]
  simp only [Bool.not_eq_true']
  rfl

end

theorem State.takenHeader_links (s : State) (i : ChainDataIn) : (∀ j, ((s.takenHeader i).link j).peer = (s.link j).peer ∧
    ((s.takenHeader i).link j).state = (s.link j).state) ∧ ((s.takenHeader i).link i.link).rxExpect = ((s.link i.link).rxExpect + 1) % 65536 ∧
    ∀ j, j ≠ i.link → (s.takenHeader i).link j = s.link j := by
  obtain ⟨hpeer, hstate, hrx⟩ := LinkSt.takeHeader_sameEnd ({ s.link i.link with rxExpect := ((s.link i.link).rxExpect + 1) % 65536 }.freed i.vc)
    i.ackSeq.toNat i.creditVc i.creditCount
  have hothers : ∀ j, j ≠ i.link → (s.takenHeader i).link j = s.link j := fun j hj => State.link_modLink_ne _ _ hj
  have hself := State.link_modLink s i.link (fun x => ({ x with rxExpect := (x.rxExpect + 1) % 65536 }.freed i.vc).takeHeader
    i.ackSeq.toNat i.creditVc i.creditCount)
  refine ⟨fun j => ?_, ?_, hothers⟩
  · by_cases hj : j = i.link
    · subst hj
      exact ⟨(congrArg LinkSt.peer hself).trans hpeer, (congrArg LinkSt.state hself).trans hstate⟩
    · rw [hothers j hj]
      exact ⟨rfl, rfl⟩
  · exact (congrArg LinkSt.rxExpect hself).trans hrx

theorem State.takeData_stale {s : State} {i : ChainDataIn} (h : e2eStale (s.e2eOf i.srcModule.val) i.e2eSeq.toNat = true) :
    s.takeData i = s := by
  unfold State.takeData
  dsimp only
  rw [if_pos h]

/-- A packet for this module is delivered, once. -/
theorem State.takeData_new {s : State} {i : ChainDataIn} (h : e2eStale (s.e2eOf i.srcModule.val) i.e2eSeq.toNat = false) :
    ∃ seen, s.takeData i = s.withChain { s.chain with
      e2eSeen := seen
      accepted := (i.srcModule.val, i.e2eSeq.toNat, i.dstNode.toNat) :: s.chain.accepted
      incoming := s.chain.incoming ++ i.mirror.toList } := by
  unfold State.takeData
  dsimp only
  rw [if_neg (by simp [h])]
  exact ⟨_, rfl⟩

/-- A packet for another module goes on by its route, or returns as a NACK. -/
theorem State.forward_spec (s : State) (i : ChainDataIn) : ∃ r : Replay, r.srcModule = i.srcModule.val ∧ r.dstModule = i.dstModule.val ∧
    r.e2eSeq = i.e2eSeq.toNat ∧ r.payload = i.payload ∧ s.forward i = match s.outLink? i.dstModule.val with
      | some k => s.modLink k (fun x => x.send r)
      | none => s.withChain { s.chain with nacks := s.chain.nacks ++ [r] } :=
  ⟨_, rfl, rfl, rfl, rfl, rfl⟩

/-! ### NACK (R501) -/

section
variable {s : State} {i : NackIn} (hd : s.dead = false)
include hd

theorem exec_nack : ∃ (r : Replay) (nacks : List Replay), r.dstModule = i.dstModule.val ∧ r.e2eSeq = i.e2eSeq.toNat ∧
    r.srcNode = i.srcNode.toNat ∧ exec (.nack i) s = .next (match s.altLink? i.dstModule.val <|> s.primaryLink? i.dstModule.val with
      | some k => (s.withChain { s.chain with nacks := nacks }).modLink k (fun x => x.send r)
      | none => (s.withChain { s.chain with nacks := nacks }).jobFault i.job none
          ⟨.chainLink, ((s.linkOf? i.dstModule.val).map (·.val)).getD 0⟩) := by
  have hexec : exec (.nack i) s = execNack i s := rfl
  rw [hexec]
  unfold execNack
  dsimp only
  rw [if_neg (by simp [hd])]
  generalize hmine : (fun r : Replay => r.dstModule == i.dstModule.val && r.e2eSeq == i.e2eSeq.toNat && r.srcNode == i.srcNode.toNat) = mine
  cases hf : s.chain.nacks.find? mine with
  | none => exact ⟨_, _, rfl, rfl, rfl, rfl⟩
  | some r =>
    have hr := List.find?_some hf
    rw [← hmine] at hr
    simp only [Bool.and_eq_true, beq_iff_eq] at hr
    exact ⟨r, _, hr.1.1, hr.1.2, hr.2, rfl⟩

end

/-- A fault of a job is one note of its class. -/
theorem State.jobFault_spec (s : State) (job : Option FrameRef) (cls : Option FaultClass) (unit : UnitRef) : ∃ n : FaultNote, n.cls = cls ∧
    s.jobFault job cls unit = { s with safety := { s.safety with faults := s.safety.faults ++ [n] } } := by
  cases job <;> exact ⟨_, rfl, rfl⟩

theorem State.takenHeader_leaves (s : State) (i : ChainDataIn) : (s.takenHeader i).chain.routes = s.chain.routes ∧
    (s.takenHeader i).chain.accepted = s.chain.accepted ∧ (s.takenHeader i).chain.incoming = s.chain.incoming ∧
    (s.takenHeader i).chain.nacks = s.chain.nacks ∧ ∀ n, (s.takenHeader i).e2eOf n = s.e2eOf n := ⟨rfl, rfl, rfl, rfl, fun _ => rfl⟩

/-- What going on leaves: the network's own parts as they were, and each link the same end of the same peer. -/
theorem State.forward_leaves (s : State) (i : ChainDataIn) : (s.forward i).clk = s.clk ∧ (s.forward i).work = s.work ∧
    (s.forward i).dram = s.dram ∧ (s.forward i).chain.accepted = s.chain.accepted ∧ (s.forward i).chain.incoming = s.chain.incoming ∧
    ∀ j, ((s.forward i).link j).rxExpect = (s.link j).rxExpect := by
  obtain ⟨r, -, -, -, -, hr⟩ := s.forward_spec i
  rw [hr]
  split
  next k _ =>
    refine ⟨rfl, rfl, rfl, rfl, rfl, fun j => ?_⟩
    by_cases hj : j = k
    · subst hj
      rw [State.link_modLink]
      exact ((s.link j).send_sameEnd r).2.2
    · rw [State.link_modLink_ne _ _ hj]
  next => exact ⟨rfl, rfl, rfl, rfl, rfl, fun _ => rfl⟩

/-- A good packet takes one of three ways: it is old, it is for this module, or it goes on. -/
theorem exec_chainData_spec {s : State} {i : ChainDataIn} (hd : s.dead = false) (hup : (s.link i.link).isUp = true) (hcrc : crcOk i = true)
    (hseq : i.linkSeq.toNat = (s.link i.link).rxExpect) :
    ∃ t, exec (.chainData i) s = .next t ∧ t.clk = s.clk ∧ t.work = s.work ∧ t.dram = s.dram ∧
      (t.link i.link).rxExpect = ((s.takenHeader i).link i.link).rxExpect ∧
      (epochFresh (s.peer i.srcModule).epoch i.epoch.toNat = false → t = s.takenHeader i) ∧
      (epochFresh (s.peer i.srcModule).epoch i.epoch.toNat = true → i.dstModule.val = s.boot.moduleNo → t = (s.takenHeader i).takeData i) ∧
      (epochFresh (s.peer i.srcModule).epoch i.epoch.toNat = true → i.dstModule.val ≠ s.boot.moduleNo → t = (s.takenHeader i).forward i) := by
  refine ⟨_, exec_chainData hd hup hcrc hseq, ?_⟩
  by_cases hfresh : epochFresh (s.peer i.srcModule).epoch i.epoch.toNat = false
  · rw [if_pos hfresh]
    exact ⟨rfl, rfl, rfl, rfl, fun _ => rfl, fun h => by simp [hfresh] at h, fun h => by simp [hfresh] at h⟩
  · rw [if_neg hfresh]
    by_cases hdst : i.dstModule.val = s.boot.moduleNo
    · rw [if_pos hdst]
      cases hstale : e2eStale ((s.takenHeader i).e2eOf i.srcModule.val) i.e2eSeq.toNat with
      | true =>
        rw [State.takeData_stale hstale]
        exact ⟨rfl, rfl, rfl, rfl, fun h => absurd h hfresh, fun _ _ => rfl, fun _ h => absurd hdst h⟩
      | false =>
        obtain ⟨seen, hnew⟩ := State.takeData_new hstale
        rw [hnew]
        exact ⟨rfl, rfl, rfl, rfl, fun h => absurd h hfresh, fun _ _ => rfl, fun _ h => absurd hdst h⟩
    · rw [if_neg hdst]
      obtain ⟨hclk, hwork, hdram, -, -, hrx⟩ := (s.takenHeader i).forward_leaves i
      exact ⟨hclk, hwork, hdram, hrx i.link, fun h => absurd h hfresh, fun _ h => absurd h hdst, fun _ _ => rfl⟩

/-- Settles O47: a good packet advances the number expected and then takes one of three ways; a NACK is sent again once or faults. -/
theorem chainDataIsCarriedOnce : Obligations.ChainDataIsCarriedOnce := by
  unfold Obligations.ChainDataIsCarriedOnce
  intro s hd
  refine ⟨fun i => ?_, fun i => ?_⟩
  · intro k x d fresh stale hup
    refine ⟨fun hbad => ⟨_, _, exec_chainData_nak hd hup hbad, rfl, rfl, rfl, rfl, rfl, rfl, rfl⟩, fun hcrc hseq => ?_⟩
    obtain ⟨t, hexec, hclk, hwork, hdram, hrx, hold, hhere, hon⟩ := exec_chainData_spec hd hup hcrc hseq
    obtain ⟨hends, hrx', hothers⟩ := s.takenHeader_links i
    obtain ⟨r, hsrc, hdst, he2e, hpay, hfwd⟩ := (s.takenHeader i).forward_spec i
    rw [State.outLink?_congr hends rfl] at hfwd
    refine ⟨t, hexec, hclk, hwork, hdram, hrx.trans hrx', fun hno => ?_, fun hf hme hnew => ?_, fun hf hme hout => ?_, fun j hf hme hout hj => ?_⟩
    · by_cases hf : fresh = false
      · rw [hold hf]
        exact ⟨rfl, rfl⟩
      · have hf' : fresh = true := by simpa using hf
        by_cases hme : d = s.boot.moduleNo
        · have hstale : stale = true := (hno.resolve_left hf).resolve_left (not_not_intro hme)
          rw [hhere hf' hme, State.takeData_stale (s := s.takenHeader i) hstale]
          exact ⟨rfl, rfl⟩
        · rw [hon hf' hme]
          obtain ⟨-, -, -, hacc, hinc, -⟩ := (s.takenHeader i).forward_leaves i
          exact ⟨hacc, hinc⟩
    · obtain ⟨seen, hn⟩ := State.takeData_new (s := s.takenHeader i) (i := i) hnew
      rw [hhere hf hme, hn]
      exact ⟨rfl, rfl⟩
    · rw [hon hf hme, hfwd, hout]
      exact ⟨r, rfl, hdst, he2e, hpay⟩
    · rw [hon hf hme, hfwd, hout]
      refine ⟨r, ?_, hsrc, hdst, hpay⟩
      rw [State.link_modLink, hothers j hj]
  · intro d
    obtain ⟨r, nacks, hdst, he2e, hsrc, hexec⟩ := exec_nack hd (i := i)
    refine ⟨fun halt hprim => ?_, fun k hk => ?_⟩
    · rw [halt, hprim] at hexec
      obtain ⟨n, hcls, hn⟩ := (s.withChain { s.chain with nacks := nacks }).jobFault_spec i.job none
        ⟨.chainLink, ((s.linkOf? i.dstModule.val).map (·.val)).getD 0⟩
      exact ⟨_, n, hexec, by rw [hn]; rfl, by rw [hn]; rfl, by rw [hn]; rfl, by rw [hn]; rfl, hcls⟩
    · have hroute : (s.altLink? d <|> s.primaryLink? d) = some k := by
        rcases hk with h | ⟨h, h'⟩
        · rw [h]
          rfl
        · rw [h, h']
          rfl
      rw [hroute] at hexec
      exact ⟨_, r, hexec, State.link_modLink _ k _, hdst, he2e, hsrc, fun j hj => State.link_modLink_ne _ _ hj, rfl, rfl⟩

end Sys2Proof.Machine
end


section
/-! Peers, the buddy and mirrors (O48). -/

namespace Sys2Proof.Machine

/-! ### What telling, and forgetting what runs elsewhere, keeps -/

/-- What holds between states of which the second differs by events, by works that end, and by what the module keeps of other modules'
streams: the time, DRAM, links, peers, mirrors, re-homings and grants are the same. -/
structure PeersKept (s t : State) : Prop where
  clk : t.clk = s.clk
  dram : t.dram = s.dram
  links : t.chain.links = s.chain.links
  peers : t.chain.peers = s.chain.peers
  mirrors : t.chain.mirrors = s.chain.mirrors
  incoming : t.chain.incoming = s.chain.incoming
  rehoming : t.chain.rehoming = s.chain.rehoming
  grants : t.chain.grants = s.chain.grants
  grows : ∀ f, ∃ es, (t.fnSt f).eventHeld = (s.fnSt f).eventHeld ++ es

theorem PeersKept.of_fns {s t : State} (hclk : t.clk = s.clk) (hdram : t.dram = s.dram) (hfns : t.host.fns = s.host.fns)
    (hchain : ∃ b c d e m, t.chain = { s.chain with buddy := b, formerBuddy := c, capturing := d, mirrorDue := e, migrations := m }) :
    PeersKept s t := by
  obtain ⟨b, c, d, e, m, hc⟩ := hchain
  refine ⟨hclk, hdram, by rw [hc], by rw [hc], by rw [hc], by rw [hc], by rw [hc], by rw [hc], fun f => ⟨[], ?_⟩⟩
  rw [State.fnSt, hfns, List.append_nil]
  rfl

theorem PeersKept.refl (s : State) : PeersKept s s := .of_fns rfl rfl rfl ⟨_, _, _, _, _, rfl⟩

theorem PeersKept.trans {s t u : State} (h : PeersKept s t) (k : PeersKept t u) : PeersKept s u where
  clk := k.clk.trans h.clk
  dram := k.dram.trans h.dram
  links := k.links.trans h.links
  peers := k.peers.trans h.peers
  mirrors := k.mirrors.trans h.mirrors
  incoming := k.incoming.trans h.incoming
  rehoming := k.rehoming.trans h.rehoming
  grants := k.grants.trans h.grants
  grows f := by
    obtain ⟨es, hes⟩ := h.grows f
    obtain ⟨es', hes'⟩ := k.grows f
    exact ⟨es ++ es', by rw [hes', hes, List.append_assoc]⟩

theorem PeersKept.foldl {α : Type} {g : State → α → State} (hg : ∀ s a, PeersKept s (g s a)) (l : List α) (s : State) :
    PeersKept s (l.foldl g s) :=
  List.foldlRecOn (motive := fun t => PeersKept s t) l _ (.refl s) fun t ht a _ => ht.trans (hg t a)

theorem OnlyRaises.peersKept {s t : State} (h : OnlyRaises s t) : PeersKept s t where
  clk := h.leaves.1
  dram := h.leaves.2.2.2.1
  links := by rw [h.leaves.2.2.1]
  peers := by rw [h.leaves.2.2.1]
  mirrors := by rw [h.leaves.2.2.1]
  incoming := by rw [h.leaves.2.2.1]
  rehoming := by rw [h.leaves.2.2.1]
  grants := by rw [h.leaves.2.2.1]
  grows := h.grows

/-- What happens as of the coming commit keeps the time. -/
theorem PeersKept.backTo {s t : State} (h : PeersKept s.coming t) : PeersKept s (t.backTo s.clk) where
  clk := State.clk_backTo h.clk
  dram := h.dram
  links := h.links
  peers := h.peers
  mirrors := h.mirrors
  incoming := h.incoming
  rehoming := h.rehoming
  grants := h.grants
  grows := h.grows

/-- An event stays raised whatever is told after it. -/
theorem Raised.kept {s t u : State} {f : Fn} {code tick : Nat} (h : Raised s t f code tick) (k : PeersKept t u) : Raised s u f code tick := by
  obtain ⟨es, hes, e, he, hcode, htick⟩ := h
  obtain ⟨es', hes'⟩ := k.grows f
  exact ⟨es ++ es', by rw [hes', hes, List.append_assoc], e, List.mem_append_left _ he, hcode, htick⟩

theorem PeersKept.link {s t : State} (h : PeersKept s t) (k : Link) : t.link k = s.link k := by
  rw [State.link, h.links]
  rfl

theorem PeersKept.peer {s t : State} (h : PeersKept s t) (m : ModuleNo) : t.peer m = s.peer m := by
  rw [State.peer, h.peers]
  rfl

theorem State.reviseBuddy_peersKept (s : State) : PeersKept s s.reviseBuddy ∧ s.reviseBuddy.work = s.work := by
  unfold State.reviseBuddy
  dsimp only
  split
  · exact ⟨.refl s, rfl⟩
  · exact ⟨(State.raiseFull_onlyRaises s _ _ _ _ _ _ _).peersKept.trans (.of_fns rfl rfl rfl ⟨_, _, _, _, _, rfl⟩), rfl⟩

theorem State.endRemoteFrames_peersKept (s : State) (x : Stream) : PeersKept s (s.endRemoteFrames x) :=
  .foldl (g := fun s (f : Frame) => s.remoteDue { handle := x.handle, seq := f.seq, records := none })
    (fun _ _ => .of_fns rfl rfl rfl ⟨_, _, _, _, _, rfl⟩) _ s

theorem State.dropMigrations_peersKept (s : State) (m : Nat) : PeersKept s (s.dropMigrations m) := by
  unfold State.dropMigrations
  dsimp only
  refine PeersKept.trans (t := s.withChain { s.chain with
    migrations := s.chain.migrations.filter (fun g => !(g.target == m || g.decode == m)) }) (.of_fns rfl rfl rfl ⟨_, _, _, _, _, rfl⟩)
    (.foldl (fun t g => ?_) _ _)
  split
  · exact .of_fns rfl rfl rfl ⟨_, _, _, _, _, rfl⟩
  · exact .refl t

/-! ### PEER_TICK (R492, R493, R506) -/

section
variable {s : State} {i : PeerTickIn} {m : ModuleNo} (hm : flitModule i.flit = some m)
include hm

theorem exec_peerTick_down (hdown : (s.link i.link).state = .down) : exec (.peerTick i) s = .next s := by
  have hexec : exec (.peerTick i) s = execPeerTick i s := rfl
  rw [hexec]
  unfold execPeerTick
  rw [hm]
  dsimp only
  rw [if_pos (by simp [hdown])]

/-- The state once a tick's header has been taken. -/
def State.tickHeader (s : State) (i : PeerTickIn) : State :=
  s.modLink i.link (fun x => x.takeHeader i.ackSeq.toNat i.creditVc i.creditCount)

/-- What a peer's flit says of it. -/
def Peer.heardFrom (p : Peer) (i : PeerTickIn) (tick : Nat) : Peer :=
  { p with
    lastSeen := some tick, ready := i.flit.flags.getLsbD 0, evacuating := i.flit.flags.getLsbD 1, heard := true,
    lost := false, epoch := i.flit.routeEpoch.toNat,
    offset := if i.direct then (i.flit.tick.toNat : Int) - tick else p.offset }

theorem exec_peerTick (hd : s.dead = false) (hown : m.val ≠ s.boot.moduleNo) (hup : (s.link i.link).state ≠ .down) :
    exec (.peerTick i) s = .next (if i.dstModule.val ≠ s.boot.moduleNo then (s.tickHeader i).sendTick m.val i.dstModule.val i.flit
      else ((s.tickHeader i).modPeer m (fun p => p.heardFrom i s.clk.tick)).atNext State.reviseBuddy) := by
  have hexec : exec (.peerTick i) s = execPeerTick i s := rfl
  rw [hexec]
  unfold execPeerTick
  rw [hm]
  dsimp only
  rw [if_neg (by simp [hd, hup, hown])]
  rfl

end

theorem State.tickHeader_links (s : State) (i : PeerTickIn) : (∀ j, ((s.tickHeader i).link j).peer = (s.link j).peer ∧
    ((s.tickHeader i).link j).state = (s.link j).state) ∧ ∀ j, j ≠ i.link → (s.tickHeader i).link j = s.link j := by
  obtain ⟨hpeer, hstate, -⟩ := (s.link i.link).takeHeader_sameEnd i.ackSeq.toNat i.creditVc i.creditCount
  have hothers : ∀ j, j ≠ i.link → (s.tickHeader i).link j = s.link j := fun j hj => State.link_modLink_ne _ _ hj
  have hself := State.link_modLink s i.link (fun x => x.takeHeader i.ackSeq.toNat i.creditVc i.creditCount)
  refine ⟨fun j => ?_, hothers⟩
  by_cases hj : j = i.link
  · subst hj
    exact ⟨(congrArg LinkSt.peer hself).trans hpeer, (congrArg LinkSt.state hself).trans hstate⟩
  · rw [hothers j hj]
    exact ⟨rfl, rfl⟩

theorem LinkSt.emit_out (x : LinkSt) (p : ChainPacket) : ∃ q : ChainPacket, (x.emit p).out = q :: x.out ∧ q.type = p.type ∧
    q.srcModule = p.srcModule ∧ q.dstModule = p.dstModule ∧ q.payload = p.payload := ⟨_, rfl, rfl, rfl, rfl, rfl⟩

/-- A PEER_TICK goes out by the route to its module. -/
theorem State.sendTick_spec {s : State} {src dst : Nat} {f : PeerFlit} {k : Link} (h : s.outLink? dst = some k) : ∃ p : ChainPacket,
    s.sendTick src dst f = s.modLink k (fun x => x.emit p) ∧ p.type = 6 ∧ p.srcModule = src ∧ p.dstModule = dst ∧ p.payload = flitBytes f := by
  unfold State.sendTick
  rw [h]
  exact ⟨_, rfl, rfl, rfl, rfl, rfl⟩

/-! ### Mirrors (R513) -/

section
variable {s : State}

/-- Behind a commit at which no capture is due, or of a module with no buddy, nothing is captured. -/
theorem exec_mirrorCapture_none (hb : s.chain.buddy = none) : exec .mirrorCapture s = .next s := by
  change execMirrorCapture s = _
  unfold execMirrorCapture
  rw [hb]

/-- Whether a capture is due. -/
def State.captureDue (s : State) : Bool := s.chain.mirrorDue.any (fun n => decide (n ≤ s.clk.tick)) || s.clk.tick % 30 == 0

/-- Sending mirrors appends to what the chain sends, and changes nothing else. -/
theorem State.sendMirrors (b : Nat) (xs : List Stream) (s : State) : ∃ out,
    xs.foldl (fun s x => s.chainSend (.mirrorOf b (s.mirrorOf x))) s = s.withChain { s.chain with out := out } ∧
      (∀ o ∈ s.chain.out, o ∈ out) ∧ ∀ x ∈ xs, .mirrorOf b (s.mirrorOf x) ∈ out := by
  induction xs generalizing s with
  | nil => exact ⟨_, rfl, fun _ h => h, fun x hx => by simp at hx⟩
  | cons x xs ih =>
    obtain ⟨out, hfold, hkept, hsent⟩ := ih (s.chainSend (.mirrorOf b (s.mirrorOf x)))
    refine ⟨out, hfold, fun o ho => hkept o (List.mem_cons_of_mem _ ho), fun y hy => ?_⟩
    rcases List.mem_cons.1 hy with rfl | hy
    · exact hkept _ (List.mem_cons_self ..)
    · exact hsent y hy

theorem exec_mirrorCapture_early {b : Nat} (hb : s.chain.buddy = some b) (h : s.captureDue = false) : exec .mirrorCapture s = .next s := by
  have hexec : exec .mirrorCapture s = execMirrorCapture s := rfl
  unfold State.captureDue at h
  rw [hexec]
  unfold execMirrorCapture
  rw [hb]
  dsimp only
  rw [if_pos (by rw [h]; simp)]

theorem exec_mirrorCapture {b : Nat} (hr : s.isReady = true) (hb : s.chain.buddy = some b) (h : s.captureDue = true) : ∃ out,
    exec .mirrorCapture s = .next (s.withChain { s.chain with
      out := out, capturing := some (s.clk.tick, (s.work.streams.filter s.infersHere).map (·.handle)), mirrorDue := none }) ∧
      ∀ x ∈ s.work.streams.filter s.infersHere, .mirrorOf b (s.mirrorOf x) ∈ out := by
  obtain ⟨out, hfold, -, hsent⟩ := State.sendMirrors b (s.work.streams.filter s.infersHere) s
  have hexec : exec .mirrorCapture s = execMirrorCapture s := rfl
  unfold State.captureDue at h
  rw [hexec]
  unfold execMirrorCapture
  rw [hb]
  dsimp only
  rw [if_neg (by rw [hr, h]; simp), hfold]
  exact ⟨out, rfl, hsent⟩

theorem exec_mirrorAbandoned {i : ModuleIn} {t : Nat} {hs : List Nat} (hd : s.dead = false) (hc : s.chain.capturing = some (t, hs)) :
    exec (.mirrorAbandoned i) s = .next (if s.chain.buddy ≠ some i.moduleNo.val then s
      else (s.withChain { s.chain with capturing := none }).atNext (fun s => s.raise pfFn 0x0506
        (le 1 i.moduleNo.val ++ le 3 0 ++ le 4 hs.length ++ le 8 t))) := by
  have hexec : exec (.mirrorAbandoned i) s = execMirrorAbandoned i s := rfl
  rw [hexec]
  unfold execMirrorAbandoned
  rw [hc]
  dsimp only
  simp only [hd, Bool.false_or, bne_iff_ne]

end

/-! ### The loss of a peer (R514, R517) -/

section
variable {s : State} {i : ModuleIn} (hd : s.dead = false)
include hd

theorem exec_buddyRelease : exec (.buddyRelease i) s = .next ((s.withChain { s.chain with
    mirrors := s.chain.mirrors.filter (fun m => m.home != i.moduleNo.val),
    incoming := s.chain.incoming.filter (fun m => m.home != i.moduleNo.val) }).atNext State.reviseBuddy) := by
  have hexec : exec (.buddyRelease i) s = execBuddyRelease i s := rfl
  rw [hexec]
  unfold execBuddyRelease
  rw [if_neg (by simp [hd])]

theorem exec_chainPeerLost : exec (.chainPeerLost i) s =
    .next (if s.silent i.moduleNo = true then s.atNext (fun s => s.losePeer i.moduleNo) else s) := by
  have hexec : exec (.chainPeerLost i) s = execChainPeerLost i s := rfl
  rw [hexec]
  unfold execChainPeerLost
  cases h : s.silent i.moduleNo <;> simp [hd]

end

/-- The peer is lost: its mirrors are to be re-homed at the commit after, and its shares end. -/
def State.markLost (s : State) (m : ModuleNo) : State :=
  let s := (s.modPeer m (fun p => { p with lost := true, ready := false })).raise pfFn 0x0502 (le 1 m.val)
  let due := (s.lostMirrors m.val).map (fun x => (s.clk.tick + 1, m.val, x))
  s.withChain { s.chain with
    rehoming := s.chain.rehoming ++ due, mirrors := s.chain.mirrors.filter (fun x => x.home != m.val),
    incoming := s.chain.incoming.filter (fun x => x.home != m.val),
    grants := s.chain.grants.filter (fun g => g.home != m.val) }

theorem State.losePeer_peersKept (s : State) (m : ModuleNo) : PeersKept (s.markLost m) (s.losePeer m) := by
  have h : s.losePeer m = ((((s.markLost m).work.streams.filter (fun x => x.runsOn m.val)).foldl State.endRemoteFrames (s.markLost m)).dropMigrations
    m.val).reviseBuddy := rfl
  rw [h]
  exact (PeersKept.foldl State.endRemoteFrames_peersKept _ _).trans
    ((State.dropMigrations_peersKept _ _).trans (State.reviseBuddy_peersKept _).1)

theorem State.markLost_spec (s : State) (m : ModuleNo) : ((s.markLost m).peer m).lost = true ∧ ((s.markLost m).peer m).ready = false ∧
    Raised s (s.markLost m) pfFn 0x0502 s.clk.tick ∧
    (∀ x ∈ s.chain.mirrors, x.home = m.val → (s.clk.tick + 1, m.val, x) ∈ (s.markLost m).chain.rehoming) ∧
    (s.markLost m).chain.mirrors = s.chain.mirrors.filter (fun x => x.home != m.val) ∧
    (s.markLost m).chain.grants = s.chain.grants.filter (fun g => g.home != m.val) ∧ (s.markLost m).clk = s.clk ∧
    (s.markLost m).dram = s.dram ∧ (s.markLost m).chain.links = s.chain.links := by
  have hself : (s.markLost m).peer m = { s.peer m with lost := true, ready := false } := vget_set_self _ m _
  refine ⟨by rw [hself], by rw [hself], .of_host (State.raiseFull_raised (s.modPeer m (fun p => { p with lost := true, ready := false }))
    _ _ _ _ _ _ _) rfl, fun x hx hhome => ?_, rfl, rfl, rfl, rfl, rfl⟩
  refine List.mem_append_right _ (List.mem_map.2 ⟨x, List.mem_append_left _ (List.mem_filter.2 ⟨hx, ?_⟩), rfl⟩)
  simp [hhome]

/-- Settles O48: a peer's flit updates that peer; what follows it keeps peers, links and mirrors. -/
theorem peersAndMirrors : Obligations.PeersAndMirrors := by
  unfold Obligations.PeersAndMirrors
  intro s
  refine ⟨fun i m hd hm hown => ⟨exec_peerTick_down hm, fun hup hdst => ?_, fun k hup hdst hout hk => ?_⟩, fun b hr hb => ⟨fun hnot h30 => ?_, fun hdue => ?_⟩,
    exec_mirrorCapture_none, fun i t hs hd hc => ⟨fun hb => ?_, fun hb => ?_⟩, fun i hd => ?_, fun i n hd hheard hlost hseen => ⟨fun hearly => ?_, fun hlate => ?_⟩⟩
  · have hexec := exec_peerTick hm hd hown hup
    rw [if_neg (not_not_intro hdst)] at hexec
    refine ⟨_, hexec, ?_⟩
    have hkept := (State.reviseBuddy_peersKept ((s.tickHeader i).modPeer m (fun p => p.heardFrom i s.clk.tick)).coming).1.backTo
    have hself : (((s.tickHeader i).modPeer m (fun p => p.heardFrom i s.clk.tick)).atNext State.reviseBuddy).peer m =
      (s.peer m).heardFrom i s.clk.tick := (hkept.peer m).trans (vget_set_self _ m _)
    obtain ⟨hpk, hwork⟩ := State.reviseBuddy_peersKept ((s.tickHeader i).modPeer m (fun p => p.heardFrom i s.clk.tick)).coming
    rw [hself]
    refine ⟨rfl, rfl, rfl, rfl, rfl, rfl, fun hdir => ?_, fun hdir => ?_, fun n hn => (hkept.peer n).trans (vget_set_ne _ _ hn), hkept.clk,
      hwork, fun k hk => (hkept.link k).trans ((s.tickHeader_links i).2 k hk), hkept.mirrors⟩
    · unfold Peer.heardFrom
      rw [if_pos hdir]
    · unfold Peer.heardFrom
      rw [if_neg (by simp [hdir])]
  · have hexec := exec_peerTick hm hd hown hup
    rw [if_pos hdst] at hexec
    obtain ⟨hends, hothers⟩ := s.tickHeader_links i
    have hsend : (s.tickHeader i).outLink? i.dstModule.val = some k := (State.outLink?_congr hends rfl _).trans hout
    obtain ⟨p, hp, htype, hsrc, hdst', hpay⟩ := State.sendTick_spec (src := m.val) (f := i.flit) hsend
    obtain ⟨q, hq, htype', hsrc', hdst'', hpay'⟩ := (s.link k).emit_out p
    rw [hp] at hexec
    refine ⟨_, q, hexec, ?_, htype'.trans htype, hsrc'.trans hsrc, hdst''.trans hdst', hpay'.trans hpay, rfl, rfl⟩
    rw [State.link_modLink, hothers k hk, hq]
  · refine exec_mirrorCapture_early hb ?_
    unfold State.captureDue
    rw [beq_eq_false_iff_ne.2 h30, Bool.or_false, ← Bool.not_eq_true, Option.any_eq_true]
    rintro ⟨n, hn, hle⟩
    exact absurd (hnot n hn) (by simpa using hle)
  · have hcap : s.captureDue = true := by
      unfold State.captureDue
      rcases hdue with ⟨n, hn, hle⟩ | h30
      · rw [hn]
        simp [hle]
      · simp [h30]
    obtain ⟨out, hexec, hsent⟩ := exec_mirrorCapture hr hb hcap
    exact ⟨_, hexec, rfl, rfl, rfl, fun x hx hhere => hsent x (List.mem_filter.2 ⟨hx, hhere⟩)⟩
  · rw [exec_mirrorAbandoned hd hc, if_pos hb]
  · rw [exec_mirrorAbandoned hd hc, if_neg (not_not_intro hb)]
    obtain ⟨honly, hraised⟩ := State.atNext_raiseFull (s.withChain { s.chain with capturing := none }) pfFn 0x0506 (severityOf 0x0506) 0xFFFF
      0xFFFF 0xFF (fun _ => le 1 i.moduleNo.val ++ le 3 0 ++ le 4 hs.length ++ le 8 t)
    obtain ⟨hclk, hwork, hchain, -⟩ := honly.leaves
    exact ⟨_, rfl, hchain, .of_host hraised rfl, hclk, hwork⟩
  · have hkept := (State.reviseBuddy_peersKept (State.coming (s.withChain { s.chain with
      mirrors := s.chain.mirrors.filter (fun m => m.home != i.moduleNo.val),
      incoming := s.chain.incoming.filter (fun m => m.home != i.moduleNo.val) })))
    exact ⟨_, exec_buddyRelease hd, hkept.1.mirrors, hkept.1.incoming, hkept.1.links, State.clk_backTo hkept.1.clk, hkept.2⟩
  · rw [exec_chainPeerLost hd, if_neg (by simp [State.silent, hseen, Nat.not_le.2 hearly])]
  · rw [exec_chainPeerLost hd, if_pos (by simp [State.silent, hheard, hlost, hseen, hlate])]
    obtain ⟨hl, hr, hraised, hdue, hmirrors, hgrants, hclk, hdram, hlinks⟩ := s.coming.markLost_spec i.moduleNo
    have hkept := s.coming.losePeer_peersKept i.moduleNo
    have hpeer : (s.atNext (fun s => s.losePeer i.moduleNo)).peer i.moduleNo = (s.coming.markLost i.moduleNo).peer i.moduleNo :=
      hkept.peer i.moduleNo
    refine ⟨_, rfl, by rw [hpeer, hl], by rw [hpeer, hr], Raised.kept (t := s.coming.markLost i.moduleNo) (u := s.coming.losePeer i.moduleNo) hraised hkept, fun x hx hhome => ?_,
      hkept.mirrors.trans hmirrors, hkept.grants.trans hgrants, State.clk_backTo (hkept.clk.trans hclk), hkept.dram.trans hdram,
      hkept.links.trans hlinks⟩
    change _ ∈ (s.coming.losePeer i.moduleNo).chain.rehoming
    rw [hkept.rehoming]
    exact hdue x hx hhome

end Sys2Proof.Machine
end


section
/-! Re-homing, load exchange and the load balancer (O49). -/

namespace Sys2Proof.Machine

/-! ### Re-homing (R515, R516) -/

theorem mem_insertBy_self {α : Type} (before : α → α → Bool) (x : α) (l : List α) : x ∈ insertBy before x l := by
  induction l with
  | nil => simp [insertBy]
  | cons y l ih =>
    unfold insertBy
    split
    · exact List.mem_cons_self ..
    · exact List.mem_cons_of_mem _ ih

/-- R515: a stream that comes back to its home, as its mirror has it. -/
def Stream.comeBack (x : Stream) (m : Mirror) (seq tick : Nat) : Stream :=
  { x with
    remote := none, tracker := m.tracker, nextSeq := seq, dpb := [], paramSets := [], activeSps := none, motionRef := none,
    prevField := none, tokens := min 2 m.tokens, refillBase := tick, refillCount := 0, lastMoved := tick }

section
variable {s : State} {lost : Nat} {m : Mirror}

/-- A stream of another home is opened from its mirror. -/
theorem State.rehome_new (h : s.homeStream? lost m = none) :
    OnlyRaises (s.addStream (streamOfMirror m s.clk.tick)) (s.rehome lost m) ∧ Raised s (s.rehome lost m) m.fn 0x0203 s.clk.tick := by
  unfold State.rehome
  rw [h]
  exact ⟨State.raiseFull_onlyRaises _ _ _ _ _ _ _ _, .of_host (State.raiseFull_raised (s.addStream (streamOfMirror m s.clk.tick)) _ _ _ _ _ _ _) rfl⟩

/-- A stream of this home comes back. -/
theorem State.rehome_own {x : Stream} (h : s.homeStream? lost m = some x) : ∃ p : Pools,
    OnlyRaises { s.modStream x.handle (fun x' => x'.comeBack m (max x.nextSeq (m.frameSeq + 64)) s.clk.tick) with pools := p } (s.rehome lost m) ∧
      Raised s (s.rehome lost m) m.fn 0x0203 s.clk.tick := by
  obtain ⟨p, hp⟩ := State.freeBuffers_eq (s.partOf x.fn) x.pictureBuffers s
  have heq : s.rehome lost m = State.raiseStream
      { s.modStream x.handle (fun x' => x'.comeBack m (max x.nextSeq (m.frameSeq + 64)) s.clk.tick) with pools := p } m.fn 0x0203 m.handle
      (le 8 (max x.nextSeq (m.frameSeq + 64)) ++ le 1 lost) := by
    unfold State.rehome
    rw [h]
    dsimp only
    rw [hp]
    rfl
  rw [heq]
  exact ⟨p, State.raiseFull_onlyRaises _ _ _ _ _ _ _ _, .of_host (State.raiseFull_raised
    { s.modStream x.handle (fun x' => x'.comeBack m (max x.nextSeq (m.frameSeq + 64)) s.clk.tick) with pools := p } _ _ _ _ _ _ _) rfl⟩

/-- A stream that cannot be re-homed, of another home: the event alone. -/
theorem State.takeRehoming_fails {reason r : Nat} (hf : s.rehomeFault lost m = some (reason, r)) (h : s.homeStream? lost m = none) :
    OnlyRaises s (s.takeRehoming lost m) ∧ Raised s (s.takeRehoming lost m) pfFn 0x0204 s.clk.tick := by
  unfold State.takeRehoming
  rw [hf]
  dsimp only
  have hsame : (s.raiseStream pfFn 0x0204 m.handle (le 1 reason ++ le 1 0 ++ le 2 r)).homeStream? lost m = none := h
  rw [hsame]
  exact ⟨State.raiseFull_onlyRaises _ _ _ _ _ _ _ _, State.raiseFull_raised _ _ _ _ _ _ _ _⟩

theorem exec_streamRehomed {i : RehomeIn} {due : Nat} (hr : s.isReady = true) (hre : s.chain.rehoming = [(due, lost, m)])
    (hm : m.handle = i.handle.toNat) : exec (.streamRehomed i) s = .next (if due ≤ s.clk.tick + 1 then
      ({ s with chain := { s.chain with rehoming := [] } } : State).atNext (fun s => s.takeRehoming lost m) else s) := by
  have hexec : exec (.streamRehomed i) s = execStreamRehomed i s := rfl
  rw [hexec]
  unfold execStreamRehomed
  dsimp only
  rw [hre]
  by_cases hdue : due ≤ s.clk.tick + 1
  · rw [List.find?_cons_of_pos (by simp [hm, hdue]), if_pos hdue]
    dsimp only
    rw [if_neg (by simp [hr]), List.erase_cons_head]
    rfl
  · rw [List.find?_cons_of_neg (by simp [hdue]), if_neg hdue]
    rfl

end

/-! ### The load balancer (R534-R536) -/

/-- What an evaluation has done so far leaves: the work and the time as they were, no migration where it only advises, and one migration a
move at most, within MAX_MOVES. -/
structure Balances (s : State) (advise : Bool) (b : Balancing) : Prop where
  work : b.st.work = s.work
  clk : b.st.clk = s.clk
  dram : b.st.dram = s.dram
  chain : advise = true → b.st.chain = s.chain
  count : b.st.chain.migrations.length ≤ s.chain.migrations.length + b.moves
  moves : b.moves ≤ s.work.balance.maxMoves

theorem State.tellBalance_onlyRaises (s : State) (code : Nat) (x : Stream) (previous new : Nat) :
    OnlyRaises s (s.tellBalance code x previous new) :=
  (State.raiseFull_onlyRaises _ _ _ _ _ _ _ _).trans (State.raiseFull_onlyRaises _ _ _ _ _ _ _ _)

/-- Sending to a list of modules appends to what the chain sends. -/
theorem State.foldl_chainSend {α : Type} (g : α → ChainOut) (l : List α) (s : State) : ∃ out,
    l.foldl (fun s a => s.chainSend (g a)) s = s.withChain { s.chain with out := out } ∧ (∀ o ∈ s.chain.out, o ∈ out) ∧
      ∀ a ∈ l, g a ∈ out := by
  induction l generalizing s with
  | nil => exact ⟨_, rfl, fun _ h => h, fun a ha => by simp at ha⟩
  | cons a l ih =>
    obtain ⟨out, hfold, hkept, hsent⟩ := ih (s.chainSend (g a))
    refine ⟨out, hfold, fun o ho => hkept o (List.mem_cons_of_mem _ ho), fun b hb => ?_⟩
    rcases List.mem_cons.1 hb with rfl | hb
    · exact hkept _ (List.mem_cons_self ..)
    · exact hsent b hb

/-- The other modules that a migration names. -/
theorem mem_named {a b own n : Nat} (hn : n = a ∨ n = b) (hown : n ≠ own) : n ∈ [a, b].eraseDups.filter (· != own) := by
  rw [List.mem_filter, List.mem_eraseDups]
  exact ⟨by simpa using hn, by simpa using hown⟩

/-- A migration that starts is the only new one, and touches the chain alone. -/
theorem State.startMigration_eq (s : State) (x : Stream) (target decode : Nat) (head : Option CmdHead) (balancer : Bool) :
    ∃ (m : Migration) (out : List ChainOut), s.startMigration x target decode head balancer =
      s.withChain { s.chain with migrations := s.chain.migrations ++ [m], out := out } ∧ m.handle = x.handle ∧ m.target = target ∧
      m.decode = decode ∧ m.start = s.clk.tick ∧ m.switched = false ∧
      ∀ n, n = target ∨ n = decode → n ≠ s.boot.moduleNo → .admissionRequest n x.handle ∈ out := by
  obtain ⟨out, hfold, -, hsent⟩ := State.foldl_chainSend (fun n => .admissionRequest n x.handle)
    ([target, decode].eraseDups.filter (· != s.boot.moduleNo))
    (s.withChain { s.chain with migrations := s.chain.migrations ++
      [{ handle := x.handle, target := target, decode := decode, head := head, balancer := balancer, start := s.clk.tick, switched := false,
         previous := s.servedBy x, ownRefusal := s.ownShare x target decode }] })
  exact ⟨_, out, hfold, rfl, rfl, rfl, rfl, rfl, fun n hn hown => hsent n (mem_named hn hown)⟩

theorem Balances.take {s : State} {advise : Bool} {b : Balancing} (h : Balances s advise b) (balancer : Bool) (p k : Nat) (x : Stream) :
    Balances s advise (b.take advise balancer p k x) := by
  unfold Balancing.take
  dsimp only
  split
  · exact h
  next hmoves =>
    have hroom : b.moves + 1 ≤ s.work.balance.maxMoves := by
      rw [h.work] at hmoves
      omega
    split
    next m _ =>
      split
      · exact h
      · cases advise with
        | true =>
          obtain ⟨hclk, hwork, hchain, hdram, -⟩ := (b.st.tellBalance_onlyRaises 0x0206 x (b.st.servedBy x) m).leaves
          exact ⟨hwork.trans h.work, hclk.trans h.clk, hdram.trans h.dram, fun ha => hchain.trans (h.chain ha),
            Nat.le_trans (Nat.le_of_eq (congrArg (fun c : Chain => c.migrations.length) hchain)) (Nat.le_trans h.count (Nat.add_le_add_left (Nat.le_succ _) _)), hroom⟩
        | false =>
          obtain ⟨g, out, hstart, -⟩ := b.st.startMigration_eq x m m none balancer
          rw [if_neg (by decide), hstart]
          refine ⟨h.work, h.clk, h.dram, fun ha => by simp at ha, ?_, hroom⟩
          change (b.st.chain.migrations ++ [g]).length ≤ _
          rw [List.length_append, List.length_singleton]
          exact Nat.succ_le_succ h.count
    next => exact h

theorem Balances.partition {s : State} {advise : Bool} {b : Balancing} (h : Balances s advise b) (p : Nat) :
    Balances s advise (b.partition advise p) := by
  unfold Balancing.partition
  dsimp only
  split
  · exact h
  · exact List.foldlRecOn (motive := Balances s advise) _ _ h fun _ hb x _ => hb.take true p _ x

theorem State.balanceAll_balances (s : State) : ∃ b, s.balanceAll = b.st ∧ Balances s (s.work.balance.mode == 1) b :=
  ⟨_, rfl, List.foldlRecOn (motive := Balances s (s.work.balance.mode == 1)) _ _
    ⟨rfl, rfl, rfl, fun _ => rfl, Nat.le_refl _, Nat.zero_le _⟩ fun _ hb p _ => hb.partition p⟩

/-- An evaluation that finds no partition above HIGH_WATER does nothing. -/
theorem State.balanceAll_idle {s : State} (h : ∀ p, p < partCount s.work.startMask →
    s.loadPercent p (s.loadsWithout none) ≤ s.work.balance.highWater) : s.balanceAll = s := by
  have hfold : (List.range (partCount s.work.startMask)).foldl (fun b p => Balancing.partition b (s.work.balance.mode == 1) p)
      { st := s, given := [], moves := 0 } = { st := s, given := [], moves := 0 } :=
    List.foldlRecOn (motive := fun b : Balancing => b = { st := s, given := [], moves := 0 }) _ _ rfl fun b hb p hp => by
      subst hb
      unfold Balancing.partition
      dsimp only
      rw [if_pos (h p (List.mem_range.1 hp))]
  unfold State.balanceAll
  rw [hfold]

theorem exec_balanceEvaluation {s : State} (hr : s.isReady = true) : exec .balanceEvaluation s =
    .next (if s.work.balance.mode = 0 ∨ (s.clk.tick + 1) % max 1 s.work.balance.interval ≠ s.boot.moduleNo * s.work.balance.interval / 8 then s
      else s.atNext State.balanceAll) := by
  have hexec : exec .balanceEvaluation s = execBalanceEvaluation s := rfl
  rw [hexec]
  unfold execBalanceEvaluation
  simp only [hr, Bool.not_true, Bool.false_or, Bool.or_eq_true, decide_eq_true_eq, bne_iff_ne]

theorem exec_loadExchange {s : State} {i : LoadIn} (hr : s.isReady = true) (hm : i.moduleNo.val ≠ s.boot.moduleNo) :
    exec (.loadExchange i) s = .next ((s.modPeer i.moduleNo (fun p => { p with load := some i.load })).chainSend
      (.loadReport i.moduleNo.val (s.modPeer i.moduleNo (fun p => { p with load := some i.load })).ownLoad)) := by
  have hexec : exec (.loadExchange i) s = execLoadExchange i s := rfl
  rw [hexec]
  unfold execLoadExchange
  rw [if_neg (by simp [hr, hm])]
  rfl

/-- What a re-homing leaves, whether the stream is of this home or of another. -/
theorem State.rehome_spec (s : State) (lost : Nat) (m : Mirror) : (s.rehome lost m).chain = s.chain ∧ (s.rehome lost m).clk = s.clk ∧
    Raised s (s.rehome lost m) m.fn 0x0203 s.clk.tick ∧
    (s.homeStream? lost m = none → streamOfMirror m s.clk.tick ∈ (s.rehome lost m).work.streams) ∧
    (∀ x, s.work.streams = [x] → s.homeStream? lost m = some x →
      (s.rehome lost m).work.streams = [x.comeBack m (max x.nextSeq (m.frameSeq + 64)) s.clk.tick]) := by
  cases h : s.homeStream? lost m with
  | none =>
    obtain ⟨honly, hraised⟩ := State.rehome_new h
    obtain ⟨hclk, hwork, hchain, -⟩ := honly.leaves
    refine ⟨hchain, hclk, hraised, fun _ => ?_, fun x _ hx => by simp at hx⟩
    rw [hwork]
    exact mem_insertBy_self _ _ _
  | some y =>
    obtain ⟨p, honly, hraised⟩ := State.rehome_own h
    obtain ⟨hclk, hwork, hchain, -⟩ := honly.leaves
    refine ⟨hchain, hclk, hraised, fun hx => by simp at hx, fun x hone hx => ?_⟩
    obtain rfl := Option.some.inj hx
    rw [hwork]
    change updWhere _ _ s.work.streams = _
    rw [hone, updWhere, List.map_cons, List.map_nil, if_pos (by simp)]

/-- Settles O49: a stream comes back from its mirror or its failure is told; an evaluation is a run of moves, each within the bound. -/
theorem streamsRehomeAndBalance : Obligations.StreamsRehomeAndBalance := by
  unfold Obligations.StreamsRehomeAndBalance
  intro s hr
  refine ⟨fun i lost due m hre hm => ?_, fun i hi => ⟨_, exec_loadExchange hr hi, congrArg Peer.load (vget_set_self _ _ _), _, rfl⟩, ?_⟩
  · intro u
    have hexec := exec_streamRehomed hr hre hm
    refine ⟨fun hearly => ?_, fun hdue hfault => ?_, fun reason r hdue hfault hhome => ?_⟩
    · rw [hexec, if_neg (by omega)]
    · rw [if_pos hdue] at hexec
      have htake : u.coming.takeRehoming lost m = u.coming.rehome lost m := by
        unfold State.takeRehoming
        rw [hfault]
      obtain ⟨hchain, hclk, hraised, hnew, hown⟩ := u.coming.rehome_spec lost m
      rw [← htake] at hchain hclk hraised hnew hown
      refine ⟨_, hexec, hchain, State.clk_backTo hclk, hraised, fun hhome => ⟨_, hnew hhome, rfl, rfl, rfl, rfl, rfl, rfl, rfl, rfl⟩,
        fun y hone hhome => ⟨_, hown y hone hhome, rfl, rfl, rfl, rfl, rfl, rfl⟩⟩
    · rw [if_pos hdue] at hexec
      obtain ⟨honly, hraised⟩ := State.takeRehoming_fails (s := u.coming) hfault hhome
      obtain ⟨-, hwork, hchain, -⟩ := honly.leaves
      exact ⟨_, hexec, hwork, hchain, hraised⟩
  · intro b
    have hexec := exec_balanceEvaluation hr
    refine ⟨fun hno => by rw [hexec, if_pos hno], ?_⟩
    by_cases hno : s.work.balance.mode = 0 ∨ (s.clk.tick + 1) % max 1 s.work.balance.interval ≠ s.boot.moduleNo * s.work.balance.interval / 8
    · rw [if_pos hno] at hexec
      exact ⟨s, hexec, rfl, rfl, rfl, fun _ => rfl, Nat.le_add_right _ _, fun _ => rfl⟩
    · rw [if_neg hno] at hexec
      obtain ⟨x, hx, hwork, hclk, hdram, hchain, hcount, hmoves⟩ := s.coming.balanceAll_balances
      rw [← hx] at hwork hclk hdram hchain hcount
      refine ⟨_, hexec, hwork, State.clk_backTo hclk, hdram, fun h1 => hchain ?_, Nat.le_trans hcount (Nat.add_le_add_left hmoves _), fun hlow => ?_⟩
      · exact beq_iff_eq.2 h1
      · unfold State.atNext
        rw [State.balanceAll_idle (s := s.coming) hlow]
        rfl

end Sys2Proof.Machine
end


section
/-! Migration of streams (O50). -/

namespace Sys2Proof.Machine

/-! ### STREAM_MIGRATE (R509, Tables 14.4 and 14.5) -/

section
variable {s : State} {x : Stream} {target decode : Nat}

theorem State.migrationFault_state (h : x.cls = .urgent ∨ s.migrating x.handle = true) :
    s.migrationFault x target decode = some (failWith .invalidState) := by
  unfold State.migrationFault
  dsimp only
  rw [if_pos]
  rcases h with h | h
  · rw [h]
    rfl
  · rw [h, Bool.or_true]

theorem State.migrationFault_route (hcls : x.cls ≠ .urgent) (hm : s.migrating x.handle = false)
    (h : s.routeUp target = false ∨ s.routeUp decode = false) : s.migrationFault x target decode = some (failWith .unitUnavailable) := by
  have hurgent : isUrgent x.cls = false := by
    cases hx : x.cls with
    | urgent => exact absurd hx hcls
    | guaranteed => rfl
    | bestEffort => rfl
  have hall : ([target, decode].eraseDups.all s.routeUp) = false := by
    rw [List.all_eq_false]
    rcases h with h | h
    · exact ⟨target, List.mem_eraseDups.2 (by simp), by simp [h]⟩
    · exact ⟨decode, List.mem_eraseDups.2 (by simp), by simp [h]⟩
  unfold State.migrationFault
  dsimp only
  rw [if_neg (by simp [hurgent, hm]), if_pos (by simp [hall])]

end

section
variable {h : CmdHead} {p : StreamMigrateP} {s : State}

/-- The module that decodes: the target, where the command names none. -/
def decodeModuleOf (p : StreamMigrateP) : Nat := if p.decodeModule.toNat = 0xFF then p.targetModule.toNat else p.decodeModule.toNat

theorem applyStreamMigrate_notFound (hx : s.liveStream? h.fn p.handle.toNat = none) : applyStreamMigrate h none p s = refuse s .notFound := by
  simp only [applyStreamMigrate, hx]

variable {x : Stream} (hx : s.liveStream? h.fn p.handle.toNat = some x)
include hx

theorem applyStreamMigrate_refused {a : Answer} (hf : s.migrationFault x p.targetModule.toNat (decodeModuleOf p) = some a) :
    applyStreamMigrate h none p s = (s, some a) := by
  unfold decodeModuleOf at hf
  simp only [applyStreamMigrate, hx, hf]

theorem applyStreamMigrate_begins (hf : s.migrationFault x p.targetModule.toNat (decodeModuleOf p) = none) :
    applyStreamMigrate h none p s =
      ((s.startMigration x p.targetModule.toNat (decodeModuleOf p) (some h) false).beginWork h 0x33 none (.streamMigrate x.handle), none) := by
  unfold decodeModuleOf at hf
  simp only [applyStreamMigrate, hx, hf]
  rfl

end

/-! ### MIGRATION_SWITCH (R510) -/

section
variable {s : State} {m : Migration}

/-- A migration that ends takes its command's work with it. -/
theorem State.endMigration_eq {w : Work} (hs : s.chain.migrations = [m]) (hw : s.workOf? (.streamMigrate m.handle) = some w) (a : Answer) :
    s.endMigration m a = (s.withChain { s.chain with migrations := [] }).finishWork w a := by
  have hw' : (s.withChain { s.chain with migrations := s.chain.migrations.erase m }).workOf? (.streamMigrate m.handle) = some w := hw
  unfold State.endMigration
  dsimp only
  rw [hw', hs, List.erase_cons_head]

theorem State.migration?_only {handle : Nat} (hs : s.chain.migrations = [m]) (hm : m.handle = handle) : s.migration? handle = some m := by
  unfold State.migration?
  rw [hs, List.find?_cons_of_pos (by simp [hm])]

section
variable {i : HandleP} (hs : s.chain.migrations = [m]) (hm : m.handle = i.handle.toNat)
include hs hm

theorem exec_migrationSwitch_waits (h : s.clk.tick + 1 < m.start + 3 ∨ m.switched = true) : exec (.migrationSwitch i) s = .next s := by
  have hexec : exec (.migrationSwitch i) s = execMigrationSwitch i s := rfl
  rw [hexec]
  unfold execMigrationSwitch
  rw [State.migration?_only hs hm]
  dsimp only
  rw [if_pos (by rcases h with h | h <;> simp [h])]

theorem exec_migrationSwitch (hr : s.isReady = true) (hdue : m.start + 3 ≤ s.clk.tick + 1) (hsw : m.switched = false) :
    exec (.migrationSwitch i) s = .next (match m.ownRefusal with
      | some r => s.endMigration m (admissionRefused r)
      | none => ([m.decode, m.target].eraseDups.filter (· != s.boot.moduleNo)).foldl (fun s n => s.chainSend (.migrationCopy n m.handle))
          (s.modMigration m.handle (fun m => { m with switched := true }))) := by
  have hexec : exec (.migrationSwitch i) s = execMigrationSwitch i s := rfl
  rw [hexec]
  unfold execMigrationSwitch
  rw [State.migration?_only hs hm]
  dsimp only
  rw [if_neg (by simp [hr, hsw]; omega)]
  cases m.ownRefusal <;> rfl

end

/-! ### MIGRATION_COPY_COMPLETE (R510) -/

section
variable {i : MigrationCopyIn} {x : Stream} (hr : s.isReady = true) (hs : s.chain.migrations = [m]) (hm : m.handle = i.handle.toNat)
  (hx : s.stream? i.handle.toNat = some x)
include hr hs hm hx

theorem exec_migrationCopyComplete : exec (.migrationCopyComplete i) s = .next (match i.refused with
    | some r => s.endMigration m (admissionRefused r.toNat)
    | none => if !m.switched || !x.frames.isEmpty then s else s.atNext (fun s => s.moveStream m x)) := by
  have hexec : exec (.migrationCopyComplete i) s = execMigrationCopyComplete i s := rfl
  rw [hexec]
  unfold execMigrationCopyComplete
  rw [State.migration?_only hs hm, hx]
  refine congrArg Host.Outcome.next ((if_neg ?_).trans ?_)
  · simp [hr]
  · cases i.refused <;> rfl

end

/-- A stream as it stands once the copy of it is complete. -/
def Stream.moved (x : Stream) (pair : Option (Nat × Nat)) (tick : Nat) : Stream := { x with remote := pair, lastMoved := tick }

/-- At the commit of the copy the stream is served by the named modules, and the work of its command ends. -/
theorem State.moveStream_spec {x : Stream} {w : Work} (hs : s.chain.migrations = [m]) (hw : s.workOf? (.streamMigrate m.handle) = some w) :
    OnlyRaises (((s.modStream x.handle (fun y => y.moved (s.remotePair m.decode m.target) s.clk.tick)).withChain
      { s.chain with migrations := [] }).finishWork w ok) (s.moveStream m x) := by
  have hend := State.endMigration_eq (s := s.modStream x.handle (fun y => y.moved (s.remotePair m.decode m.target) s.clk.tick)) hs hw ok
  unfold State.moveStream
  dsimp only
  split
  · rw [show (fun y : Stream => ({ y with remote := s.remotePair m.decode m.target, lastMoved := s.clk.tick } : Stream)) =
      (fun y => y.moved (s.remotePair m.decode m.target) s.clk.tick) from rfl, hend]
    exact State.tellBalance_onlyRaises _ _ _ _ _
  · rw [show (fun y : Stream => ({ y with remote := s.remotePair m.decode m.target, lastMoved := s.clk.tick } : Stream)) =
      (fun y => y.moved (s.remotePair m.decode m.target) s.clk.tick) from rfl, hend]
    exact .refl _

end

/-! ### Shares and records of other modules (R510, R511) -/

theorem exec_migrationAdmissionRequest {s : State} {i : MigrationRequestIn} (hr : s.isReady = true) :
    exec (.migrationAdmissionRequest i) s = .next (if s.shareReason i ≠ 0 then
      s.chainSend (.admissionReply i.home.val i.handle.toNat (s.shareReason i))
    else (s.chainSend (.admissionReply i.home.val i.handle.toNat (s.shareReason i))).withChain
      { (s.chainSend (.admissionReply i.home.val i.handle.toNat (s.shareReason i))).chain with
        grants := s.chain.grants.filter (fun x => !(x.home == i.home.val && x.handle == i.handle.toNat)) ++ [grantOf i] }) := by
  have hexec : exec (.migrationAdmissionRequest i) s = execMigrationAdmissionRequest i s := rfl
  rw [hexec]
  unfold execMigrationAdmissionRequest
  rw [if_neg (by simp [hr])]
  simp only [bne_iff_ne]
  rfl

theorem State.dropPictures_eq (s : State) (handle : Nat) (before : List Nat) : ∃ p : Pools, s.dropPictures handle before = { s with pools := p } := by
  unfold State.dropPictures
  split
  · exact State.freeBuffers_eq _ _ s
  · exact ⟨s.pools, rfl⟩

/-- What a frame that leaves early changes of its stream and of the records due. -/
theorem State.leaveEarly_spec (s : State) (x : Stream) (f : Frame) (e : Ended) : (s.leaveEarly x f e).work.ended = s.work.ended ++ [e] ∧
    (∀ y ∈ (s.leaveEarly x f e).work.streams, y.handle = x.handle → ∀ g ∈ y.frames, g.seq ≠ f.seq) ∧
    (s.leaveEarly x f e).clk = s.clk ∧ (s.leaveEarly x f e).chain = s.chain := by
  have hcapture : ∃ u : State, (if f.stage == .decode then
      (s.endChunks x f).modStream x.handle (fun x => x.noteCapture f (x.captureOf f none)) else s) = u ∧
      u.work.ended = s.work.ended ∧ u.clk = s.clk ∧ u.chain = s.chain := by
    refine ⟨_, rfl, ?_⟩
    split
    · obtain ⟨p, hp⟩ := State.freeBuffers_eq (s.partOf x.fn) (chunkBuffers f.chunks) s
      unfold State.endChunks
      rw [hp]
      exact ⟨rfl, rfl, rfl⟩
    · exact ⟨rfl, rfl, rfl⟩
  obtain ⟨u, hu, hended, hclk, hchain⟩ := hcapture
  obtain ⟨p, hp⟩ := State.dropPictures_eq (u.endFrame x.handle f.seq e) x.handle x.pictureBuffers
  have heq : s.leaveEarly x f e = { u.endFrame x.handle f.seq e with pools := p } := by
    rw [← hp, ← hu]
    rfl
  rw [heq]
  refine ⟨congrArg (· ++ [e]) hended, fun y hy hh g hg => ?_, hclk, hchain⟩
  obtain ⟨z, -, rfl⟩ := List.mem_map.1 hy
  split at hg
  · simpa using (List.mem_filter.1 hg).2
  next hz =>
    rw [if_neg hz] at hh
    exact absurd (by simpa using hh) hz

theorem exec_remoteRecords {s : State} {i : RemoteRecordsIn} {x : Stream} {f : Frame} (hx : s.stream? i.handle.toNat = some x)
    (hr : s.isReady = true) (hf : x.frames.find? (fun (f : Frame) => f.seq == i.seq.toNat) = some f) (hin : s.infersHere x = false) :
    exec (.remoteRecords i) s = .next (s.remoteDue { handle := x.handle, seq := i.seq.toNat, records := some i }) := by
  have hexec : exec (.remoteRecords i) s = execRemoteRecords i s := rfl
  have hseq := List.find?_some hf
  have hany : x.frames.any (fun f => f.seq == i.seq.toNat) = true := List.any_eq_true.2 ⟨f, List.mem_of_find?_eq_some hf, hseq⟩
  rw [hexec]
  unfold execRemoteRecords
  rw [hx]
  dsimp only
  rw [if_pos (by rw [hr, hin, hany]; rfl)]

/-- Settles O50: each row of the migration is one update of the chain; a frame that other modules formed leaves its stream with what they
returned. -/
theorem streamsMigrate : Obligations.StreamsMigrate := by
  unfold Obligations.StreamsMigrate
  refine ⟨fun h p s ha => ?_, fun i s m hr hs hm => ⟨exec_migrationSwitch_waits hs hm, fun hdue hsw hown => ?_, fun r w hdue hsw hown hw => ?_⟩,
    fun i s m w x hr hs hm hx hw => ?_, fun i s hr => ?_, fun i s x f hx hr hf hin => ?_⟩
  · intro target decode ends
    refine ⟨fun hnone => ringRow_refuses ha (applyStreamMigrate_notFound (s := s.coming) hnone), fun x hx => ⟨fun hbad => ?_,
      fun hcls hmig hroute => ?_, fun hok => ?_⟩⟩
    · exact ringRow_unchanged ha (applyStreamMigrate_refused (s := s.coming) hx (State.migrationFault_state hbad))
    · exact ringRow_unchanged ha (applyStreamMigrate_refused (s := s.coming) hx (State.migrationFault_route hcls hmig hroute))
    · obtain ⟨g, out, hstart, hhandle, htarget, hdecode, hat, hsw, hreq⟩ := s.coming.startMigration_eq x target decode (some h) false
      have hexec := ringRow_works ha (applyStreamMigrate_begins (s := s.coming) hx hok)
      rw [show s.coming.startMigration x p.targetModule.toNat (decodeModuleOf p) (some h) false = _ from hstart] at hexec
      exact ⟨_, hexec, ⟨g, rfl, hhandle, htarget, hdecode, hat, hsw⟩, hreq⟩
  · obtain ⟨out, hfold, -, hsent⟩ := State.foldl_chainSend (fun n => .migrationCopy n m.handle)
      ([m.decode, m.target].eraseDups.filter (· != s.boot.moduleNo)) (s.modMigration m.handle (fun m => { m with switched := true }))
    have hexec := exec_migrationSwitch hs hm hr hdue hsw
    rw [hown] at hexec
    refine ⟨_, hexec.trans (congrArg Host.Outcome.next hfold), ?_, fun n hn hne => hsent n (mem_named hn.symm hne)⟩
    change updWhere _ _ s.chain.migrations = _
    rw [hs, updWhere, List.map_cons, List.map_nil, if_pos (by simp)]
  · have hexec := exec_migrationSwitch hs hm hr hdue hsw
    rw [hown] at hexec
    dsimp only at hexec
    rw [State.endMigration_eq hs hw] at hexec
    exact ⟨_, hexec, rfl, ⟨rfl, rfl⟩, rfl⟩
  · have hexec := exec_migrationCopyComplete hr hs hm hx
    intro done
    refine ⟨fun r href => ?_, fun href hwait => ?_, fun href hsw hframes => ?_⟩
    · rw [href] at hexec
      dsimp only at hexec
      rw [State.endMigration_eq hs hw] at hexec
      exact ⟨_, hexec, ⟨rfl, ⟨rfl, rfl⟩, rfl, rfl⟩, rfl⟩
    · rw [href] at hexec
      dsimp only at hexec
      rw [if_pos (by rcases hwait with h | h <;> simp [h])] at hexec
      exact hexec
    · rw [href] at hexec
      dsimp only at hexec
      rw [if_neg (by simp [hsw, hframes])] at hexec
      have honly := State.moveStream_spec (s := s.coming) (x := x) hs hw
      obtain ⟨hclk, hwork, hchain, hdram, -⟩ := honly.leaves
      have hhost := congrArg State.host honly.rest
      refine ⟨_, hexec, ⟨hchain, ⟨honly.works, congrArg HostSide.ending hhost⟩, State.clk_backTo hclk, hdram⟩, fun y hy hh => ?_, fun y hy hne => ?_⟩
      · have hy := (congrArg (fun w => y ∈ w.streams) hwork).mp hy
        obtain ⟨z, -, rfl⟩ := List.mem_map.1 hy
        split
        · exact ⟨rfl, rfl⟩
        next hz =>
          rw [if_neg hz] at hh
          exact absurd (by simpa using hh) hz
      · refine (congrArg (fun w => y ∈ w.streams) hwork).mpr ?_
        change y ∈ updWhere (fun z => z.handle == x.handle) _ s.work.streams
        exact List.mem_map.2 ⟨y, hy, if_neg (by simpa using hne)⟩
  · have hexec := exec_migrationAdmissionRequest (i := i) hr
    by_cases h0 : s.shareReason i = 0
    · rw [if_neg (not_not_intro h0)] at hexec
      exact ⟨_, hexec, rfl, fun _ => List.mem_append_right _ (List.mem_singleton_self _), fun h => absurd h0 h⟩
    · rw [if_pos h0] at hexec
      exact ⟨_, hexec, rfl, fun h => absurd h h0, fun _ => rfl⟩
  · intro e
    have hhandle : x.handle = i.handle.toNat := by simpa using List.find?_some hx
    have htake : s.takeRemoteEnd e = s.leaveEarly x f (s.remoteEnd x f i) := by
      have hx' : s.stream? e.handle = some x := by
        change s.stream? x.handle = some x
        rw [hhandle]
        exact hx
      unfold State.takeRemoteEnd
      rw [hx']
      dsimp only
      rw [show x.frames.find? (fun (f : Frame) => f.seq == e.seq) = some f from hf]
    obtain ⟨hended, hframes, hclk, hchain⟩ := s.leaveEarly_spec x f (s.remoteEnd x f i)
    rw [← htake] at hended hframes hclk hchain
    exact ⟨exec_remoteRecords hx hr hf hin, _, hended, rfl, rfl, rfl, rfl, hframes, hclk, hchain⟩

end Sys2Proof.Machine
end

section
/-! What moves the tick counter (O3): beside COMMIT and the die starts, no command does. -/

namespace Sys2Proof.Machine

/-! ### The rows of the memory nodes leave the clock alone -/

/-- A fold whose steps leave the clock alone does. -/
@[simp] theorem clk_foldl {α : Type} {f : State → α → State} (hf : ∀ s a, (f s a).clk = s.clk) (l : List α) (s : State) :
    (l.foldl f s).clk = s.clk :=
  List.foldlRecOn (motive := fun t => t.clk = s.clk) l f rfl fun t ht a _ => (hf t a).trans ht

theorem State.requestPiece_clk (s : State) (i : DramReqIn) (start : Nat) (p : Nat × Nat) : (s.requestPiece i start p).clk = s.clk := by
  obtain ⟨d, hd⟩ := s.requestPiece_dram i start p
  rw [hd]

theorem State.requestSram_clk (s : State) (i : DramReqIn) (tile addr : Nat) : (s.requestSram i tile addr).clk = s.clk := by
  unfold State.requestSram
  dsimp only
  split <;> rfl

theorem State.memRequest_clk (s : State) (i : DramReqIn) : (s.memRequest i).clk = s.clk := by
  have hrefused : (s.refuseRequest i).clk = s.clk := rfl
  unfold State.memRequest
  dsimp only
  split
  · exact hrefused
  · split
    next row off _ =>
      split
      · exact hrefused
      · split
        · rfl
        · exact clk_foldl (fun t p => t.requestPiece_clk i off p) _ s
    next tile addr _ =>
      split
      · exact s.requestSram_clk i tile addr
      · exact hrefused
    next => exact hrefused

theorem State.grantRead_clk (s : State) (c : Channel) (r : DramReq) (d : PageDamage) (slot64 : Nat) :
    (s.grantRead c r d slot64).clk = s.clk := by
  obtain ⟨_, _, _, heq, -⟩ := s.grantRead_eq c r d slot64
  rw [heq]

theorem State.schedule_clk (s : State) (i : SchedIn) : (s.schedule i).clk = s.clk := by
  unfold State.schedule
  dsimp only
  (repeat' split) <;> first | exact State.grantRead_clk _ _ _ _ _ | rfl

theorem execPatrolScrub_clk {i : ScrubIn} {s t : State} (h : execPatrolScrub i s = .next t) : t.clk = s.clk := by
  unfold execPatrolScrub at h
  cases h
  dsimp only
  split
  · rfl
  · split
    · rfl
    · exact (State.scrubCorrected_spec _ _ _).choose_spec.2.1
    · rfl

theorem execZeroingComplete_clk {i : PoolBufIn} {s t : State} (h : execZeroingComplete i s = .next t) : t.clk = s.clk := by
  unfold execZeroingComplete at h
  cases h
  split
  next b _ =>
    obtain ⟨d, hd⟩ := s.zeroBuffer_eq b
    split
    · rw [hd]
    · rfl
  next => rfl

/-! ### Bring-up and the end of a reset (R59) -/

theorem exec_bringUp_clk {i : BringUpIn} {s t : State} (h : exec (.bringUp i) s = .next t) : t.clk = s.clk := by
  by_cases hstart : s.boot.running = true ∧ s.boot.broughtUp = false ∧ s.power.pwrgd = true
  · obtain ⟨hrun, hup, hpwr⟩ := hstart
    obtain ⟨u, hu, hkept, -⟩ := exec_bringUp_bringsUp (i := i) hrun hup hpwr
    obtain ⟨_, _, hrom⟩ := s.bootRom_eq i
    obtain rfl : u = t := by simpa [hu] using h
    rw [hkept.clk, hrom]
  · have hidle : exec (.bringUp i) s = .next s := by
      change execBringUp i s = _
      unfold execBringUp
      refine congrArg Host.Outcome.next (if_pos ?_)
      by_contra hno
      exact hstart (by simpa [and_assoc] using hno)
    obtain rfl : s = t := by simpa [hidle] using h
    rfl

/-- What a row does as of the coming commit leaves the tick counter where it was. -/
@[simp] theorem State.atNext_tick (s : State) (f : State → State) : (s.atNext f).clk.tick = s.clk.tick := rfl

theorem execResetEnd_tick {i : FnIn} {s t : State} (h : execResetEnd i s = .next t) : t.clk.tick = s.clk.tick := by
  unfold execResetEnd at h
  cases h
  split
  · split
    · rfl
    · exact s.atNext_tick _
  · rfl

/-! ### Every command -/

/-- Of the commands that move the core, only COMMIT and the die starts move its tick. -/
theorem exec_movesCore_tick {i : Instr} {s t : State} (hm : movesCore i = true) (hc : ∀ x, i ≠ .commit x) (hd : ∀ x, i ≠ .dieStart x)
    (hw : i ≠ .bootRomWatchdog) (h : exec i s = .next t) : t.clk.tick = s.clk.tick := by
  cases i <;> cases hm
  case commit x => exact absurd rfl (hc x)
  case dieStart x => exact absurd rfl (hd x)
  case bootRomWatchdog => exact absurd rfl hw
  case bringUp b => exact congrArg Clock.tick (exec_bringUp_clk h)
  case dramRequest x =>
    cases h
    split
    · rfl
    · exact congrArg Clock.tick (s.memRequest_clk x)
  case schedulingDecision x =>
    cases h
    split
    · rfl
    · exact congrArg Clock.tick (s.schedule_clk x)
  case patrolScrub x => exact congrArg Clock.tick (execPatrolScrub_clk h)
  case zeroingComplete x => exact congrArg Clock.tick (execZeroingComplete_clk h)
  case resetEnd x => exact execResetEnd_tick h

/-- A command that does not move the core does not move its tick. -/
theorem exec_tick_of_keepsCore {i : Instr} {s t : State} (hm : movesCore i = false) (h : exec i s = .next t) : t.clk.tick = s.clk.tick := by
  have hcore : KeepsCore s (exec i s) := by
    cases hr : ringCommand i with
    | none => exact exec_keepsCore hm hr s
    | some hc =>
      rw [exec_ringCommand hr]
      exact ringRow_keepsCore s _ _ _
  obtain ⟨u, hu, hk⟩ := hcore
  obtain rfl : u = t := by simpa [hu] using h
  exact congrArg StateCore.tick hk

/-- Settles O3: most commands keep the core, of which the tick is a part; of the others, COMMIT and the die starts alone reach the clock
that a step leaves. -/
theorem onlyCommitAndDieStartMoveTheTick : Obligations.OnlyCommitAndDieStartMoveTheTick := by
  unfold Obligations.OnlyCommitAndDieStartMoveTheTick
  intro i s t hc hd hw h
  cases hm : movesCore i with
  | true => exact exec_movesCore_tick hm hc hd hw h
  | false => exact exec_tick_of_keepsCore hm h

end Sys2Proof.Machine
end

section
/-! TENANT_CONFIGURE: O15. -/

namespace Sys2Proof.Machine

/-- Two updates of one tenant are one. -/
theorem State.modTenant_modTenant (s : State) (t : Tenant) (g k : TenantSt → TenantSt) :
    (s.modTenant t g).modTenant t k = s.modTenant t (fun x => k (g x)) := by
  have h : (s.modTenant t g).tenantSt t = g (s.tenantSt t) := State.tenantSt_modTenant s t g
  unfold State.tenantSt at h
  simp only [State.modTenant] at h ⊢
  simp only [h, Vector.set_set]

/-- R202: the queue quota that the command gives its tenant. -/
def givenQuota (p : TenantConfigureP) : Nat := if p.queueQuota = 0 then 1024 else p.queueQuota.toNat

/-- R39, R202: a tenant as the command maps it. -/
def TenantSt.mapped (x : TenantSt) (p : TenantConfigureP) : TenantSt :=
  { x with configured := true, partition := p.partition.toNat, quota := givenQuota p }

/-- R80: the epoch-retirement clasp of a tenant, as it is created. -/
def retireClaspOf (t : Tenant) (id : Nat) : Clasp :=
  { id := id, fn := fnOf t, value := 1, latched := 1, mirror := 0, threshold := none, vector := none, retire := true, changed := false }

theorem State.tenantHasWork_false {s : State} {t : Tenant} (hstreams : ∀ x ∈ s.work.streams, x.fn ≠ fnOf t)
    (hmodels : ∀ m ∈ s.work.models, m.fn ≠ fnOf t) : s.tenantHasWork t = false := by
  simpa [State.tenantHasWork] using ⟨hstreams, hmodels⟩

section
variable {p : TenantConfigureP} {s : State} {t : Tenant} (ht : p.tenant.toNat = t.val)
include ht

theorem applyTenantConfigure_eq : applyTenantConfigure p s =
    if partCount s.work.startMask ≤ p.partition.toNat then refuse s .notFound
    else if s.tenantHasWork t then refuse s .partitionBusy
    else if s.host.queues.any (fun q => q.fn == fnOf t && givenQuota p ≤ q.slot) then refuse s .quotaExceeded
    else
      let m := s.modTenant t (fun x => x.mapped p)
      let m := if !(s.tenantSt t).configured then (m.modTenant t (fun x => { x with tableEpoch := 1 })).addRetireClasp t else m
      (m, some (okWith (le 2 ((m.tenantSt t).retireClasp.getD 0xFFFF)))) := by
  have hlt : p.tenant.toNat < 16 := ht ▸ t.isLt
  have heq : (⟨p.tenant.toNat, hlt⟩ : Tenant) = t := Fin.ext ht
  have hquota : (if p.queueQuota.toNat = 0 then 1024 else p.queueQuota.toNat) = givenQuota p := by
    unfold givenQuota
    simp only [← BitVec.toNat_inj]
    rfl
  unfold applyTenantConfigure
  rw [dif_pos hlt, heq, hquota]
  rfl

theorem applyTenantConfigure_notFound (h : partCount s.work.startMask ≤ p.partition.toNat) :
    applyTenantConfigure p s = refuse s .notFound := by
  rw [applyTenantConfigure_eq ht, if_pos h]

section
variable (hpart : p.partition.toNat < partCount s.work.startMask)
include hpart

theorem applyTenantConfigure_busy
    (h : (∃ x ∈ s.work.streams, x.fn = fnOf t) ∨ (∃ m ∈ s.work.models, m.fn = fnOf t)) :
    applyTenantConfigure p s = refuse s .partitionBusy := by
  have hwork : s.tenantHasWork t = true := by simpa [State.tenantHasWork] using h
  rw [applyTenantConfigure_eq ht, if_neg (Nat.not_le.2 hpart), if_pos hwork]

variable (hstreams : ∀ x ∈ s.work.streams, x.fn ≠ fnOf t) (hmodels : ∀ m ∈ s.work.models, m.fn ≠ fnOf t)
include hstreams hmodels

theorem applyTenantConfigure_quota (h : ∃ q ∈ s.host.queues, q.fn = fnOf t ∧ givenQuota p ≤ q.slot) :
    applyTenantConfigure p s = refuse s .quotaExceeded := by
  rw [applyTenantConfigure_eq ht, if_neg (Nat.not_le.2 hpart), State.tenantHasWork_false hstreams hmodels, if_neg Bool.false_ne_true,
    if_pos (by simpa using h)]

variable (hqueues : ∀ q ∈ s.host.queues, q.fn = fnOf t → q.slot < givenQuota p)
include hqueues

theorem applyTenantConfigure_remaps {id : Nat} (hc : (s.tenantSt t).configured = true) (hid : (s.tenantSt t).retireClasp = some id) :
    applyTenantConfigure p s = (s.modTenant t (fun x => x.mapped p), some (okWith (le 2 id))) := by
  rw [applyTenantConfigure_eq ht, if_neg (Nat.not_le.2 hpart), State.tenantHasWork_false hstreams hmodels, if_neg Bool.false_ne_true,
    if_neg (by simpa using hqueues)]
  simp [hc, TenantSt.mapped, hid]

theorem applyTenantConfigure_maps {id : Nat} (hc : (s.tenantSt t).configured = false) (hid : s.freeClasp = some id) :
    applyTenantConfigure p s =
      ((s.withHost { s.host with clasps := s.host.clasps ++ [retireClaspOf t id] }).modTenant t
        (fun x => { x.mapped p with tableEpoch := 1, retireClasp := some id }), some (okWith (le 2 id))) := by
  have hadd : ((s.modTenant t (fun x => x.mapped p)).modTenant t (fun x => { x with tableEpoch := 1 })).addRetireClasp t =
      (s.withHost { s.host with clasps := s.host.clasps ++ [retireClaspOf t id] }).modTenant t
        (fun x => { x.mapped p with tableEpoch := 1, retireClasp := some id }) := by
    have hfree : (s.modTenant t (fun x => { x.mapped p with tableEpoch := 1 })).freeClasp = some id := hid
    rw [State.modTenant_modTenant]
    unfold State.addRetireClasp
    rw [hfree]
    exact State.modTenant_modTenant (s.withHost { s.host with clasps := s.host.clasps ++ [retireClaspOf t id] }) t
      (fun x => { x.mapped p with tableEpoch := 1 }) (fun x => { x with retireClasp := some id })
  rw [applyTenantConfigure_eq ht, if_neg (Nat.not_le.2 hpart), State.tenantHasWork_false hstreams hmodels, if_neg Bool.false_ne_true,
    if_neg (by simpa using hqueues)]
  simp [hc, hadd]

end
end

/-- Settles O15. No precondition reads the clock, so each holds of the coming commit's state as it holds of `s`; a tenant mapped for the
first time is one update of it and one clasp more. -/
theorem tenantConfigureMaps : Obligations.TenantConfigureMaps := by
  unfold Obligations.TenantConfigureMaps
  intro h p s t ha ht quota part ends
  refine ⟨fun hnone => ringRow_refuses ha (applyTenantConfigure_notFound (s := s.coming) ht hnone),
    fun hpart => ⟨fun hwork => ringRow_refuses ha (applyTenantConfigure_busy (s := s.coming) ht hpart hwork),
      fun hstreams hmodels => ⟨fun hslot => ringRow_refuses ha (applyTenantConfigure_quota (s := s.coming) ht hpart hstreams hmodels hslot),
        fun hqueues => ⟨fun id hc hid => ?remaps, fun id hc hid => ?maps⟩⟩⟩⟩
  case remaps =>
    exact ringRow_answers ha (applyTenantConfigure_remaps (s := s.coming) ht hpart hstreams hmodels hqueues hc hid) rfl
  case maps =>
    exact ringRow_answers ha (applyTenantConfigure_maps (s := s.coming) ht hpart hstreams hmodels hqueues hc hid) rfl

end Sys2Proof.Machine
end

section
/-! Overruns, faults and released inputs (O52, R64, R85, R89). -/

namespace Sys2Proof.Machine

/-! ### STAGE_OVERRUN (R64) -/

/-- A frame whose stage of this tick overran. -/
def Frame.overran (f : Frame) (seq cause : Nat) : Frame := if f.seq == seq && !f.idle then { f with withdrawn := some cause } else f

/-- A stream of which one frame's stage overran. -/
def Stream.overran (x : Stream) (seq cause : Nat) : Stream := { x with frames := x.frames.map (fun f => f.overran seq cause) }

theorem exec_stageOverrun {i : OverrunIn} {s : State} (hr : s.isReady = true) : exec (.stageOverrun i) s =
    .next (s.modStream i.handle.toNat (fun x => x.overran i.seq.toNat (overrunCause i.unit.kind))) := by
  change execStageOverrun i s = _
  unfold execStageOverrun
  dsimp only
  rw [if_pos hr]
  rfl

theorem Frame.overran_running {f : Frame} {seq : Nat} (hs : f.seq = seq) (hidle : f.idle = false) (cause : Nat) :
    f.overran seq cause = { f with withdrawn := some cause } := if_pos (by simp [hs, hidle])

theorem Frame.overran_other {f : Frame} {seq : Nat} (h : f.seq ≠ seq ∨ f.idle = true) (cause : Nat) : f.overran seq cause = f :=
  if_neg (by simpa [imp_iff_not_or] using h)

/-! ### FAULT_REPORT (R85, R88) -/

theorem exec_faultReport {i : FaultIn} {s : State} (hr : s.isReady = true) : exec (.faultReport i) s =
    .next { s with safety := { s.safety with faults := s.safety.faults ++
      [{ cls := i.cls, handle := i.handle.toNat, seq := i.seq.toNat, unit := i.unit, stateLost := i.stateLost, column := none }] } } := by
  change execFaultReport i s = _
  unfold execFaultReport
  rw [if_neg (by simp [hr])]
  rfl

/-! ### Freeing buffers by handle (R281, R414, R422) -/

/-- A buffer's handle is that of its place. -/
theorem State.bufHandle_congr (s : State) {b c : Buffer} (h : bufKey b = bufKey c) : s.bufHandle b = s.bufHandle c := by
  simp only [bufKey, Prod.mk.injEq] at h
  obtain ⟨hrow, hcls, hindex⟩ := h
  simp only [State.bufHandle, Fin.ext hrow, hcls, hindex]

/-- The place that a generation belongs to, tested as the pool tests it. -/
theorem genKey_beq {g : BufGen} {b : Buffer} :
    (g.row == b.row && g.cls == b.cls && g.index == b.index) = true ↔ (g.row.val, g.cls, g.index) = bufKey b := by
  simp [bufKey, Fin.ext_iff, and_assoc]

/-- R414: a release advances no other place's generation. -/
theorem Pools.genOf_release_ne (x : Pools) {b c : Buffer} (h : bufKey c ≠ bufKey b) :
    (x.release b).genOf c.row c.cls c.index = x.genOf c.row c.cls c.index := by
  have hother {g : BufGen} (hg : (g.row == c.row && g.cls == c.cls && g.index == c.index) = true) :
      (g.row == b.row && g.cls == b.cls && g.index == b.index) = false :=
    Bool.eq_false_iff.2 fun hb => h ((genKey_beq.1 hg).symm.trans (genKey_beq.1 hb))
  have hrest : (x.gens.filter (fun g => !(g.row == b.row && g.cls == b.cls && g.index == b.index))).find?
      (fun g => g.row == c.row && g.cls == c.cls && g.index == c.index) =
      x.gens.find? (fun g => g.row == c.row && g.cls == c.cls && g.index == c.index) := by
    rw [List.find?_filter]
    congr 1
    funext g
    cases hg : g.row == c.row && g.cls == c.cls && g.index == c.index with
    | false => simp
    | true => simp [hother hg]
  unfold Pools.release Pools.bumpGen
  dsimp only
  generalize (Pools.genOf _ b.row b.cls b.index + 1) % 256 = gen
  unfold Pools.genOf
  by_cases h0 : gen = 0
  · rw [if_pos h0, hrest]
  · have hnew := mt (genKey_beq (g := { row := b.row, cls := b.cls, index := b.index, gen := gen })).1 fun hg => h hg.symm
    rw [if_neg h0]
    dsimp only
    rw [List.find?_cons, Bool.eq_false_iff.2 hnew, hrest]

section
variable {s : State} {p n : Nat} {b : Buffer}

/-- A free changes the handle of no buffer in another place. -/
theorem State.bufHandle_release_ne {c : Buffer} (h : bufKey c ≠ bufKey b) :
    ({ s with pools := s.pools.release b } : State).bufHandle c = s.bufHandle c := by
  have hgen := s.pools.genOf_release_ne h
  unfold State.bufHandle
  exact congrArg (2 ^ 29 * c.cls + 2 ^ 8 * s.poolIndex c.row c.cls c.index + ·) hgen

/-- A free by handle does nothing, or releases an outstanding buffer of that handle. -/
theorem State.freeBuffer_cases (s : State) (p n : Nat) :
    s.freeBuffer p n = s ∨ ∃ b, s.bufHandle b = n ∧ s.freeBuffer p n = { s with pools := s.pools.release b } := by
  unfold State.freeBuffer
  split
  next b hb =>
    split
    · exact .inl rfl
    · have hfound := List.find?_some hb
      exact .inr ⟨b, by simpa using (Bool.and_eq_true_iff.1 hfound).2, rfl⟩
  next => exact .inl rfl

/-- A release frees the buffer of one place, and no other. -/
theorem Pools.mem_release {x : Pools} {c : Buffer} : c ∈ (x.release b).bufs ↔ c ∈ x.bufs ∧ bufKey c ≠ bufKey b := by
  change c ∈ x.bufs.filter _ ↔ _
  rw [List.mem_filter, Bool.not_eq_true', ← Bool.not_eq_true, bufKey_beq]

/-- A free by handle takes no buffer of another handle, and leaves it its handle. -/
theorem State.freeBuffer_bufs (s : State) (p n : Nat) : (∀ b ∈ (s.freeBuffer p n).pools.bufs, b ∈ s.pools.bufs) ∧
    ∀ b ∈ s.pools.bufs, s.bufHandle b ≠ n → b ∈ (s.freeBuffer p n).pools.bufs ∧ (s.freeBuffer p n).bufHandle b = s.bufHandle b := by
  rcases s.freeBuffer_cases p n with hsame | ⟨c, hc, hfree⟩
  · rw [hsame]
    exact ⟨fun _ hb => hb, fun _ hb _ => ⟨hb, rfl⟩⟩
  · rw [hfree]
    refine ⟨fun b hb => (Pools.mem_release.1 hb).1, fun b hb hne => ?_⟩
    have hkey : bufKey b ≠ bufKey c := fun h => hne ((s.bufHandle_congr h).trans hc)
    exact ⟨Pools.mem_release.2 ⟨hb, hkey⟩, State.bufHandle_release_ne hkey⟩

/-- Frees by handle take buffers away, of those handles alone. -/
theorem State.freeBuffers_bufs (p : Nat) (ns : List Nat) (s : State) :
    (∀ b ∈ (s.freeBuffers p ns).pools.bufs, b ∈ s.pools.bufs) ∧
      ∀ b ∈ s.pools.bufs, s.bufHandle b ∉ ns → b ∈ (s.freeBuffers p ns).pools.bufs := by
  induction ns generalizing s with
  | nil => exact ⟨fun _ hb => hb, fun _ hb _ => hb⟩
  | cons n ns ih =>
    obtain ⟨hsub, hkeep⟩ := s.freeBuffer_bufs p n
    obtain ⟨hsubs, hkeeps⟩ := ih (s.freeBuffer p n)
    refine ⟨fun b hb => hsub b (hsubs b hb), fun b hb hnot => ?_⟩
    obtain ⟨hne, hnot⟩ := not_or.1 (mt List.mem_cons.2 hnot)
    obtain ⟨hmem, hhandle⟩ := hkeep b hb hne
    exact hkeeps b hmem (by rwa [hhandle])

/-- The one outstanding buffer, which nothing keeps, is freed by its handle. -/
theorem State.freeBuffers_only (hbufs : s.pools.bufs = [b]) (hp : partOfRow s.work.startMask b.row.val = p)
    (hkept : s.work.retained = []) : (s.freeBuffers p [s.bufHandle b]).pools.bufs = [] := by
  have hfound : s.bufByHandle p (s.bufHandle b) = some b := by
    unfold State.bufByHandle
    rw [hbufs, List.find?_cons_of_pos (by simp [hp])]
  have hkeeps : s.keeps p (s.bufHandle b) = false := by simp [State.keeps, hkept]
  have hfree : s.freeBuffers p [s.bufHandle b] = { s with pools := s.pools.release b } := by
    simp [State.freeBuffers, State.freeBuffer, hfound, hkeeps]
  rw [hfree, List.eq_nil_iff_forall_not_mem]
  intro c hc
  obtain ⟨hmem, hkey⟩ := Pools.mem_release.1 hc
  rw [hbufs, List.mem_singleton] at hmem
  exact hkey (congrArg bufKey hmem)

end

/-! ### REPLAY_INPUTS_RELEASED (R89) -/

section
variable {i : FrameRef} {r : Retained} {s : State}

/-- R89: the handles that a release of kept inputs frees: those that the stream itself does not name. -/
def State.releasable (s : State) (r : Retained) : List Nat :=
  r.buffers.filter (fun b => !(match s.stream? r.handle with
    | some x => x.buffers
    | none => []).contains b)

theorem State.releasable_sub {n : Nat} (h : n ∈ s.releasable r) : n ∈ r.buffers := (List.mem_filter.1 h).1

theorem State.releasable_closed (h : s.stream? r.handle = none) : s.releasable r = r.buffers := by
  unfold State.releasable
  rw [h]
  exact List.filter_eq_self.2 fun _ _ => rfl

/-- Kept inputs are forgotten and their buffers freed; besides, one event is raised. -/
def State.forgetInputs (s : State) (r : Retained) : State :=
  (s.withWork { s.work with retained := s.work.retained.erase r }).freeBuffers (s.partOf r.fn) (s.releasable r)

theorem State.releaseInputs_eq (s : State) (r : Retained) : s.releaseInputs r =
    (s.forgetInputs r).raiseStream r.fn 0x0008 r.handle (le 8 r.frame.seq ++ le 8 r.frame.t0) := rfl

variable (hkept : s.work.retained = [r]) (hhandle : r.handle = i.handle.toNat) (hseq : r.frame.seq = i.seq.toNat)
include hkept hhandle hseq

theorem exec_replayInputsReleased : exec (.replayInputsReleased i) s =
    .next (if s.dead || s.clk.tick + 1 < r.commit + 2 then s else s.atNext (fun u => u.releaseInputs r)) := by
  change execReplayInputsReleased i s = _
  unfold execReplayInputsReleased
  rw [hkept, List.find?_cons_of_pos (by simp [hhandle, hseq])]

theorem exec_replayInputsReleased_early (h : s.clk.tick + 1 < r.commit + 2) : exec (.replayInputsReleased i) s = .next s := by
  rw [exec_replayInputsReleased hkept hhandle hseq, if_pos (by simp [h])]

theorem exec_replayInputsReleased_due (hr : s.dead = false) (h : r.commit + 2 ≤ s.clk.tick + 1) :
    exec (.replayInputsReleased i) s = .next (s.atNext (fun u => u.releaseInputs r)) := by
  rw [exec_replayInputsReleased hkept hhandle hseq, if_neg (by simp [hr]; omega)]

end

/-- R89: the inputs of the one frame kept are forgotten, the event raised as of the coming commit, and no buffer freed but theirs. -/
theorem State.releaseInputs_spec {s : State} {r : Retained} (hkept : s.work.retained = [r]) :
    let t := s.atNext (fun u => u.releaseInputs r)
    t.work = { s.work with retained := [] } ∧ Raised s t r.fn 0x0008 (s.clk.tick + 1) ∧ t.clk = s.clk ∧ t.dram = s.dram ∧
      t.pools = (s.coming.forgetInputs r).pools := by
  obtain ⟨x, hx⟩ := State.freeBuffers_eq (s.coming.partOf r.fn) (s.coming.releasable r)
    (s.coming.withWork { s.work with retained := s.work.retained.erase r })
  have hforget : s.coming.forgetInputs r = { s.coming with work := { s.work with retained := [] }, pools := x } := by
    refine Eq.trans hx ?_
    rw [hkept, List.erase_cons_head]
    rfl
  have hraised := State.raiseFull_raised (s.coming.forgetInputs r) r.fn 0x0008 (severityOf 0x0008) 0xFFFF r.handle 0xFF
    (le 8 r.frame.seq ++ le 8 r.frame.t0)
  intro t
  have ht : t = ((s.coming.forgetInputs r).raiseStream r.fn 0x0008 r.handle (le 8 r.frame.seq ++ le 8 r.frame.t0)).backTo s.clk := rfl
  rw [hforget] at ht hraised ⊢
  exact ⟨by rw [ht]; rfl, by rw [ht]; exact hraised.of_host rfl, by rw [ht]; rfl, by rw [ht]; rfl, by rw [ht]; rfl⟩

end Sys2Proof.Machine
end

section
/-! GAP records and EVENTS_LOST as parts of the coming issue step, and with them O52 (R243, R408). -/

namespace Sys2Proof.Machine

/-! ### A part of the coming issue step -/

/-- What a step of the coming commit's issue step sees: the writes that already stand first in it, and the coming commit's counters. -/
def State.ahead (s : State) : State :=
  (s.withHost { s.host with issue := s.host.ahead, queues := s.host.queues.map Queue.swapAudit }).coming

theorem Queue.swapAudit_swapAudit (q : Queue) : q.swapAudit.swapAudit = q := rfl

/-- A part of the issue step that changes the host side alone leaves its writes ahead of the coming issue step. -/
theorem State.issueAhead_host {s : State} {f : State → State} {h : HostSide} (hf : f s.ahead = { s.ahead with host := h }) :
    s.issueAhead f =
      { s with host := { h with ahead := h.issue, issue := s.host.issue, queues := h.queues.map Queue.swapAudit } } := by
  have heq : s.issueAhead f = ((f s.ahead).backTo s.clk).withHost { (f s.ahead).host with
      ahead := (f s.ahead).host.issue, issue := s.host.issue, queues := (f s.ahead).host.queues.map Queue.swapAudit } := rfl
  rw [heq, hf]
  rfl

/-- A part of the issue step that has nothing to do changes nothing. -/
theorem State.issueAhead_same {s : State} {f : State → State} (hf : f s.ahead = s.ahead) : s.issueAhead f = s := by
  have hqueues : (s.host.queues.map Queue.swapAudit).map Queue.swapAudit = s.host.queues := by
    rw [List.map_map]
    exact List.map_id'' Queue.swapAudit_swapAudit _
  have heq := State.issueAhead_host (h := s.ahead.host) hf
  rw [heq]
  change ({ s with host := { s.host with queues := (s.host.queues.map Queue.swapAudit).map Queue.swapAudit } } : State) = s
  rw [hqueues]

/-- Exchanging the counters of every ring exchanges those of the ring found. -/
theorem find?_swapAudit (f : Fn) (slot : Nat) (qs : List Queue) : (qs.map Queue.swapAudit).find? (fun q => q.fn == f && q.slot == slot) =
    (qs.find? (fun q => q.fn == f && q.slot == slot)).map Queue.swapAudit := List.find?_map ..

section
variable {s : State} {f : Fn} {slot : Nat} {q : Queue}

theorem State.queue?_ahead (hq : s.queue? f slot = some q) : s.ahead.queue? f slot = some q.swapAudit :=
  (find?_swapAudit f slot s.host.queues).trans (congrArg (Option.map Queue.swapAudit) hq)

theorem State.writable_ahead : s.ahead.writable q.swapAudit = s.writable q := rfl

/-! ### GAP records (R408) -/

/-- A ring that has written `n` GAP records. -/
def Queue.wroteGaps (q : Queue) : Nat → Queue
  | 0 => q
  | n + 1 => (q.form.wrote 1).wroteGaps n

theorem Queue.wroteGaps_spec (q : Queue) (n : Nat) : (q.wroteGaps n).prod = q.prod + n ∧ (q.wroteGaps n).cons = q.cons := by
  induction n generalizing q with
  | zero => exact ⟨rfl, rfl⟩
  | succ n ih =>
    obtain ⟨hprod, hcons⟩ := ih (q.form.wrote 1)
    exact ⟨hprod.trans (Nat.add_right_comm q.prod 1 n), hcons⟩

/-- The records that a ring's gaps become, one entry each from the ring's next one on; `addr` is the bus address of a ring's next entry. -/
def gapRecords (addr : Queue → Nat) (tstate : Byte) (tick : Nat) (q : Queue) : List Gap → List Posted
  | [] => []
  | g :: gs => .record q.fn q.slot (q.prod % q.entries) (addr q) (.gap g q.recordSeq tstate tick) ::
      gapRecords addr tstate tick (q.form.wrote 1) gs

theorem length_gapRecords (addr : Queue → Nat) (tstate : Byte) (tick : Nat) (q : Queue) (gs : List Gap) :
    (gapRecords addr tstate tick q gs).length = gs.length := by
  induction gs generalizing q with
  | nil => rfl
  | cons g gs ih => exact congrArg (· + 1) (ih _)

/-- One GAP record to the ring of a slot, if it is there. -/
def State.putGap (f : Fn) (slot : Nat) (s : State) (g : Gap) : State :=
  match s.queue? f slot with
  | some q => s.postRecord [] q g.stream g.firstFrame (.gap g q.recordSeq s.clk.stateByte s.clk.tick)
  | none => s

/-- A state with other rings, and with more writes in its issue step. -/
def State.posted (s : State) (qs : List Queue) (ps : List Posted) : State :=
  s.withHost { s.host with queues := qs, issue := s.host.issue ++ ps }

theorem State.putGap_eq (hq : s.queue? f slot = some q) (g : Gap) : s.putGap f slot g =
    s.posted (s.modQueue f slot (fun q => q.form.wrote 1)).host.queues
      (gapRecords (fun q => s.entryAddr q q.prod) s.clk.stateByte s.clk.tick q [g]) := by
  obtain ⟨rfl, rfl⟩ := State.queue?_some hq
  unfold State.putGap
  rw [hq]
  rfl

/-- The GAP records of a ring are written one behind the other. -/
theorem State.putGaps_spec (gs : List Gap) (hq : s.queue? f slot = some q) : ∃ qs,
    gs.foldl (State.putGap f slot) s = s.posted qs (gapRecords (fun q => s.entryAddr q q.prod) s.clk.stateByte s.clk.tick q gs) ∧
      (s.posted qs []).queue? f slot = some (q.wroteGaps gs.length) := by
  induction gs generalizing s q with
  | nil => exact ⟨s.host.queues, by simp [gapRecords, State.posted, State.withHost], hq⟩
  | cons g gs ih =>
    have hnext : (s.putGap f slot g).queue? f slot = some (q.form.wrote 1) := by
      rw [State.putGap_eq hq]
      exact State.queue?_modQueue hq fun _ => ⟨rfl, rfl⟩
    obtain ⟨qs, hfold, hfind⟩ := ih hnext
    refine ⟨qs, ?_, hfind⟩
    rw [List.foldl_cons, hfold, State.putGap_eq hq]
    simp only [State.posted, State.withHost, List.append_assoc]
    rfl

theorem State.writeGaps_waits (hq : s.queue? f slot = some q) (h : q.gaps = [] ∨ s.writable q < q.gaps.length) :
    s.writeGaps [] f slot = s := by
  unfold State.writeGaps
  rw [hq]
  dsimp only
  rw [if_pos (by simpa using h)]

end

section
variable {α : Type} (before : α → α → Bool)

theorem length_insertAhead (x : α) (l : List α) : (sortBy.insertAhead before x l).length = l.length + 1 := by
  induction l with
  | nil => rfl
  | cons y l ih =>
    unfold sortBy.insertAhead
    split
    · exact congrArg (· + 1) ih
    · rfl

theorem length_sortBy (l : List α) : (sortBy before l).length = l.length := by
  induction l with
  | nil => rfl
  | cons x l ih => exact (length_insertAhead before x _).trans (congrArg (· + 1) ih)

end

/-- A ring's gaps in the order in which their records are written. -/
def Queue.gapOrder (q : Queue) : List Gap := sortBy (fun (a b : Gap) => decide (a.stream < b.stream)) q.gaps

/-- A ring whose gaps have all been told. -/
def Queue.toldGaps (q : Queue) : Queue := { q.wroteGaps q.gaps.length with gaps := [], missedRetractions := [] }

section
variable {s : State} {f : Fn} {slot : Nat} {q : Queue}

/-- With room for them all and no retraction missed, the gaps' records are all that is written. -/
theorem State.writeGaps_writes (hq : s.queue? f slot = some q) (hgaps : q.gaps ≠ []) (hroom : q.gaps.length ≤ s.writable q)
    (hmissed : q.missedRetractions = []) : ∃ qs, s.writeGaps [] f slot =
      s.posted qs (gapRecords (fun q => s.entryAddr q q.prod) s.clk.stateByte s.clk.tick q q.gapOrder) ∧
      (s.posted qs []).queue? f slot = some q.toldGaps := by
  obtain ⟨qs, hfold, hfind⟩ := State.putGaps_spec q.gapOrder hq
  have hlen : q.gapOrder.length = q.gaps.length := length_sortBy _ _
  have hwrite : s.writeGaps [] f slot = (q.gapOrder.foldl (State.putGap f slot) s).modQueue f slot
      (fun q => { q with gaps := [], missedRetractions := [] }) := by
    unfold State.writeGaps
    rw [hq]
    dsimp only
    rw [if_neg (by simp [hgaps, hroom]), hmissed]
    rfl
  rw [hlen] at hfind
  rw [hwrite, hfold]
  exact ⟨_, rfl, State.queue?_modQueue hfind fun _ => ⟨rfl, rfl⟩⟩

end

section
variable {i : RingIn} {s : State} {q : Queue} (hr : s.isReady = true) (hq : s.queue? i.fn i.slot.toNat = some q)
include hr

theorem exec_gapWrite : exec (.gapWrite i) s = .next (s.issueAhead (fun u => u.writeGaps [] i.fn i.slot.toNat)) := by
  change execGapWrite i s = _
  unfold execGapWrite
  rw [if_pos hr]

include hq

theorem exec_gapWrite_waits (h : q.gaps = [] ∨ s.writable q < q.gaps.length) : exec (.gapWrite i) s = .next s := by
  rw [exec_gapWrite hr, State.issueAhead_same (State.writeGaps_waits (State.queue?_ahead hq) h)]

theorem exec_gapWrite_writes (hgaps : q.gaps ≠ []) (hmissed : q.missedRetractions = []) (hroom : q.gaps.length ≤ s.writable q) :
    ∃ t, exec (.gapWrite i) s = .next t ∧ t = { s with host := t.host } ∧
      t.queue? i.fn i.slot.toNat = some q.swapAudit.toldGaps.swapAudit ∧
      t.host.ahead = s.host.ahead ++
        gapRecords (fun q => s.ahead.entryAddr q q.prod) s.coming.clk.stateByte (s.clk.tick + 1) q.swapAudit q.gapOrder := by
  obtain ⟨qs, hwrite, hfind⟩ := State.writeGaps_writes (s := s.ahead) (q := q.swapAudit) (State.queue?_ahead hq) hgaps hroom hmissed
  refine ⟨_, (exec_gapWrite hr).trans (congrArg Host.Outcome.next (State.issueAhead_host hwrite)), rfl, ?_, rfl⟩
  exact (find?_swapAudit i.fn i.slot.toNat qs).trans (congrArg (Option.map Queue.swapAudit) hfind)

end

/-! ### EVENTS_LOST (R243) -/

section
variable {f : Fn} {s : State} {q : Queue}

theorem State.writeLost_waits (hq : s.queue? f 2 = some q) (h : (s.fnSt f).eventDropped = 0 ∨ s.writable q = 0) : s.writeLost f = s := by
  unfold State.writeLost
  rw [hq]
  dsimp only
  rw [if_pos (by simpa using h)]

/-- The count of the events lost goes into the ring's next entry, and the count starts again. -/
theorem State.writeLost_writes (hq : s.queue? f 2 = some q) (hlost : (s.fnSt f).eventDropped ≠ 0) (hroom : s.writable q ≠ 0) :
    s.writeLost f = ((s.modFn f (fun x => { x with eventDropped := 0, eventSeq := ((s.fnSt f).lostEvent s).seq })).posted
      (s.modQueue f 2 (fun q => { q with prod := q.prod + 1 })).host.queues [s.eventAt q q.prod ((s.fnSt f).lostEvent s)]) := by
  unfold State.writeLost
  rw [hq]
  dsimp only
  rw [if_neg (by simp [hlost, hroom])]
  rfl

variable (hr : s.isReady = true) (hq : s.queue? f 2 = some q)
include hr

theorem exec_eventsLost : exec (.eventsLost ⟨f⟩) s = .next (s.issueAhead (fun u => u.writeLost f)) := by
  change execEventsLost ⟨f⟩ s = _
  unfold execEventsLost
  rw [if_pos hr]

include hq

theorem exec_eventsLost_waits (h : (s.fnSt f).eventDropped = 0 ∨ s.writable q = 0) : exec (.eventsLost ⟨f⟩) s = .next s := by
  rw [exec_eventsLost hr, State.issueAhead_same (State.writeLost_waits (State.queue?_ahead hq) h)]

theorem exec_eventsLost_writes (hlost : (s.fnSt f).eventDropped ≠ 0) (hroom : s.writable q ≠ 0) :
    ∃ t addr, exec (.eventsLost ⟨f⟩) s = .next t ∧ t = { s with host := t.host } ∧
      t.host.ahead = s.host.ahead ++
        [.event q.fn (q.prod % q.entries) addr (q.phaseAt q.prod) ((s.fnSt f).lostEvent s.ahead)] ∧
      (t.fnSt f).eventDropped = 0 ∧ ∃ q', t.queue? f 2 = some q' ∧ q'.prod = q.prod + 1 := by
  have hahead := State.queue?_ahead hq
  have hwrite := State.writeLost_writes hahead hlost hroom
  have hcount := State.fnSt_modFn s.ahead f (fun x => { x with eventDropped := 0, eventSeq := ((s.fnSt f).lostEvent s.ahead).seq })
  have hfind := State.queue?_modQueue (g := fun q => { q with prod := q.prod + 1 }) hahead fun _ => ⟨rfl, rfl⟩
  refine ⟨_, _, (exec_eventsLost hr).trans (congrArg Host.Outcome.next (State.issueAhead_host hwrite)), rfl, rfl,
    congrArg FnState.eventDropped hcount, _,
    (find?_swapAudit f 2 _).trans (congrArg (Option.map Queue.swapAudit) hfind), rfl⟩

end

/-- Settles O52: an overrun is one update of its stream and a fault one note; a release of inputs frees by handle, which reaches the
buffers of those handles alone; the records of gaps and of lost events are written as parts of the coming issue step. -/
theorem faultsAndLossesAreTold : Obligations.FaultsAndLossesAreTold := by
  unfold Obligations.FaultsAndLossesAreTold
  intro s hr
  have hrun : s.dead = false := by
    obtain ⟨hboot, hready⟩ : s.boot.running = true ∧ s.safety.state = .ready := by simpa [State.isReady] using hr
    simp [State.dead, hboot, hready]
  refine ⟨fun i => ⟨_, exec_stageOverrun hr, fun x => ⟨List.length_map _, rfl, fun k f f' hf hf' => ?overrun⟩⟩,
    fun i => exec_faultReport hr, fun i r hkept hhandle hseq => ⟨exec_replayInputsReleased_early hkept hhandle hseq, fun hdue => ?release⟩,
    fun i q hq => ⟨exec_gapWrite_waits hr hq, fun g hg hmissed hroom => ?gap, fun hgaps hmissed hroom => ?gaps⟩,
    fun f q hq => ⟨exec_eventsLost_waits hr hq, fun hlost hroom => ?lost⟩⟩
  case overrun =>
    have hmark : f' = f.overran i.seq.toNat (overrunCause i.unit.kind) := by
      have hget := List.getElem?_map (f := fun f : Frame => f.overran i.seq.toNat (overrunCause i.unit.kind)) (l := x.frames) (i := k)
      rw [hf] at hget
      exact Option.some.inj (hf'.symm.trans hget)
    exact ⟨fun hs hidle => hmark.trans (Frame.overran_running hs hidle _), fun h => hmark.trans (Frame.overran_other h _)⟩
  case release =>
    obtain ⟨hwork, hraised, hclk, hdram, hpools⟩ := State.releaseInputs_spec hkept
    obtain ⟨hsub, hkeep⟩ := State.freeBuffers_bufs (s.coming.partOf r.fn) (s.coming.releasable r)
      (s.coming.withWork { s.work with retained := s.work.retained.erase r })
    refine ⟨_, exec_replayInputsReleased_due hkept hhandle hseq hrun hdue, hwork, hraised, hclk, hdram, ?_, ?_, ?_⟩ <;> rw [hpools]
    · exact hsub
    · exact fun b hb hnot => hkeep b hb fun hmem => hnot (State.releasable_sub hmem)
    · intro b hbufs hpart hbuffers hgone
      have hfreed : s.coming.releasable r = [s.bufHandle b] := (State.releasable_closed hgone).trans hbuffers
      unfold State.forgetInputs
      rw [hfreed]
      exact State.freeBuffers_only (s := s.coming.withWork { s.work with retained := s.work.retained.erase r }) hbufs hpart
        (by simp [hkept])
  case gap =>
    obtain ⟨t, hexec, hhost, hfind, hahead⟩ := exec_gapWrite_writes hr hq (by simp [hg]) hmissed (by simpa [hg] using hroom)
    obtain ⟨hfn, hslot⟩ := State.queue?_some hq
    have horder : q.gapOrder = [g] := by
      unfold Queue.gapOrder
      rw [hg]
      rfl
    have htold : q.swapAudit.toldGaps = { q.swapAudit.form.wrote 1 with gaps := [], missedRetractions := [] } := by
      unfold Queue.toldGaps
      rw [show q.swapAudit.gaps = [g] from hg]
      rfl
    rw [horder] at hahead
    rw [htold] at hfind
    refine ⟨t, hexec, ⟨s.ahead.entryAddr q.swapAudit q.prod, ?_⟩, ⟨_, hfind, rfl, rfl, rfl, rfl⟩, hhost⟩
    rw [← hfn, ← hslot]
    exact hahead
  case gaps =>
    obtain ⟨t, hexec, hhost, hfind, hahead⟩ := exec_gapWrite_writes hr hq hgaps hmissed hroom
    exact ⟨t, hexec, ⟨_, hfind, rfl, (q.swapAudit.wroteGaps_spec _).1⟩,
      ⟨_, hahead, (length_gapRecords _ _ _ _ _).trans (length_sortBy _ _)⟩, hhost⟩
  case lost =>
    obtain ⟨t, addr, hexec, hhost, hahead, hcount, hfind⟩ := exec_eventsLost_writes hr hq hlost hroom
    exact ⟨t, _, addr, hexec, hhost, hahead, rfl, rfl, rfl, hcount, hfind⟩

end Sys2Proof.Machine
end

section
/-! What a commit leaves of its tick (O7). The edge alone sets a clock's beat: each operation of the decision point, the apply step, the
plan and the issue step keeps the clock whole, but for TIME_SET's arming, the loading of a time-of-day and the notes it raises. -/

namespace Sys2Proof.Machine

/-- A fold over something that holds a state leaves its clock alone where each step does. -/
theorem clk_foldlOf {α β : Type} (st : β → State) {f : β → α → β} (hf : ∀ b a, (st (f b a)).clk = (st b).clk) (l : List α)
    (b : β) : (st (l.foldl f b)).clk = (st b).clk :=
  List.foldlRecOn (motive := fun c => (st c).clk = (st b).clk) l f rfl fun c hc a _ => (hf c a).trans hc

/-! ### Events, completions and signals -/

@[simp] theorem State.raiseAll_clk (s : State) (fs : List Fn) (code : Nat) (detail : List Byte) :
    (s.raiseAll fs code detail).clk = s.clk :=
  clk_foldl (fun _ _ => by rfl) _ _

@[simp] theorem State.addressFault_clk (s : State) (f : Fn) (slot a : Nat) (writing : Bool) :
    (s.addressFault f slot a writing).clk = s.clk := rfl

@[simp] theorem State.modQueueId_clk (s : State) (id : Nat) (g : Queue → Queue) : (s.modQueueId id g).clk = s.clk := rfl

@[simp] theorem State.oweMsix_clk (s : State) (f : Fn) (v : Option Nat) : (s.oweMsix f v).clk = s.clk := by
  unfold State.oweMsix
  (repeat' split) <;> simp

@[simp] theorem State.signalDone_clk (s : State) (h : CmdHead) : (s.signalDone h).clk = s.clk := by
  unfold State.signalDone
  split <;> simp

@[simp] theorem State.consume_clk (s : State) (p : RingPos) : (s.consume p).clk = s.clk := rfl

@[simp] theorem State.complete_clk (s : State) (h : CmdHead) (opcode : Byte) (pos : Option RingPos) (a : Answer) :
    (s.complete h opcode pos a).clk = s.clk := by
  unfold State.complete
  dsimp only
  (repeat' split) <;> simp

@[simp] theorem State.finishNow_clk (s : State) (w : Work) (a : Answer) : (s.finishNow w a).clk = s.clk := by
  simp [State.finishNow]

@[simp] theorem State.endWorks_clk (s : State) : s.endWorks.clk = s.clk := by simp [State.endWorks]

/-! ### The Hallmark -/

@[simp] theorem State.hallmarkOne_clk (s : State) (f : Fn) : (s.hallmarkOne f).clk = s.clk := by
  unfold State.hallmarkOne
  dsimp only
  (repeat' split) <;> simp

@[simp] theorem State.hallmarkCommit_clk (s : State) : s.hallmarkCommit.clk = s.clk := by simp [State.hallmarkCommit]

/-! ### The PCIe port -/

@[simp] theorem State.logError_clk (s : State) (f : Fn) (bit : Nat) : (s.logError f bit).clk = s.clk := by
  unfold State.logError
  dsimp only
  (repeat' split) <;> simp

@[simp] theorem State.postAt_clk (s : State) (f : Fn) (slot a n : Nat) (make : Nat → Posted) :
    (s.postAt f slot a n make).clk = s.clk := by
  unfold State.postAt
  split <;> simp

/-! ### Seals -/

@[simp] theorem State.sealFn_clk (s : State) (f : Fn) : (s.sealFn f).clk = s.clk := by
  unfold State.sealFn
  dsimp only
  (repeat' split) <;> simp

@[simp] theorem State.takeSeal_clk (s : State) (f : Fn) : (s.takeSeal f).clk = s.clk := by
  unfold State.takeSeal
  dsimp only
  (repeat' split) <;> simp

@[simp] theorem State.takeSeals_clk (s : State) : s.takeSeals.clk = s.clk := by simp [State.takeSeals]

/-! ### The work of TIME_SET -/

@[simp] theorem State.endTimeSet_clk (s : State) (head : Option CmdHead) (a : Answer) : (s.endTimeSet head a).clk = s.clk := by
  unfold State.endTimeSet
  split <;> simp

@[simp] theorem State.answerTod_clk (s : State) (code : Nat) : (s.answerTod code).clk = s.clk := by
  unfold State.answerTod
  split <;> simp

@[simp] theorem State.supersede_clk (s : State) : s.supersede.clk = s.clk := by
  unfold State.supersede
  (repeat' split) <;> simp

/-! ### Rings and their events -/

@[simp] theorem State.reportRejects_clk (s : State) : s.reportRejects.clk = s.clk :=
  clk_foldl (fun _ _ => (clk_foldl (fun _ _ => by rfl) _ _).trans (by rfl)) _ _

@[simp] theorem State.ringFault_clk (s : State) (q : Queue) : (s.ringFault q).clk = s.clk := by
  unfold State.ringFault
  split <;> simp

@[simp] theorem State.writeLost_clk (s : State) (f : Fn) : (s.writeLost f).clk = s.clk := by
  unfold State.writeLost
  dsimp only
  (repeat' split) <;> simp

@[simp] theorem State.writeEvents_clk (s : State) (f : Fn) : (s.writeEvents f).clk = s.clk := by
  unfold State.writeEvents
  dsimp only
  (repeat' split) <;> simp

/-! ### Queue, clasp and tenant commands -/

@[simp] theorem State.cmdAddress_clk {s : State} {f : Fn} {slot a n : Nat} {writing : Bool} {offset : Nat} {rest : CmdEffect}
    (hr : ∀ u, (rest u).1.clk = u.clk) :
    (s.cmdAddress f slot a n writing offset rest).1.clk = s.clk := by
  unfold State.cmdAddress
  split <;> simp [hr]

@[simp] theorem refuse_clk (s : State) (st : Status) : (refuse s st).1.clk = s.clk := rfl

@[simp] theorem State.addRetireClasp_clk (s : State) (t : Tenant) : (s.addRetireClasp t).clk = s.clk := by
  unfold State.addRetireClasp
  split <;> simp

@[simp] theorem applyTenantConfigure_clk (p : TenantConfigureP) (a : State) : (applyTenantConfigure p a).1.clk = a.clk := by
  unfold applyTenantConfigure
  dsimp only
  (repeat' split) <;> simp

@[simp] theorem State.installPlan_clk (s : State) (new : BitVec 8) : (s.installPlan new).clk = s.clk := rfl

@[simp] theorem applyPartitionPlan_clk (p : PartitionPlanP) (a : State) : (applyPartitionPlan p a).1.clk = a.clk := by
  unfold applyPartitionPlan
  (repeat' split) <;> simp

@[simp] theorem applyQueueCreate_clk (h : CmdHead) (p : QueueCreateP) (a : State) : (applyQueueCreate h p a).1.clk = a.clk := by
  unfold applyQueueCreate
  dsimp only
  split
  · rfl
  · split
    · rfl
    · split
      · rfl
      · split
        · rfl
        · refine State.cmdAddress_clk fun u => ?_
          split
          · rfl
          · exact State.cmdAddress_clk fun _ => rfl

@[simp] theorem State.dropQueue_clk (s : State) (q : Queue) : (s.dropQueue q).clk = s.clk :=
  clk_foldl (fun _ _ => by rfl) _ _

@[simp] theorem applyQueueDestroy_clk (h : CmdHead) (p : SlotP) (a : State) : (applyQueueDestroy h p a).1.clk = a.clk := by
  unfold applyQueueDestroy
  (repeat' split) <;> simp

@[simp] theorem applyClaspCreate_clk (h : CmdHead) (p : ClaspCreateP) (a : State) : (applyClaspCreate h p a).1.clk = a.clk := by
  unfold applyClaspCreate
  split
  · rfl
  · dsimp only
    split
    · rfl
    · exact State.cmdAddress_clk fun _ => rfl

@[simp] theorem applyClaspSignal_clk (h : CmdHead) (p : ClaspSignalP) (a : State) : (applyClaspSignal h p a).1.clk = a.clk := by
  unfold applyClaspSignal
  split
  · rfl
  · split
    · rfl
    · split
      · rfl
      · dsimp only
        split
        · exact State.cmdAddress_clk fun _ => rfl
        · rfl

@[simp] theorem applyClaspDestroy_clk (h : CmdHead) (p : ClaspP) (a : State) : (applyClaspDestroy h p a).1.clk = a.clk := by
  unfold applyClaspDestroy
  (repeat' split) <;> simp

@[simp] theorem State.beginWork_clk (s : State) (h : CmdHead) (op : Byte) (pos : Option RingPos) (k : WorkKind) :
    (s.beginWork h op pos k).clk = s.clk := rfl

@[simp] theorem applyNop_clk (a : State) : (applyNop a).1.clk = a.clk := rfl

/-! ### Firmware commands -/

@[simp] theorem applyFwDownloadChunk_clk (h : CmdHead) (pos : Option RingPos) (p : FwChunkP) (a : State) :
    (applyFwDownloadChunk h pos p a).1.clk = a.clk := by
  unfold applyFwDownloadChunk
  dsimp only
  (repeat' split) <;> simp

@[simp] theorem applyFwVerify_clk (h : CmdHead) (pos : Option RingPos) (p : ComponentP) (a : State) :
    (applyFwVerify h pos p a).1.clk = a.clk := by
  unfold applyFwVerify
  dsimp only
  (repeat' split) <;> simp

@[simp] theorem applyFwActivate_clk (h : CmdHead) (pos : Option RingPos) (p : ComponentP) (a : State) :
    (applyFwActivate h pos p a).1.clk = a.clk := by
  unfold applyFwActivate
  dsimp only
  (repeat' split) <;> simp

@[simp] theorem applyFwConfirm_clk (h : CmdHead) (pos : Option RingPos) (p : ComponentP) (a : State) :
    (applyFwConfirm h pos p a).1.clk = a.clk := by
  unfold applyFwConfirm
  dsimp only
  (repeat' split) <;> simp

/-! ### Pools -/

@[simp] theorem State.setLevels_clk (s : State) : s.setLevels.clk = s.clk := rfl

@[simp] theorem State.raiseLevels_clk (s before mid : State) : (s.raiseLevels before mid).clk = s.clk :=
  clk_foldl (fun _ _ => clk_foldl (fun _ _ => by dsimp only; split <;> simp) _ _) _ _

@[simp] theorem State.alloc_clk (s : State) (row : Row) (bytes : Nat) (owner : Owner) (cls : Option ServiceClass)
    (job : Option FrameRef) (session : Option (Fn × Nat)) :
    (s.alloc row bytes owner cls job session).2.clk = s.clk := by
  unfold State.alloc
  dsimp only
  (repeat' split) <;> simp

@[simp] theorem State.closeOwner_clk (s : State) (p : Nat) (o : Owner) (session : Option (Fn × Nat)) :
    (s.closeOwner p o session).clk = s.clk := by
  unfold State.closeOwner
  split <;> simp

/-! ### Memory nodes -/

@[simp] theorem State.planPorts_clk (s : State) (row : Row) : (s.planPorts row).clk = s.clk := by
  unfold State.planPorts
  dsimp only
  rw [State.modPort_clk]
  exact clk_foldlOf Prod.snd (fun _ _ => by rfl) _ _

@[simp] theorem State.reportLate_clk (s : State) : s.reportLate.clk = s.clk :=
  clk_foldl (fun _ _ => by dsimp only; split <;> rfl) _ _

@[simp] theorem State.memoryCommit_clk (s : State) : s.memoryCommit.clk = s.clk := by
  unfold State.memoryCommit
  dsimp only
  rw [clk_foldl State.planPorts_clk, clk_foldl (fun _ _ => State.modChannel_clk _ _ _)]
  exact s.reportLate_clk

/-! ### Models -/

@[simp] theorem applyModelLoad_clk (h : CmdHead) (pos : Option RingPos) (p : ModelLoadP) (a : State) :
    (applyModelLoad h pos p a).1.clk = a.clk := by
  unfold applyModelLoad
  split
  · rfl
  · split
    · rfl
    · exact State.cmdAddress_clk fun _ => rfl

@[simp] theorem State.dropModel_clk (s : State) (f : Fn) (id : Nat) : (s.dropModel f id).clk = s.clk := rfl

@[simp] theorem applyModelUnload_clk (h : CmdHead) (p : ModelP) (a : State) : (applyModelUnload h p a).1.clk = a.clk := by
  unfold applyModelUnload
  (repeat' split) <;> simp

/-! ### Quantization -/

@[simp] theorem State.retuneModel_clk (s : State) (fn : Fn) (id : Nat) : (s.retuneModel fn id).clk = s.clk := by
  unfold State.retuneModel
  dsimp only
  (repeat' split) <;> simp

@[simp] theorem State.takeRetunes_clk (s : State) : s.takeRetunes.clk = s.clk := by simp [State.takeRetunes]

@[simp] theorem applyCalibration_clk (h : CmdHead) (p : CalibrationP) (a : State) : (applyCalibration h p a).1.clk = a.clk := by
  unfold applyCalibration
  dsimp only
  (repeat' split) <;> simp

/-! ### Admission -/

@[simp] theorem State.overcommitCommit_clk (s : State) : s.overcommitCommit.clk = s.clk := by simp [State.overcommitCommit]

/-! ### Streams -/

@[simp] theorem State.addStream_clk (s : State) (x : Stream) : (s.addStream x).clk = s.clk := rfl

@[simp] theorem applyStreamOpen_clk (h : CmdHead) (p : StreamOpenP) (a : State) : (applyStreamOpen h p a).1.clk = a.clk := by
  unfold applyStreamOpen
  (repeat' split) <;> simp

@[simp] theorem State.freeBuffer_clk (s : State) (p handle : Nat) : (s.freeBuffer p handle).clk = s.clk := by
  unfold State.freeBuffer
  (repeat' split) <;> simp

@[simp] theorem State.freeBuffers_clk (s : State) (p : Nat) (handles : List Nat) : (s.freeBuffers p handles).clk = s.clk := by
  simp [State.freeBuffers]

@[simp] theorem State.beginClose_clk (s : State) (x : Stream) : (s.beginClose x).clk = s.clk := by
  simp [State.beginClose]

@[simp] theorem State.removeStream_clk (s : State) (x : Stream) : (s.removeStream x).clk = s.clk := by
  simp [State.removeStream]

@[simp] theorem applyStreamClose_clk (h : CmdHead) (pos : Option RingPos) (p : HandleP) (a : State) :
    (applyStreamClose h pos p a).1.clk = a.clk := by
  unfold applyStreamClose
  split <;> simp

@[simp] theorem State.endStream_clk (s : State) (x : Stream) : (s.endStream x).clk = s.clk := by
  unfold State.endStream
  dsimp only
  (repeat' split) <;> simp

@[simp] theorem State.endClosing_clk (s : State) : s.endClosing.clk = s.clk := by simp [State.endClosing]

@[simp] theorem applyStreamModify_clk (h : CmdHead) (p : StreamModifyP) (a : State) : (applyStreamModify h p a).1.clk = a.clk := by
  unfold applyStreamModify
  dsimp only
  (repeat' split) <;> simp [State.touchEpoch_clk]

@[simp] theorem State.storeTable_clk (s : State) (f : Fn) (x : Option Stream) (c : TableContent) :
    (s.storeTable f x c).clk = s.clk := by
  unfold State.storeTable
  (repeat' split) <;> simp [State.touchEpoch_clk]

@[simp] theorem applyTableWrite_clk (h : CmdHead) (p : TableWriteP) (a : State) : (applyTableWrite h p a).1.clk = a.clk := by
  unfold applyTableWrite
  split
  · rfl
  · refine State.cmdAddress_clk fun u => ?_
    (repeat' split) <;> simp

/-! ### Ingest -/

@[simp] theorem State.allocFor_clk (s : State) (x : Stream) (row : Row) (bytes : Nat) : (s.allocFor x row bytes).2.clk = s.clk := by
  have h := State.alloc_clk s row bytes (.stream (BitVec.ofNat 16 x.handle)) (some x.cls) none none
  unfold State.allocFor
  split <;> simp_all

@[simp] theorem State.allocChunk_clk (s : State) (x : Stream) (bytes : Nat) : (s.allocChunk x bytes).2.clk = s.clk := by
  simp [State.allocChunk]

/-! ### The ends of a frame's stages -/

@[simp] theorem State.reportDecode_clk (s : State) (x : Stream) (f : Frame) (errs : List DecodeErr) (reordered : Bool) (concealed : Nat) :
    (s.reportDecode x f errs reordered concealed).clk = s.clk := by
  unfold State.reportDecode
  (repeat' split) <;> simp

@[simp] theorem State.doneWith_clk (s : State) (x : Stream) (ps : List Nat) : (s.doneWith x ps).clk = s.clk := rfl

@[simp] theorem State.endChunks_clk (s : State) (x : Stream) (f : Frame) : (s.endChunks x f).clk = s.clk := by
  simp [State.endChunks]

@[simp] theorem State.endFrame_clk (s : State) (handle seq : Nat) (e : Ended) : (s.endFrame handle seq e).clk = s.clk := rfl

@[simp] theorem State.closeDecode_clk (s : State) (x : Stream) (f : Frame) : (s.closeDecode x f).clk = s.clk := by
  unfold State.closeDecode
  dsimp only
  (repeat' split) <;> simp

@[simp] theorem State.closePrepare_clk (s : State) (x : Stream) (f : Frame) : (s.closePrepare x f).clk = s.clk := rfl

@[simp] theorem State.closePost_clk (s : State) (x : Stream) (f : Frame) : (s.closePost x f).clk = s.clk := rfl

@[simp] theorem State.closeEmit_clk (s : State) (x : Stream) (f : Frame) : (s.closeEmit x f).clk = s.clk := by
  unfold State.closeEmit
  dsimp only
  (repeat' split) <;> simp

@[simp] theorem State.dropPictures_clk (s : State) (handle : Nat) (before : List Nat) : (s.dropPictures handle before).clk = s.clk := by
  unfold State.dropPictures
  split <;> simp

/-! ### Records -/

@[simp] theorem State.crcFault_clk (s : State) (stream seq : Nat) : (s.crcFault stream seq).clk = s.clk := rfl

@[simp] theorem State.postRecord_clk (s : State) (bad : List Nat) (q : Queue) (stream frameSeq : Nat) (r : Record) :
    (s.postRecord bad q stream frameSeq r).clk = s.clk := by
  unfold State.postRecord
  dsimp only
  (repeat' split) <;> simp

@[simp] theorem State.offer_clk (s : State) (bad : List Nat) (q : Queue) (stream first last : Nat) (alert : Bool) (r : Record) :
    (s.offer bad q stream first last alert r).1.clk = s.clk := by
  unfold State.offer
  split <;> simp

@[simp] theorem State.offerRetraction_clk (s : State) (bad : List Nat) (r : Retraction) : (s.offerRetraction bad r).clk = s.clk := by
  unfold State.offerRetraction
  dsimp only
  (repeat' split) <;> simp

@[simp] theorem State.writeGaps_clk (s : State) (bad : List Nat) (f : Fn) (slot : Nat) : (s.writeGaps bad f slot).clk = s.clk := by
  unfold State.writeGaps
  split
  · split
    · rfl
    · refine (clk_foldl (fun _ _ => State.offerRetraction_clk _ _ _) _ _).trans (clk_foldl (fun _ _ => ?_) _ _)
      split <;> simp
  · rfl

@[simp] theorem State.remember_clk (s : State) (q : Queue) (e : Ended) (seq : Nat) : (s.remember q e seq).clk = s.clk := rfl

@[simp] theorem State.offerFrame_clk (s : State) (bad : List Nat) (r : Receiver) (e : Ended) (alert : Bool)
    (make : Nat → Nat → Record) : (s.offerFrame bad r e alert make).clk = s.clk := by
  unfold State.offerFrame
  dsimp only
  (repeat' split) <;> simp

@[simp] theorem State.deliver_clk (s : State) (bad : List Nat) (e : Ended) (r : Receiver) : (s.deliver bad e r).clk = s.clk := by
  simp [State.deliver]

@[simp] theorem State.deliverTo_clk (s : State) (bad : List Nat) (ended : List Ended) (f : Fn) (slot : Nat) :
    (s.deliverTo bad ended f slot).clk = s.clk := by
  simp [State.deliverTo]

@[simp] theorem State.ringRecords_clk (s : State) (bad : List Nat) (ended : List Ended) (f : Fn) (slot : Nat) :
    (s.ringRecords bad ended f slot).clk = s.clk := by
  simp [State.ringRecords]

@[simp] theorem State.issueRecords_clk (s : State) (bad : List Nat) : (s.issueRecords bad).clk = s.clk := by
  simp [State.issueRecords]

@[simp] theorem State.issueEvents_clk (s : State) : s.issueEvents.clk = s.clk := by simp [State.issueEvents]

@[simp] theorem State.issueData_clk (s : State) : s.issueData.clk = s.clk := rfl

@[simp] theorem State.sealCompletions_clk (s : State) : s.sealCompletions.clk = s.clk := rfl

@[simp] theorem State.issueCompletion_clk (s : State) (c : PendingCompletion) : (s.issueCompletion c).clk = s.clk := by
  unfold State.issueCompletion
  (repeat' split) <;> simp

@[simp] theorem State.issueCompletions_clk (s : State) : s.issueCompletions.clk = s.clk := by simp [State.issueCompletions]

@[simp] theorem State.issueWriteback_clk (s : State) (q : Queue) : (s.issueWriteback q).clk = s.clk := by
  unfold State.issueWriteback
  (repeat' split) <;> simp

@[simp] theorem State.issueWakes_clk (s : State) (q : Queue) : (s.issueWakes q).clk = s.clk := by
  unfold State.issueWakes
  split <;> simp

@[simp] theorem State.issueMirror_clk (s : State) (c : Clasp) : (s.issueMirror c).clk = s.clk := by
  unfold State.issueMirror
  dsimp only
  (repeat' split) <;> simp

@[simp] theorem State.fireThreshold_clk (s : State) (c : Clasp) : (s.fireThreshold c).clk = s.clk := by
  unfold State.fireThreshold
  (repeat' split) <;> simp

@[simp] theorem State.issueHeartbeat_clk (s : State) (f : Fn) : (s.issueHeartbeat f).clk = s.clk := by
  unfold State.issueHeartbeat
  dsimp only
  (repeat' split) <;> simp

@[simp] theorem State.issueMsix_clk (s : State) (m : Fn × Nat) : (s.issueMsix m).clk = s.clk := by
  unfold State.issueMsix
  dsimp only
  (repeat' split) <;> simp

@[simp] theorem State.issueRest_clk (s : State) (heartbeats : Bool) : (s.issueRest heartbeats).clk = s.clk := by
  unfold State.issueRest
  split <;> simp

@[simp] theorem State.postAhead_clk (s : State) (bad : List Nat) (p : Posted) : (s.postAhead bad p).clk = s.clk := by
  unfold State.postAhead
  (repeat' split) <;> simp

@[simp] theorem State.issueStart_clk (s : State) (bad : List Nat) : (s.issueStart bad).clk = s.clk := by
  simp [State.issueStart]

@[simp] theorem State.issueStep_clk (s : State) (bad : List Nat) (heartbeats : Bool) : (s.issueStep bad heartbeats).clk = s.clk := by
  simp [State.issueStep]

/-! ### The plan -/

@[simp] theorem State.skipPicture_clk (s : State) (x : Stream) (p : Pending) (cause : Nat) : (s.skipPicture x p cause).clk = s.clk := by
  simp [State.skipPicture]

@[simp] theorem State.shedClass_clk (s : State) (p cls : Nat) : (s.shedClass p cls).clk = s.clk := by
  unfold State.shedClass
  split
  · exact clk_foldl (fun _ _ => by (repeat' split) <;> simp) _ _
  · rfl

@[simp] theorem State.shed_clk (s : State) : s.shed.clk = s.clk := by simp [State.shed]

@[simp] theorem State.leaveEarly_clk (s : State) (x : Stream) (f : Frame) (e : Ended) : (s.leaveEarly x f e).clk = s.clk := by
  unfold State.leaveEarly
  split <;> simp

@[simp] theorem State.endEarly_clk (s : State) (x : Stream) (f : Frame) (cause : Nat) : (s.endEarly x f cause).clk = s.clk := by
  simp [State.endEarly]

@[simp] theorem State.withdraw_clk (s : State) (x : Stream) (f : Frame) (cause : Nat) : (s.withdraw x f cause).clk = s.clk := by
  unfold State.withdraw
  split <;> simp

@[simp] theorem State.withdrawOverruns_clk (s : State) : s.withdrawOverruns.clk = s.clk :=
  clk_foldl (fun _ _ => clk_foldl (fun _ _ => by split <;> simp) _ _) _ _

@[simp] theorem State.logPlan_clk (s : State) (x : Stream) (seq : Nat) (us : List UnitRef) : (s.logPlan x seq us).clk = s.clk := rfl

@[simp] theorem Planning.flight_clk (pl : Planning) (x : Stream) (f : Frame) : (pl.flight x f).st.clk = pl.st.clk := by
  unfold Planning.flight
  dsimp only
  (repeat' split) <;> simp

@[simp] theorem State.noteWait_clk (s : State) (x : Stream) (seq cause : Nat) : (s.noteWait x seq cause).clk = s.clk := rfl

@[simp] theorem State.pictureBuffer_clk (s : State) (x : Stream) (p : Pending) (us : List UnitRef) :
    (s.pictureBuffer x p us).2.clk = s.clk := by
  unfold State.pictureBuffer
  split
  next row _ _ =>
    have h := s.allocFor_clk x row (x.storedBytes p)
    split <;> simp_all
  · rfl

@[simp] theorem State.startFrame_clk (s : State) (x : Stream) (p : Pending) (buffer : Option Nat) (us : List UnitRef) :
    (s.startFrame x p buffer us).clk = s.clk := rfl

@[simp] theorem Planning.start_clk (pl : Planning) (x : Stream) (p : Pending) : (pl.start x p).st.clk = pl.st.clk := by
  unfold Planning.start
  dsimp only
  split
  next us _ _ =>
    have h := pl.st.pictureBuffer_clk x p us
    split
    · simp_all
    · dsimp only
      split <;> simp_all
  · simp

@[simp] theorem Planning.item_clk (pl : Planning) (i : Item) : (pl.item i).st.clk = pl.st.clk := by
  unfold Planning.item
  (repeat' split) <;> simp

@[simp] theorem State.retryPicture_clk (s : State) (x : Stream) (p : Pending) : (s.retryPicture x p).clk = s.clk := by
  unfold State.retryPicture
  dsimp only
  simp only [State.modStream_clk]
  refine clk_foldlOf Prod.fst (fun _ _ => ?_) _ _
  split <;> simp

@[simp] theorem State.retryBuffers_clk (s : State) : s.retryBuffers.clk = s.clk := by
  unfold State.retryBuffers
  refine clk_foldl (fun _ _ => ?_) _ _
  split <;> simp

@[simp] theorem State.holdCause_clk (s : State) (x : Stream) (p : Pending) : (s.holdCause x p).2.clk = s.clk := by
  unfold State.holdCause
  (repeat' split) <;> simp

@[simp] theorem State.holdPictures_clk (s : State) : s.holdPictures.clk = s.clk := by simp [State.holdPictures]

@[simp] theorem State.endWaits_clk (s : State) : s.endWaits.clk = s.clk :=
  clk_foldl (fun _ _ => clk_foldl (fun _ _ => by split <;> simp) _ _) _ _

@[simp] theorem State.plan_clk (s : State) : s.plan.clk = s.clk := by
  unfold State.plan
  simp [clk_foldlOf Planning.st Planning.item_clk]

/-! ### The chain -/

@[simp] theorem State.chainSend_clk (s : State) (o : ChainOut) : (s.chainSend o).clk = s.clk := rfl

@[simp] theorem State.routesCommit_clk (s : State) : s.routesCommit.clk = s.clk := by
  unfold State.routesCommit
  dsimp only
  (repeat' split) <;> simp

@[simp] theorem State.linkDown_clk (s : State) (k : Link) (cause : Nat) : (s.linkDown k cause).clk = s.clk :=
  (s.linkDown_leaves k cause).1

@[simp] theorem State.sendTick_clk (s : State) (src dst : Nat) (f : PeerFlit) : (s.sendTick src dst f).clk = s.clk := by
  unfold State.sendTick
  split <;> simp

@[simp] theorem State.reviseBuddy_clk (s : State) : s.reviseBuddy.clk = s.clk := by
  unfold State.reviseBuddy
  dsimp only
  (repeat' split) <;> simp

@[simp] theorem State.mirrorCommit_clk (s : State) : s.mirrorCommit.clk = s.clk := by
  unfold State.mirrorCommit
  dsimp only
  (repeat' split) <;> simp

@[simp] theorem State.sendPeerTicks_clk (s : State) : s.sendPeerTicks.clk = s.clk := by
  unfold State.sendPeerTicks
  split
  · exact clk_foldl (fun _ _ => by split <;> simp) _ _
  · rfl

@[simp] theorem State.chainFresh_clk (s : State) : s.chainFresh.clk = s.clk := rfl

/-! ### Migration -/

@[simp] theorem State.startMigration_clk (s : State) (x : Stream) (target decode : Nat) (head : Option CmdHead) (balancer : Bool) :
    (s.startMigration x target decode head balancer).clk = s.clk :=
  clk_foldl (fun _ _ => by rfl) _ _

@[simp] theorem applyStreamMigrate_clk (h : CmdHead) (pos : Option RingPos) (p : StreamMigrateP) (a : State) :
    (applyStreamMigrate h pos p a).1.clk = a.clk := by
  unfold applyStreamMigrate
  dsimp only
  (repeat' split) <;> simp

@[simp] theorem State.tellBalance_clk (s : State) (code : Nat) (x : Stream) (previous new : Nat) :
    (s.tellBalance code x previous new).clk = s.clk := rfl

@[simp] theorem State.takeRemoteEnd_clk (s : State) (e : RemoteEnd) : (s.takeRemoteEnd e).clk = s.clk := by
  unfold State.takeRemoteEnd
  (repeat' split) <;> simp

@[simp] theorem State.remoteResults_clk (s : State) : s.remoteResults.clk = s.clk := by simp [State.remoteResults]

@[simp] theorem Balancing.take_clk (advise balancer : Bool) (p k : Nat) (b : Balancing) (x : Stream) :
    (b.take advise balancer p k x).st.clk = b.st.clk := by
  unfold Balancing.take
  dsimp only
  (repeat' split) <;> simp

@[simp] theorem State.evacuate_clk (s : State) : s.evacuate.clk = s.clk := by
  unfold State.evacuate
  split
  · exact clk_foldlOf Balancing.st (fun _ _ => clk_foldlOf Balancing.st (Balancing.take_clk _ _ _ _) _ _) _ _
  · rfl

/-! ### Samples -/

@[simp] theorem State.modSession_clk (s : State) (x : Session) (g : Session → Session) : (s.modSession x g).clk = s.clk := rfl

@[simp] theorem State.sampleFault_clk (s : State) (x : Session) (q : Queue) (n : Nat) : (s.sampleFault x q n).clk = s.clk := by
  unfold State.sampleFault
  split <;> simp

@[simp] theorem State.sampleOne_clk (s : State) (x : Session) (c : SampleCand) : (s.sampleOne x c).clk = s.clk := by
  unfold State.sampleOne
  dsimp only
  (repeat' split) <;> simp

@[simp] theorem State.sampleCommit_clk (s : State) : s.sampleCommit.clk = s.clk := by simp [State.sampleCommit]

@[simp] theorem State.writeSummary_clk (s : State) (x : Session) : (s.writeSummary x).clk = s.clk := by
  unfold State.writeSummary
  (repeat' split) <;> simp

@[simp] theorem State.endSession_clk (s : State) (x : Session) : (s.endSession x).clk = s.clk := by simp [State.endSession]

@[simp] theorem applySampleStart_clk (h : CmdHead) (p : SampleStartP) (a : State) : (applySampleStart h p a).1.clk = a.clk := by
  unfold applySampleStart
  dsimp only
  split
  · rfl
  · split
    · rfl
    · (repeat' split)
      case isFalse => exact State.cmdAddress_clk fun _ => rfl
      all_goals rfl

@[simp] theorem applySampleStop_clk (h : CmdHead) (p : SlotP) (a : State) : (applySampleStop h p a).1.clk = a.clk := by
  unfold applySampleStop
  split <;> simp

@[simp] theorem State.endEpochs_clk (s : State) : s.endEpochs.clk = s.clk :=
  clk_foldl (fun _ _ => by split <;> simp) _ _

/-! ### Resets -/

@[simp] theorem State.tellClosed_clk (s : State) (x : Stream) : (s.tellClosed x).clk = s.clk :=
  clk_foldl (fun _ _ => by rfl) _ _

@[simp] theorem State.forgetStream_clk (s : State) (x : Stream) : (s.forgetStream x).clk = s.clk := rfl

@[simp] theorem State.closeStreamsOf_clk (s : State) (f : Fn) : (s.closeStreamsOf f).clk = s.clk :=
  clk_foldl (fun _ _ => (State.forgetStream_clk _ _).trans (State.tellClosed_clk _ _)) _ _

@[simp] theorem State.unsubscribe_clk (s : State) (t : Tenant) : (s.unsubscribe t).clk = s.clk :=
  clk_foldl (fun _ _ => by exact State.touchEpoch_clk _ _) _ _

@[simp] theorem State.scrubTenant_clk (s : State) (t : Tenant) : (s.scrubTenant t).clk = s.clk := rfl

@[simp] theorem State.dropFunction_clk (s : State) (f : Fn) : (s.dropFunction f).clk = s.clk := rfl

@[simp] theorem State.dropBegun_clk (s : State) (f : Fn) : (s.dropBegun f).clk = s.clk := rfl

@[simp] theorem State.beginTenant_clk (s : State) (t : Tenant) : (s.beginTenant t).clk = s.clk := by simp [State.beginTenant]

@[simp] theorem State.beginReset_clk (s : State) (f : Fn) : (s.beginReset f).clk = s.clk := by
  unfold State.beginReset
  split <;> simp

@[simp] theorem State.beginResets_clk (s : State) : s.beginResets.clk = s.clk := by
  unfold State.beginResets
  dsimp only
  rw [clk_foldl (fun _ _ => State.modFn_clk _ _ _), clk_foldl State.beginReset_clk]

/-! ### Safety reactions -/

@[simp] theorem applyAuditRead_clk (l : State) (h : CmdHead) (p : AuditReadP) (a : State) : (applyAuditRead l h p a).1.clk = a.clk := by
  unfold applyAuditRead
  dsimp only
  split
  · rfl
  · exact State.cmdAddress_clk fun _ => rfl

@[simp] theorem State.retain_clk (s : State) (x : Stream) (f : Frame) : (s.retain x f).clk = s.clk := rfl

@[simp] theorem State.discardFrame_clk (s : State) (x : Stream) (f : Frame) : (s.discardFrame x f).clk = s.clk := by
  unfold State.discardFrame
  split <;> simp

@[simp] theorem State.discard_clk (s : State) (mark : Option Nat) (k : Nat × Nat) : (s.discard mark k).clk = s.clk := by
  unfold State.discard
  dsimp only
  (repeat' split) <;> simp

@[simp] theorem State.markFrames_clk (s : State) (cause : Nat) (ks : List (Nat × Nat)) : (s.markFrames cause ks).clk = s.clk :=
  clk_foldl (fun _ _ => by split <;> simp) _ _

@[simp] theorem State.retract_clk (s : State) (rs : List Retraction) : (s.retract rs).clk = s.clk := rfl

@[simp] theorem State.tellSafety_clk (s : State) (fs : List Fn) (x : Failure) (retractions : Nat) :
    (s.tellSafety fs x retractions).clk = s.clk :=
  clk_foldl (fun _ _ => by rfl) _ _

@[simp] theorem State.react_clk (s : State) (x : Failure) : (s.react x).clk = s.clk := by simp [State.react]

@[simp] theorem State.haltPartition_clk (s : State) (cls : FaultClass) (unit : Option UnitRef) (p : Nat) :
    (s.haltPartition cls unit p).clk = s.clk := by
  unfold State.haltPartition
  split <;> simp

@[simp] theorem State.retick_clk (s : State) (n : Nat) : (s.retick n).clk = s.clk := rfl

@[simp] theorem State.lockstepReact_clk (s : State) (n : FaultNote) : (s.lockstepReact n).clk = s.clk := by
  unfold State.lockstepReact
  dsimp only
  (repeat' split) <;> simp

@[simp] theorem State.touchstoneReact_clk (s : State) (n : FaultNote) : (s.touchstoneReact n).clk = s.clk := by
  unfold State.touchstoneReact
  dsimp only
  (repeat' split) <;> simp

@[simp] theorem State.closeUnit_clk (s : State) (u : UnitRef) (lostRow : Option Nat) : (s.closeUnit u lostRow).clk = s.clk := by
  unfold State.closeUnit
  split <;> simp

@[simp] theorem State.dropRow_clk (s : State) (r : Nat) : (s.dropRow r).clk = s.clk :=
  clk_foldl (fun _ _ => clk_foldl (fun _ _ => by split <;> simp) _ _) _ _

@[simp] theorem State.passRetest_clk (s : State) (r : Retest) : (s.passRetest r).clk = s.clk := rfl

@[simp] theorem State.restart_clk (s : State) (handle : Nat) : (s.restart handle).clk = s.clk := by
  unfold State.restart
  split <;> simp

@[simp] theorem State.enterFailed_clk (s : State) (cls : FaultClass) (unit : Option UnitRef) (detect since : Nat) :
    (s.enterFailed cls unit detect since).clk = s.clk := by
  unfold State.enterFailed
  split <;> simp

@[simp] theorem State.crcReact_clk (s : State) (n : FaultNote) : (s.crcReact n).clk = s.clk := by
  unfold State.crcReact
  dsimp only
  (repeat' split) <;> simp

@[simp] theorem State.loseState_clk (s : State) (handle : Nat) : (s.loseState handle).clk = s.clk := by
  unfold State.loseState
  split <;> simp

@[simp] theorem State.plainReact_clk (s : State) (n : FaultNote) : (s.plainReact n).clk = s.clk := by
  unfold State.plainReact
  dsimp only
  (repeat' split) <;> simp

@[simp] theorem State.faultReact_clk (s : State) (n : FaultNote) : (s.faultReact n).clk = s.clk := by
  unfold State.faultReact
  (repeat' split) <;> simp

/-! ### The apply step -/

@[simp] theorem State.applyRwc_clk (s : State) : s.applyRwc.clk = s.clk := by simp [State.applyRwc]

@[simp] theorem State.applyKeys_clk (s : State) : s.applyKeys.clk = s.clk :=
  clk_foldl (fun _ _ => by split <;> simp) _ _

@[simp] theorem State.drainClosing_clk (s : State) : s.drainClosing.clk = s.clk :=
  clk_foldl (fun _ _ => by rfl) _ _

@[simp] theorem State.passOvers_clk (s : State) : s.passOvers.clk = s.clk := rfl

@[simp] theorem State.levelCommit_clk (s : State) : s.levelCommit.clk = s.clk := by simp [State.levelCommit]

@[simp] theorem State.epochCommit_clk (s : State) : s.epochCommit.clk = s.clk := rfl

@[simp] theorem State.retireCommit_clk (s : State) : s.retireCommit.clk = s.clk :=
  clk_foldl (fun _ _ => by split <;> simp) _ _

@[simp] theorem State.latchClasps_clk (s : State) : s.latchClasps.clk = s.clk := rfl

@[simp] theorem State.settle_clk (s : State) : s.settle.clk = s.clk := by simp [State.settle]

/-! ### Frame results, the safety decisions and the decision point -/

@[simp] theorem State.addLedger_clk (s : State) (type kind unit source : Nat) (d : List Byte) :
    (s.addLedger type kind unit source d).clk = s.clk := (s.addLedger_leaves type kind unit source d).2.1

@[simp] theorem State.closeInfer_clk (s : State) (x : Stream) (f : Frame) : (s.closeInfer x f).clk = s.clk := by
  unfold State.closeInfer
  exact clk_foldl (fun _ _ => by rfl) _ _

@[simp] theorem State.closeStage_clk (s : State) (x : Stream) (f : Frame) : (s.closeStage x f).clk = s.clk := by
  unfold State.closeStage
  split <;> simp

@[simp] theorem State.closeStream_clk (s : State) (handle : Nat) : (s.closeStream handle).clk = s.clk := by
  unfold State.closeStream
  split
  · dsimp only
    rw [State.dropPictures_clk]
    refine clk_foldl (fun _ _ => ?_) _ _
    split <;> simp
  · rfl

@[simp] theorem State.frameResults_clk (s : State) : s.frameResults.clk = s.clk := clk_foldl State.closeStream_clk _ _

@[simp] theorem State.results_clk (s : State) : s.results.clk = s.clk := by simp [State.results]

@[simp] theorem State.retireUnit_clk (s : State) (u : UnitRef) (code : Nat) : (s.retireUnit u code).clk = s.clk := by
  unfold State.retireUnit
  dsimp only
  (repeat' split) <;> simp

@[simp] theorem State.endRetest_clk (s : State) (r : Retest) : (s.endRetest r).clk = s.clk := by
  unfold State.endRetest
  split
  · simp
  · exact clk_foldl (fun t u => t.retireUnit_clk u 0x402) _ _

@[simp] theorem State.decideRetest_clk (s : State) (r : Retest) : (s.decideRetest r).clk = s.clk := by
  unfold State.decideRetest
  dsimp only
  (repeat' split) <;> simp

@[simp] theorem State.safetyDecisions_clk (s : State) : s.safetyDecisions.clk = s.clk := by
  simp [State.safetyDecisions]

@[simp] theorem State.auditCommit.chainBad_clk (s : State) (k : Link) : (State.auditCommit.chainBad s k).clk = s.clk := by
  unfold State.auditCommit.chainBad
  split <;> simp

@[simp] theorem State.auditCommit_clk (s l : State) : (s.auditCommit l).clk = s.clk := by
  unfold State.auditCommit
  dsimp only
  refine (clk_foldl (fun _ _ => ?_) _ _).trans ((clk_foldl (fun _ _ => ?_) _ _).trans ((clk_foldl (fun _ _ => ?_) _ _).trans
    ((clk_foldl (fun _ _ => ?_) _ _).trans (clk_foldl (fun _ _ => ?_) _ _)))) <;> split <;> simp

@[simp] theorem State.decisionPoint_clk (s l : State) (i : CommitIn) : (s.decisionPoint l i).clk = s.clk := by
  unfold State.decisionPoint
  dsimp only
  rw [clk_foldl State.faultReact_clk]
  (repeat' split) <;> simp

/-! ### The clock's own operations -/

/-- What the edge of a tick alone sets of a clock: the tick's number on both counters, the oscillator time of its edge and its length. -/
def Clock.beat (c : Clock) : Nat × Nat × Nat × Nat := (c.tick, c.twin, c.ocxoNs, c.lastLen)

@[simp] theorem Clock.beat_applyLoad (c : Clock) : c.applyLoad.beat = c.beat := by
  unfold Clock.applyLoad
  dsimp only
  (repeat' split) <;> rfl

@[simp] theorem Clock.beat_transition (c : Clock) : c.transition.beat = c.beat := by
  unfold Clock.transition
  (repeat' split) <;> rfl

@[simp] theorem State.raiseTimeNotes_beat (s : State) (old : TimeMode) : (s.raiseTimeNotes old).clk.beat = s.clk.beat := by
  unfold State.raiseTimeNotes
  dsimp only
  rw [clk_foldl fun _ _ => ?_]
  · rfl
  · split <;> simp

@[simp] theorem State.timeCommit_beat (s : State) : s.timeCommit.clk.beat = s.clk.beat := by
  unfold State.timeCommit
  dsimp only
  split <;> simp

/-- The edge itself is the clock's advance: what follows it keeps the beat. -/
theorem State.edge_beat (s : State) : s.edge.clk.beat = s.clk.advance.beat := by
  simp [State.edge]

@[simp] theorem State.arm_beat (s : State) (value : Nat) (head : Option CmdHead) : (s.arm value head).clk.beat = s.clk.beat := by
  change s.supersede.clk.beat = s.clk.beat
  rw [State.supersede_clk]

@[simp] theorem State.armFromMmc_beat (s : State) : s.armFromMmc.clk.beat = s.clk.beat := by
  unfold State.armFromMmc
  split
  case h_1 v _ => exact s.arm_beat v none
  case h_2 => rfl

@[simp] theorem applyTimeSet_beat (h : CmdHead) (pos : Option RingPos) (p : TimeSetP) (s : State) :
    (applyTimeSet h pos p s).1.clk.beat = s.clk.beat :=
  s.arm_beat p.nextPpsTime.toNat (some h)

/-- TIME_SET alone arms the clock; every other command keeps it whole. -/
@[simp] theorem applyCmd_beat (l : State) (h : CmdHead) (pos : Option RingPos) (c : RingCmd) (s : State) :
    (applyCmd l h pos c s).1.clk.beat = s.clk.beat := by
  cases c <;> simp [applyCmd]

@[simp] theorem State.runRing_beat (s : State) (h : CmdHead) (c : RingCmd) (reserved : Option Nat) (pos : Option RingPos)
    {eff : CmdEffect} (heff : (eff s).1.clk.beat = s.clk.beat) : (s.runRing h c reserved pos eff).clk.beat = s.clk.beat := by
  unfold State.runRing
  split
  · simp
  · split
    · simp
    · split <;> simp_all

@[simp] theorem State.runAccepted_beat (s l : State) (a : Accepted) : (s.runAccepted l a).clk.beat = s.clk.beat := by
  unfold State.runAccepted
  split <;> simp

@[simp] theorem applyAccepted_beat (l s : State) (a : Accepted) : (applyAccepted l s a).clk.beat = s.clk.beat := by
  unfold applyAccepted
  split <;> simp

theorem State.applyCommands_beat (s l : State) : (s.applyCommands l).clk.beat = s.clk.beat := by
  unfold State.applyCommands
  dsimp only
  rw [clk_foldl State.dropBegun_clk]
  exact List.foldlRecOn (motive := fun t => t.clk.beat = s.clk.beat) _ _ rfl
    fun t ht a _ => (applyAccepted_beat l t a).trans ht

theorem State.applyStep_beat (s l : State) : (s.applyStep l).clk.beat = s.clk.beat := by
  simp [State.applyStep, State.applyCommands_beat]

theorem State.commitTick_beat (s : State) (i : CommitIn) : (s.commitTick i).clk.beat = s.clk.advance.beat := by
  unfold State.commitTick
  dsimp only
  rw [State.issueStep_clk]
  split <;> simp [State.applyStep_beat, State.edge_beat]

/-! ### A module that only keeps time -/

theorem State.hallmarkOne_eq_of_failed {s : State} (hs : s.safety.state = .failed) (f : Fn) :
    ∃ views, s.hallmarkOne f = { s with host := { s.host with views := views } } := by
  unfold State.hallmarkOne
  dsimp only
  split
  · exact ⟨_, rfl⟩
  · exact ⟨_, if_neg (by simp [State.withHost, hs])⟩

/-- R543: a FAILED module updates its views and raises nothing. -/
theorem State.hallmarkCommit_eq_of_failed {s : State} (hs : s.safety.state = .failed) :
    ∃ views, s.hallmarkCommit = { s with host := { s.host with views := views } } :=
  List.foldlRecOn (motive := fun t : State => ∃ views, t = { s with host := { s.host with views := views } }) allFns _
    ⟨s.host.views, rfl⟩ fun t ⟨_, ht⟩ f _ => by
      obtain ⟨_, hf⟩ := t.hallmarkOne_eq_of_failed (by rw [ht]; exact hs) f
      exact ⟨_, by rw [hf, ht]⟩

/-- The clock of a commit that only keeps time. -/
def Clock.idle (c : Clock) : Clock := { c.advance.applyLoad.transition with notes := [] }

theorem Clock.beat_idle (c : Clock) : c.idle.beat = c.advance.beat := by
  change c.advance.applyLoad.transition.beat = _
  simp

theorem State.idleTick_eq {s : State} (h : s.safety.state = .failed ∨ s.boot.broughtUp = false) :
    ∃ views, s.idleTick = { s with
      clk := s.clk.idle, host := { s.host with issue := [], ahead := [], views := views }
      safety := { s.safety with stale := s.safety.staleNext } } := by
  unfold State.idleTick
  dsimp only
  split
  case isTrue hup =>
    have hs : s.safety.state = .failed := h.resolve_right fun hb => by simp_all [State.withHost, State.withSafety]
    obtain ⟨views, hv⟩ := State.hallmarkCommit_eq_of_failed (s :=
      ({ s with clk := s.clk.idle }.withHost { s.host with issue := [], ahead := [] }).withSafety
        { s.safety with stale := s.safety.staleNext }) hs
    exact ⟨views, hv⟩
  case isFalse => exact ⟨s.host.views, rfl⟩

/-- The tick of a die that runs, FAILED or not. -/
def State.ticked (s : State) (i : CommitIn) : State :=
  if s.safety.state == .failed || !s.boot.broughtUp then s.idleTick else s.commitTick i

theorem exec_commit (i : CommitIn) (s : State) : exec (.commit i) s = .next (if s.boot.running then s.ticked i else s) := by
  change (.next (if !s.boot.running then s else s.ticked i) : Out) = _
  cases s.boot.running <;> rfl

theorem State.ticked_beat (s : State) (i : CommitIn) : (s.ticked i).clk.beat = s.clk.advance.beat := by
  unfold State.ticked
  split
  case isTrue h =>
    obtain ⟨views, hviews⟩ := State.idleTick_eq (s := s) (by simpa using h)
    rw [hviews]
    exact s.clk.beat_idle
  case isFalse => exact s.commitTick_beat i

/-! ### The length of a tick (R55, R56) -/

theorem nominalLen_bounds (n : Nat) : 1666666 ≤ nominalLen n ∧ nominalLen n ≤ 1666667 := by
  unfold nominalLen nominalNs
  omega

/-- R55: the pattern of the tick lengths. -/
theorem nominalLen_pattern (n : Nat) :
    nominalLen (3 * n) = 1666667 ∧ nominalLen (3 * n + 1) = 1666667 ∧ nominalLen (3 * n + 2) = 1666666 := by
  unfold nominalLen nominalNs
  omega

theorem nominalNs_add_600 (n : Nat) : nominalNs (n + 600) = nominalNs n + 1000000000 := by
  unfold nominalNs
  omega

/-- R56: the tick that begins is corrected by at most 1,666 ns, and not at all without a valid PPS. -/
theorem Clock.advance_lastLen (c : Clock) : ∃ corr : Int, corr.natAbs ≤ 1666 ∧ (c.ppsValid = false → corr = 0) ∧
    c.advance.lastLen = ((nominalLen (c.tick + 1) : Int) + corr).toNat := by
  refine ⟨if c.ppsValid then max (-1666) (min 1666 (c.phaseErr - c.slew)) else 0, ?_, fun h => by simp [h], rfl⟩
  generalize c.phaseErr - c.slew = err
  split <;> omega

/-- What a tick that begins at the clock's advance is like: the next number, at the edge that the old tick's length gives, its own
length the nominal one but for a correction of at most 1,666 ns. -/
structure Clock.Ticked (c d : Clock) : Prop where
  tick : d.tick = c.tick + 1
  twin : d.twin = c.twin + 1
  edge : d.ocxoNs = c.ocxoNs + c.lastLen
  near : ((d.lastLen : Int) - nominalLen d.tick).natAbs ≤ 1666
  free : c.ppsValid = false → d.lastLen = nominalLen d.tick

theorem Clock.ticked_of_beat {c d : Clock} (h : d.beat = c.advance.beat) : c.Ticked d := by
  simp only [Clock.beat, Prod.mk.injEq] at h
  obtain ⟨htick, htwin, hedge, hlen⟩ := h
  replace htick : d.tick = c.tick + 1 := htick
  obtain ⟨corr, hcorr, hfree, hadv⟩ := c.advance_lastLen
  have hlast : (d.lastLen : Int) = nominalLen d.tick + corr := by
    have hnominal := (nominalLen_bounds (c.tick + 1)).1
    rw [hlen, hadv, htick]
    generalize nominalLen (c.tick + 1) = n at hnominal
    omega
  refine ⟨htick, htwin, hedge, ?_, fun hpps => ?_⟩
  · rwa [hlast, add_sub_cancel_left]
  · rwa [hfree hpps, add_zero, Nat.cast_inj] at hlast

/-- R55: the bounds of a tick's length. -/
theorem Clock.Ticked.lastLen_bounds {c d : Clock} (h : c.Ticked d) : 1665000 ≤ d.lastLen ∧ d.lastLen ≤ 1668333 := by
  have hnear := h.near
  have hnominal := nominalLen_bounds d.tick
  generalize nominalLen d.tick = n at hnear hnominal
  omega

/-- Settles O7: both ticks of a running die keep the beat of the clock's advance, whatever else they do. -/
theorem commitKeepsTime : Obligations.CommitKeepsTime := by
  refine ⟨fun i s hrun => ?_, nominalLen_pattern, nominalNs_add_600, fun i s => ⟨fun hoff => ?_, fun hrun hidle => ?_⟩⟩
  · have hticked := Clock.ticked_of_beat (s.ticked_beat i)
    exact ⟨s.ticked i, by rw [exec_commit, if_pos hrun], hticked.tick, hticked.twin, hticked.edge, hticked.near,
      hticked.lastLen_bounds.1, hticked.lastLen_bounds.2, hticked.free⟩
  · rw [exec_commit, if_neg (by simp [hoff])]
  · obtain ⟨views, hviews⟩ := State.idleTick_eq hidle
    refine ⟨s.clk.idle, views, ?_, (Clock.ticked_of_beat s.clk.beat_idle).tick, rfl⟩
    rw [exec_commit, if_pos hrun, State.ticked, if_pos (by simpa using hidle), hviews]

end Sys2Proof.Machine
end
